-- ==== Sys2Proof/Word.lean ====
section
/-!
DEFINITION. The widths the manual counts in, and the sparse table every indexed piece of state is held in.
-/
namespace Sys2Proof

/-- A byte of device memory, of a frame or of a mailbox buffer. -/
abbrev Byte := BitVec 8

/-- A register (R5): 32 bits. -/
abbrev Word := BitVec 32

/-- A sparse table from numbers (an engine, a tile, a register offset ...) to values: the entries that
differ from what the reader's default gives, in rising order of their number. -/
abbrev Tbl (α : Type) := List (Nat × α)

end Sys2Proof
end

