-- ==== Sys2Proof/Syntax.lean ====
section
/-!
DEFINITION. The commands the block takes: one constructor per row of the table of operations and events, with the
operands the row needs. Engines, tiles, regions and the like are given by number; what the outside world measures or
sends (a sample, a frame, a reading) is an operand. Rows with operands stand first, each group in the table's order.
-/
namespace Sys2Proof

/-- The header of a peer frame as it arrives (R399): TYPE, SRCDEV, DSTDEV, POISON, TAG, LEN, ADDR, TS, REQ, MEMBERS,
STATUS and RETRY. -/
structure PHdr where
  typ : Nat
  src : Nat
  dst : Nat
  poison : Bool
  tag : Nat
  len : Nat
  addr : Nat
  ts : Nat
  req : Nat
  members : Nat
  status : Nat
  retry : Nat
  deriving DecidableEq, Repr

/-- A command: a row of the table. -/
inductive Instr where
  /-- PWRGD_RISING (R439): The board asserts PWRGD: the device latches the straps, starts the boot ROM and runs a
  cold reset. `straps`: BOOT_SRC, STANDALONE, PCIE_MODE, PEER_EN as bits 0–3. -/
  | pwrgdRising (straps : Nat)
  /-- RAIL_LOSS (R472): A rail leaves its tolerance while PWRGD is asserted; this is logged and handled as loss of
  PWRGD. `rail` is DATA byte 0 of R472. -/
  | railLoss (rail : Nat)
  /-- CLOCK_ABSENT (R475): A reference clock input is absent, and the effect listed for that clock follows. Clocks
  in R475's order; `absent` false is the clock's return. -/
  | clockAbsent (clk : Nat) (absent : Bool)
  /-- PERST_N_RELEASE (R438): PERST_N is released: the straps are sampled, the link trains and a trip latch is
  cleared. -/
  | perstRelease (straps : Nat)
  /-- CP_WATCHDOG_EXPIRY (R439): The firmware has left the hardware watchdog unserviced for 500 ms, which causes a
  CP watchdog reset and a CP_WDOG log entry. `word` is the firmware fault word. -/
  | cpWatchdogExpiry (word : Nat)
  /-- REGION_READY (R444): A region meets every readiness condition: its engines become IDLE and a READY event is
  raised. -/
  | regionReady (rg : Nat)
  /-- LC_CHANGE_RESET (R455): 1 ms after ASYNC_DONE of a life-cycle change, the life-cycle-change reset begins. -/
  | lcChangeReset (straps : Nat)
  /-- THERMAL_SAMPLE (R365): A sensor group sample is compared with its thresholds: levels set or clear, faults
  are detected and the sample rate changes. Groups 0–3 stacks, 4 hub, 5–8 laser assemblies, 9–12 DRAM pairs;
  readings in 1/16 °C. -/
  | thermalSample (g : Nat) (readings : List Int)
  /-- THERMAL_RESTART (R375): At least 10 s after a trip, with every sensor below its restart value, THERMTRIP_N
  is released and power-up runs. -/
  | thermalRestart (straps : Nat)
  /-- THROTTLE_ESCALATE (R370): After an ESC interval at or above the throttle value without a 0.5 °C fall, the
  source's step rises by 1. -/
  | throttleEscalate (g : Nat)
  /-- THROTTLE_RELEASE (R370): After a REL interval following a clear, the source's step falls by 1. -/
  | throttleRelease (g : Nat)
  /-- QUIET_PERIOD_LIMIT (R91): 2 ms after suspension, the quiet period ends. -/
  | quietPeriodLimit (p : Nat)
  /-- SAMPLE_WINDOW_END (R279): A 50 µs sample window ends: demodulation starts, the gain bands are evaluated and
  capture samples are taken. The 64 × 64 row-monitor samples of the window by row and chip, and the sums of the 64
  input-tap and output-tap samples by line; samples not given read 0. -/
  | sampleWindowEnd (p : Nat) (mons taps outs : List Nat)
  /-- ESTIMATES_READY (R294): The error estimates are ready 700 ns after the window: following-error supervision
  and the quiet watch run. -/
  | estimatesReady (p : Nat)
  /-- PATCH_SAMPLE (R283): In its chip slot, a patch runs the observer control law and writes its 64 heater codes.
  Patch `q`, with patch 0 the modulator rings too; `ce` coefficient words that needed ECC correction, `ue` the one
  found uncorrectable. -/
  | patchSample (p q ce : Nat) (ue : Option Nat)
  /-- COEF_REWRITE (R461): The CP rewrites the failing coefficient word from its copy. -/
  | coefRewrite (p : Nat)
  /-- PATCH_DEADLINE_MISS (R291): The end of the chip slot finds the sample incomplete: it is dropped and counted,
  and the fourth miss is a DEADLINE loss. Patch `q`; 64 + j modulator ring j. -/
  | patchDeadlineMiss (p q : Nat)
  /-- TEMP_REFRESH (R286): Every 1 ms the tile temperature refreshes the set-points, and a step larger than TSTEP
  starts a soft-start. -/
  | tempRefresh (p : Nat)
  /-- SOFT_START_COMPLETE (R292): A soft-start ramp reaches its target. -/
  | softStartComplete (p : Nat)
  /-- THERMAL_SETTLE_END (R299): The 150 ms open-loop settling ends and the sweep begins. -/
  | thermalSettleEnd (p : Nat)
  /-- SWEEP_TOOTH_END (R301): A sawtooth sweep tooth ends and the found codes are recorded. -/
  | sweepToothEnd (p : Nat)
  /-- CAPTURE_END (R299): The capture phase ends with the loop closed and identity checks begin. -/
  | captureEnd (p : Nat)
  /-- IDENTITY_CHECK_END (R303): A 3.2 ms identity check completes, and rings are confirmed, repeated, recovered
  or failed. -/
  | identityCheckEnd (p : Nat)
  /-- WRONG_LINE_MOVE_DONE (R304): The heater move of a wrong-line ring ends, and its local sweep begins. -/
  | wrongLineMoveDone (p : Nat)
  /-- LOCAL_SWEEP_END (R296): A re-acquisition local sweep and its capture end. -/
  | localSweepEnd (p : Nat)
  /-- LEGACY_TABLE_UPDATE (R307): Every 1 ms a legacy tile's heater codes are interpolated from its table. -/
  | legacyTableUpdate (p : Nat)
  /-- LEGACY_RECAL_BURST (R308): Every RECAL seconds, a legacy tile runs an 8-window dithered burst and shifts its
  table. -/
  | legacyRecalBurst (p : Nat)
  /-- TILE_RATE_CHANGE (R64): A pending TILE_CFG.RATE takes effect once the tile is IDLE with no open operation.
  -/
  | tileRateChange (e t : Nat)
  /-- INTEGRATION_WINDOW_OPEN (R103): A conversion's window opens once its segments are buffered, after the KRATE
  check, the gain setting and the quiet wait. The slot, and how many Tc ago within the cycle the window opened. -/
  | integrationWindowOpen (e : Nat) (t : (Nat × Nat))
  /-- CONVERSION_COMPLETE (R44): A conversion's column words and half-differences arrive, then saturation policy
  and the confidence gate apply. Each row's analogue error and half-difference, 1/256 product unit; rows not given
  have none. -/
  | conversionComplete (e t : Nat) (errs diffs : List Int)
  /-- SATURATION_RERUN (R54): A re-run window opens from the replay buffer at the first free slot. -/
  | saturationRerun (e t : Nat)
  /-- CONFIDENCE_REREAD (R83): R − 1 further readings start from the replay buffer at the first free slot. -/
  | confidenceReread (e t : Nat)
  /-- MAC_ARRAY_JOB_START (R109): The MAC array takes a job by priority kind and list order at a cycle boundary.
  -/
  | macArrayJobStart (e : Nat)
  /-- SPLIT_DONE (R110): A split column's exact word reaches the tile output path. -/
  | splitDone (e : Nat)
  /-- MAC_ARRAY_JOB_DONE (R88): A MAC-array fallback, redirect, SENS or DMM job completes with exact results. -/
  | macArrayJobDone (e : Nat)
  /-- RELOAD_COMPLETE (R39): A tile reload settles: the shadow and offsets are updated, feed-forward is passed and
  the tile is IDLE. -/
  | reloadComplete (e t : Nat)
  /-- TILE_WAIT_EXPIRY (R117): TILE_WAIT expires on a waiting tile operation, which is redirected to the MAC
  array. -/
  | tileWaitExpiry (e t : Nat)
  /-- DECODE_RESUME (R114): A full queue frees an entry and decoding resumes. -/
  | decodeResume (e : Nat)
  /-- NOP (R168): A no-operation task word. -/
  | nop (e : Nat)
  /-- LOADW (R139): Load weights into tiles: recode into planes, range-check, then write rows. -/
  | loadw (e : Nat)
  /-- MVM (R142): Real tile product over digit passes. -/
  | mvm (e : Nat)
  /-- MVMC (R146): Complex product on a tile pair by the three-product rotation. -/
  | mvmc (e : Nat)
  /-- DMM (R147): Matrix product on the digital MAC array. `ue`: the SRAM offset of a double-bit error its read
  finds. -/
  | dmm (e : Nat) (ue : Option Nat)
  /-- VEC (R149): Vector-unit operation selected by VOP. `ue` as for DMM. -/
  | vec (e : Nat) (ue : Option Nat)
  /-- ACC (R152): Open, deliver, free or deliver-and-free an accumulation area. -/
  | acc (e : Nat)
  /-- ACC_DELIVERY (R107): An area's delivery starts once all contributions are in: statuses and converted vectors
  are written, LATE is judged and SEQ is assigned. -/
  | accDelivery (e : Nat)
  /-- ROUTE (R154): Mixture-of-experts dispatch task word, a decode barrier. -/
  | route (e : Nat)
  /-- ROUTE_EVALUATION (R155): After earlier VECs, experts are selected and sections run with narrowed masks. -/
  | routeEvaluation (e : Nat)
  /-- EXIT (R156): Early-exit test task word, a decode barrier. -/
  | exit (e : Nat)
  /-- EXIT_EVALUATION (R157): Confident items are cleared, XMAP is written and the list skips to TARGET if none
  remain. -/
  | exitEvaluation (e : Nat)
  /-- ARM (R159): Full arm or re-arm of an engine stream context. -/
  | arm (e : Nat)
  /-- WAITM (R161): Hold decoding until a Milestone release. -/
  | waitm (e : Nat)
  /-- WAITM_TIMEOUT (R160): A WAITM exceeds its TIMEOUT: task-word error TIMEOUT. -/
  | waitmTimeout (e : Nat)
  /-- SIGNAL (R162): Queue a write, add or event after earlier work. -/
  | signal (e : Nat)
  /-- SIGNAL_EFFECT (R163): A SIGNAL takes effect after earlier work is visible, writing or adding and raising its
  event. -/
  | signalEffect (e : Nat)
  /-- FENCE (R165): Hold decoding for earlier work in scope and optionally a memory value. -/
  | fence (e : Nat)
  /-- FENCE_POLL (R165): Every 64 cycles the FENCE word is read and compared. -/
  | fencePoll (e : Nat)
  /-- FENCE_TIMEOUT (R165): A FENCE poll exceeds its TIMEOUT. -/
  | fenceTimeout (e : Nat)
  /-- LOCKSEQ (R167): Open or close a locked sequence on a Tollgate. -/
  | lockseq (e : Nat)
  /-- LOCKSEQ_TIMEOUT (R166): A LOCKSEQ OPEN waits beyond its TIMEOUT. -/
  | lockseqTimeout (e : Nat)
  /-- LIST_START (R135): A placed list starts at the later of its start firing and the previous list's end, and
  the class is re-evaluated. -/
  | listStart (e : Nat)
  /-- LIST_END (R136): A list ends: LIST_DONE events, class re-evaluation and residency scoring at roadworks
  boundaries. -/
  | listEnd (e : Nat)
  /-- HOT_MARGIN_REACHED (R258): Device time reaches deadline minus HOT and the engine's requesters become class
  3. -/
  | hotMarginReached (e : Nat)
  /-- MILESTONE_FIRING (R242): A valid entry fires and dispatches its actions in order. Entry `n`, dispatched
  `late` Tc after its firing instant. -/
  | milestoneFiring (n late : Nat)
  /-- PHASE_MEASUREMENT (R233): A source phase measurement steps or slews device time and may enter LOCKED. What
  the measurement resolves below the timestamps' Tc, in 1/16 Tc. -/
  | phaseMeasurement (sub : Int)
  /-- PTP_MESSAGE (R227): A PTP event or general message is received and timestamped for the slave clock. Message
  type and domain; its first bit crossed the port `lag` Tc ago; sender's port identity, sequence number, two-step
  flag, the time it carries in Tc; announced data or services granted. -/
  | ptpMessage (p kind domain lag src seq : Nat) (twoStep : Bool) (time : Nat) (data : List Byte)
  /-- ESMC_RECEIVE (R228): An ESMC frame updates the SyncE quality level. -/
  | esmcReceive (p ql : Nat)
  /-- PPS_IN_EDGE (R229): A PPS_IN rising edge is timestamped and judged as a second or a phase error. The edge
  came `lag` Tc ago. -/
  | ppsInEdge (lag : Nat)
  /-- PPS_CHECK (R408): Each second, CLK10M_IN and PPS spacing are checked for PPS_OK. Cycles of CLK10M_IN and of
  the 25 MHz system clock, counted over the same time. -/
  | ppsCheck (n10 n25 : Nat)
  /-- TOLLGATE_GRANT (R259): Each hub cycle, a Tollgate picks grants by lock, Nth grant, lift and class. Requests
  presented in the cycle, and the units the port completes. -/
  | tollgateGrant (n : Nat) (reqs : List Nat) (done : Nat)
  /-- QUOTA_WINDOW_END (R263): A quota window ends and masked requesters are unmasked. -/
  | quotaWindowEnd (n : Nat)
  /-- LOCK_WATCHDOG_EXPIRY (R268): The lock watchdog count ends: lock aborted, owner's list stops with LOCK_ABORT.
  -/
  | lockWatchdogExpiry (n : Nat)
  /-- SCRUB_READ (R197): The patrol scrubber reads the next DRAM block and writes back corrections. Sectors with a
  corrected error, and an uncorrectable one. -/
  | scrubRead (sectors : Nat) (ue : Bool)
  /-- DRAM_READ_COMPLETE (R195): A DRAM block read completes with ECC correction or poisoning. -/
  | dramReadComplete (a who sectors : Nat) (ue : Bool)
  /-- STREAM_REQUEST_ISSUE (R213): A READ context issues read-ahead block requests within its space and pool
  allowance. -/
  | streamRequestIssue (n : Nat)
  /-- STREAM_DATA_ARRIVAL (R214): Read data arrives and elements are placed in pattern order, PROG written and
  fork members fed. `cache`: an uncorrectable hub-cache line the read finds. -/
  | streamDataArrival (n : Nat) (cache : Option Nat)
  /-- STREAM_WRITE_COMPLETE (R214): A WRITE context's elements become visible and PROG advances. -/
  | streamWriteComplete (n : Nat)
  /-- STREAM_WAIT_RESUME (R207): A waiting context finds space, data, pool lines or gate frontier and resumes. -/
  | streamWaitResume (n : Nat)
  /-- STREAM_PASS_END (R211): A context ends its pass: PASS_END if persistent, IDLE otherwise. -/
  | streamPassEnd (n : Nat)
  /-- REARM_EFFECT (R211): A held re-arm takes effect at pass end: PROG zeroed, new BASE. -/
  | rearmEffect (n : Nat)
  /-- SPILL_READBACK (R218): A spilled context reads back its data and returns to its former state. -/
  | spillReadback (n : Nat)
  /-- FH_IN_PASS_ADVANCE (R209): At each slot boundary an FH_IN context moves to the next pass buffer and fork
  members may join or rejoin. -/
  | fhInPassAdvance (f : Nat)
  /-- FORK_MEMBER_DROP (R220): A member's lag exceeds SLACK or its buffer is about to be overwritten: dropped, gap
  record written. Fork source `n`. -/
  | forkMemberDrop (n : Nat)
  /-- FRAME_RECEIVED (R388): A fronthaul frame is checked, classified by the flow table and written as records or
  dropped. A frame without its FCS, whose first byte arrived `lag` Tc ago. -/
  | frameReceived (p lag : Nat) (fcsOk : Bool) (frame : List Byte)
  /-- FH_OUT_PASS_READ (R394): At the boundary of slot k − 2 an FH_OUT context starts reading pass buffer k. -/
  | fhOutPassRead (f : Nat)
  /-- FH_OUT_FRAME_SEND (R395): A frame leaves at its SEND time, or is judged late and dropped or sent. -/
  | fhOutFrameSend (p : Nat)
  /-- LINK_UP (R385): A port's PCS link rises and the port enters UP_GATED or UP. A fronthaul port; a peer link
  rises with PEER_TRAINING_DONE. -/
  | linkUp (p : Nat)
  /-- LINK_DOWN (R463): A port's link falls; it retrains, logs LINK_DOWN and drops affected members. A peer port,
  or a fronthaul port. -/
  | linkDown (peer : Bool) (p reason : Nat)
  /-- MODULE_INSERTION (R406): A module is inserted: reset, CMIS state machine and Application selection. The
  module is put in or, in INIT, answers with its identifier byte and the rates in Gb/s it advertises, or does not.
  -/
  | moduleInsertion (m : Nat) (found : Option (Nat × List Nat))
  /-- MODULE_REMOVAL (R406): A module is removed and an event is raised. -/
  | moduleRemoval (m : Nat)
  /-- MODULE_INTERRUPT (R406): INT_N falls and the module flags are read within 1 ms. Reading the flags finds
  nothing (0), an alarm (1), a timeout (2). -/
  | moduleInterrupt (m found byte page : Nat)
  /-- MODULE_POLL (R406): Periodic reading of module flags and monitors. -/
  | modulePoll (m found byte page : Nat)
  /-- PEER_TRAINING_DONE (R397): A peer link trains, exchanges DEVNUM and DEV_UID, and checks for conflict. The
  partner's port, DEVNUM if valid, and DEV_UID. -/
  | peerTrainingDone (p pport : Nat) (pdev : Option Nat) (puid : Nat)
  /-- PEER_FRAME_REPLAY (R396): A frame with a bad check is replayed, and 8 replays retrain the link. The `k`-th
  replay of a frame. -/
  | peerFrameReplay (p k : Nat)
  /-- PEER_WRITE (R400): An inbound WRITE transfer is written and acknowledged. -/
  | peerWrite (p : Nat) (h : PHdr) (data : List Byte)
  /-- PEER_READ (R400): An inbound READ is served with READ_DATA. -/
  | peerRead (p : Nat) (h : PHdr) (ue : Option Nat)
  /-- PEER_READ_DATA (R399): READ_DATA completes the requester's read. -/
  | peerReadData (p : Nat) (h : PHdr) (data : List Byte)
  /-- PEER_ADD (R399): An inbound 64-bit atomic add is performed and acknowledged. -/
  | peerAdd (p : Nat) (h : PHdr) (data : List Byte)
  /-- PEER_ACK (R400): An ACK completes a WRITE or ADD. -/
  | peerAck (p : Nat) (h : PHdr)
  /-- PEER_FORK (R402): Fork elements are written into the named members' rings. Members named, each with its
  source's note of a drop or rejoin (cause, first and last timestamp, count), at the start of a pass of their
  source or within it. -/
  | peerFork (p : Nat) (h : PHdr) (ks : List (Nat × Option (Nat × Nat × Nat × Nat))) (start : Bool) (data : List Byte)
  /-- PEER_CREDIT (R402): A CREDIT frame updates a fork source's view of member space. Source, member, free bytes
  and whether the ring is empty. -/
  | peerCredit (p : Nat) (h : PHdr) (cs : List (Nat × Nat × Nat × Bool))
  /-- PEER_MBX (R419): A Roadbook message for MBX6, its response or an event travels in an MBX frame. -/
  | peerMbx (p : Nat) (h : PHdr) (msg : List Byte)
  /-- PEER_TIME_FRAME (R404): A time-comparison frame is timestamped. -/
  | peerTimeFrame (p : Nat) (h : PHdr) (answer : Bool)
  /-- PEER_NOT_READY (R401): A refused request is scheduled for retry. -/
  | peerNotReady (p : Nat) (h : PHdr)
  /-- PEER_RETRY (R401): After RETRY µs a refused transfer is sent again. -/
  | peerRetry (tag : Nat)
  /-- PEER_TRANSFER_TIMEOUT (R396): A transfer undeliverable 1 ms after link loss or refusal fails. -/
  | peerTransferTimeout (tag : Nat)
  /-- PEER_TIME_COMPARISON (R404): Sixteen times a second a time comparison runs and the offset limit is checked.
  -/
  | peerTimeComparison (p t1 t2 t3 t4 : Nat) (plocked : Bool)
  /-- FORK_FLUSH (R402): A fork batch is flushed FLUSH after its first element. The batch of source `n` for peer
  device `dev`. -/
  | forkFlush (n dev : Nat)
  /-- HOST_BAR2_READ (R27): A host read through BAR2 of DRAM, engine SRAM or a reserved address. `n` bytes; `ue`
  an SRAM double-bit error found, `cache` an uncorrectable hub-cache line. -/
  | hostBar2Read (fn off n : Nat) (ue cache : Option Nat)
  /-- HOST_BAR2_WRITE (R27): A host write through BAR2. -/
  | hostBar2Write (fn off : Nat) (data : List Byte) (cache : Option Nat)
  /-- HOST_ATOMIC (R379): A PCIe FetchAdd or CAS on DRAM completes. FetchAdd, or CAS of `cmp`. -/
  | hostAtomic (fn off : Nat) (cas : Bool) (val cmp : Nat)
  /-- VF_FLR (R382): A VF function-level reset empties its mailbox and ends its BAR2 accesses. -/
  | vfFlr (v : Nat)
  /-- SMBUS_WINDOW_WRITE (R418): Block write code 0x10 writes MBX7's window. -/
  | smbusWindowWrite (o : Nat) (data : List Byte) (pecOk : Bool)
  /-- SMBUS_OFFSET_SET (R418): Block write code 0x11 sets the read offset. -/
  | smbusOffsetSet (o : Nat) (pecOk : Bool)
  /-- BAD_WIDTH_ACCESS (R5): A BAR0 access not an aligned 32-bit word is ignored and logged. -/
  | badWidthAccess (fn off : Nat) (isRead : Bool)
  /-- REGISTER_WRITE (R433): A write to a register without its own row, reached or dropped by access rules.
  Function 0 is the PF, 1–4 VF0–VF3; `off` is the function's own BAR0 offset. -/
  | registerWrite (fn off v : Nat)
  /-- LO_READ (R9): Reading a _LO half captures the upper half for that requester. -/
  | loRead (fn off : Nat)
  /-- HI_READ (R9): Reading a _HI half returns the captured or live upper half. -/
  | hiRead (fn off : Nat)
  /-- LO_WRITE (R9): Writing a _LO half holds it for the requester. -/
  | loWrite (fn off v : Nat)
  /-- HI_WRITE (R9): Writing a _HI half applies the 64-bit value. -/
  | hiWrite (fn off v : Nat)
  /-- RC_READ (R7): Reading a read-to-clear register returns and clears it. -/
  | rcRead (fn off : Nat)
  /-- W1C_WRITE (R7): Writing 1s clears write-1-to-clear bits. -/
  | w1cWrite (fn off v : Nat)
  /-- DOORBELL_RING (R415): Writing RING submits the command buffer, or is ignored while BUSY. -/
  | doorbellRing (fn m v : Nat)
  /-- EVQ_CONS_WRITE (R431): Writing MBX_EVQ_CONS consumes event entries. -/
  | evqConsWrite (fn m v : Nat)
  /-- MBX_VER_WRITE (R420): Writing MBX_CFG.VER selects the header version. -/
  | mbxVerWrite (fn m v : Nat)
  /-- TILE_CFG_RATE_WRITE (R64): A write of TILE_CFG sets a pending rate and other fields for the next product. -/
  | tileCfgRateWrite (lt v : Nat)
  /-- LOCK_MODE_WRITE (R308): A LOCK_CFG.MODE write is staged for the next calibration or dropped if invalid. -/
  | lockModeWrite (lt v : Nat)
  /-- TG_FREEZE_WRITE (R269): Writing TG_CTRL.FREEZE stops or resumes new grants. -/
  | tgFreezeWrite (n v : Nat)
  /-- AUX_RUN_WRITE (R322): Setting or clearing RUN starts or stops an AUX channel. -/
  | auxRunWrite (rg ch v : Nat)
  /-- AUX_QDATA_WRITE (R321): Writing QDATA appends a code or sets OVF. -/
  | auxQdataWrite (rg ch v : Nat)
  /-- MADC_RUN_WRITE (R327): Setting or clearing RUN starts or stops a monitor converter. -/
  | madcRunWrite (rg c v : Nat)
  /-- AUX_SAMPLE_INSTANT (R319): At a sample instant, running channels update, take queue codes, underflow or
  raise low-water. -/
  | auxSampleInstant (rg ch : Nat)
  /-- MADC_ENTRY_COMPLETE (R326): A monitor ADC entry completes: result and record written, next entry or run. Raw
  codes of the entry's conversions, and the physical tile they were taken on where the input belongs to one. -/
  | madcEntryComplete (rg c : Nat) (raws : List Nat) (tile : Nat)
  /-- MADC_ROUND_START (R327): A regular round starts at its period, with overrun counting. -/
  | madcRoundStart (rg c : Nat)
  /-- MADC_TRIGGER (R329): A trigger aborts the regular entry and runs the injected sequence, or is pending,
  merged or discarded. Trigger source `b` of R328. -/
  | madcTrigger (rg c b : Nat)
  /-- LINE_MONITOR_ROUND (R340): The CP judges line powers each round and sets or clears fade levels. 0.01 dB
  relative to commissioning. -/
  | lineMonitorRound (sk : Nat) (powers : List Int)
  /-- LOSS_DETECTOR (R340): The comb's loss detector fires, forcing a detour. -/
  | lossDetector (sk : Nat)
  /-- DETOUR_VERIFY (R343): Verification after the equaliser passes or fails the detour. The verification reading
  and the equaliser settings reached. -/
  | detourVerify (sk : Nat) (powers : List Int) (eq : List Nat)
  /-- DETOUR_GAP_CLOSE (R343): WINLEN after opening, the gap closes and tiles resume. -/
  | detourGapClose (sk : Nat)
  /-- DETOUR_WAIT (R342): An armed detour has waited 1 s and DETOUR_WAIT is raised. -/
  | detourWait (sk : Nat)
  /-- COMB_STANDBY (R339): A powered comb reaches STANDBY as its TEC settles. -/
  | combStandby (sk c : Nat) (ok : Bool)
  /-- COMB_ALIGNED (R339): The spare comb reaches ALIGNED; a waiting forced switch proceeds. The grid reached, L00
  against the comb in use and spacing against 75 GHz in MHz, or none where the alignment fails; what the reference
  ring reads of its lines. -/
  | combAligned (sk c : Nat) (grid : Option (Int × Int)) (lines : List Int)
  /-- ALIGNMENT_CHECK (R339): Every 10 ms the CP checks and corrects spare alignment. The grid found, as for
  COMB_ALIGNED. -/
  | alignmentCheck (sk : Nat) (grid : (Int × Int))
  /-- ROADWORKS_AUTO_FIRING (R350): An internal AUTO roadworks firing occurs for a region. -/
  | roadworksAutoFiring (rg : Nat)
  /-- SPARE_PREPARE (R353): LEAD before an expected firing the spare soft-starts to NEXT's operating point. -/
  | sparePrepare (rg : Nat)
  /-- ROADWORKS_DRAIN_END (R119): In-flight work on the old tile drains and the spare loads from the shadow. -/
  | roadworksDrainEnd (rg : Nat)
  /-- SWAP_LOAD_DONE (R119): The spare's load ends; map and spare entries update atomically. -/
  | swapLoadDone (rg : Nat)
  /-- SWAP_COMPLETE (R119): Feed-forward is taken and the tile returns to IDLE or ACTIVE. -/
  | swapComplete (rg : Nat)
  /-- CALIBRATION_STEP (R355): A calibration step of the freed tile completes and the next begins. What the step
  measured. -/
  | calibrationStep (rg : Nat) (ok : Bool) (vals : List (Nat × Int)) (curves : List (Nat × List (Int × Int)))
  /-- CALIBRATION_COMPLETE (R356): Calibration ends: staged images installed, the tile becomes the spare. -/
  | calibrationComplete (rg : Nat)
  /-- SAFE_POINT_REACHED (R358): A disabled block reaches its safe point; a pending enable starts it up. Kind 0 an
  engine, 1 a physical tile, 2 a port by the low byte of its R31 index. -/
  | safePointReached (kind idx : Nat)
  /-- MOD_READ (R407): Reads module memory. The bytes the module returns; none where it does not answer in time.
  -/
  | modRead (data : Option (List Byte))
  /-- MOD_WRITE (R407): Writes module memory. The module answered in time. -/
  | modWrite (ok : Bool)
  /-- REGION_ACQUISITION_START (R300): After every reset, the CP starts the full acquisition of each region's
  tiles at the region's staggered instant (180 + 20·rg ms in the first second), once the stack's comb is in use.
  -/
  | regionAcquisitionStart (rg : Nat)
  /-- VEC_COMPLETE (R137): A VEC task word finishes on the vector pipes; this releases FENCE scope 2 and lets
  waiting EXIT or ROUTE evaluations and SIGNALs proceed. The first or second VEC of the vector queue. -/
  | vecComplete (e pipe : Nat)
  /-- PEER_DEVNUM_EXCHANGE (R397): On a peer port already in UP, the partner reports its newly valid DEVNUM, and
  the device checks for a conflict and may enter DEVNUM_CONFLICT. -/
  | peerDevnumExchange (p dev : Nat)
  /-- HOST_LINK_TRAINED (R379): The PCIe host link finishes training; if it settles below 64 GT/s ×16 it is
  operated, logged and reported by a LINK_DEGRADED event. GT/s and lanes. -/
  | hostLinkTrained (rate width : Nat)
  /-- COPY_COMPLETE (R424): The data movement of an async COPY ends and its final status is reported, by
  ASYNC_DONE or by releasing the held mailbox. The bytes a copy from the host brought, and whether its transfers
  succeeded. -/
  | copyComplete (data : List Byte) (ok : Bool)
  /-- VF_ENABLE (R381): The host enables or disables the VFs, which fixes the VF BAR2 bases and makes FN_ASSIGN
  BAR2 changes refuse with STATE_CONFLICT while they are enabled. -/
  | vfEnable (on : Bool)
  /-- PWRGD_FALLING (R437): PWRGD falls: the lasers go off, the heaters go to 0 and everything outside the always-
  on domain is held in reset. -/
  | pwrgdFalling
  /-- PERST_N_ASSERT (R439): PERST_N has been low for 100 µs, which begins the PERST_N reset. -/
  | perstAssert
  /-- RESET_BEGIN (R441): 1 ms after DONE of a RESET command, the warm reset begins. -/
  | resetBegin
  /-- CP_READY (R417): The verified firmware makes the CP ready: every mailbox sets READY, a READY event is raised
  and the board section is applied. -/
  | cpReady
  /-- DRAM_READY (R443): DRAM training and zeroing complete, so BAR2 and DRAM accesses become usable. -/
  | dramReady
  /-- DEVICE_READY (R447): Every region is ready or degraded: the Tollgates go to SERVICE, roadworks starts, the
  fuses advance and the standalone program starts if strapped. -/
  | deviceReady
  /-- TRIP_POWER_OFF (R374): 10 µs after a trip, the internal switches open the supplies and hold the package in
  reset. -/
  | tripPowerOff
  /-- DITHER_CHIP (R276): A dither chip boundary applies the dither signs, the throttle pause and the slew-budget
  ceiling and floor. -/
  | ditherChip
  /-- COMMIT_EFFECT (R244): At boundary B the changed shadow entries are copied atomically, apart from deferred
  ones. -/
  | commitEffect
  /-- DEFERRED_COPY (R245): At the next slot boundary of its timeline a deferred entry is copied, and the commit
  may end. -/
  | deferredCopy
  /-- SOURCE_LOSS (R232): The source is lost: LOCKED becomes HOLDOVER. -/
  | sourceLoss
  /-- SOURCE_RETURN (R232): The source returns and HOLDOVER becomes ACQUIRING. -/
  | sourceReturn
  /-- HOLD_MAX_EXPIRY (R232): HOLD_MAX seconds of holdover elapse and the state becomes ACQUIRING. -/
  | holdMaxExpiry
  /-- ESMC_SEND (R386): Once per second every port sends ESMC with DNU. -/
  | esmcSend
  /-- PPS_OUT_EDGE (R409): PPS_OUT rises before each whole second while time locked. -/
  | ppsOutEdge
  /-- SPILL (R218): The circular-wait watchdog expires and spills one context to the spill area. -/
  | spill
  /-- PF_FLR (R439): A PF function-level reset empties MBX0 and MBX5 and closes grant windows. -/
  | pfFlr
  /-- SMBUS_BLOCK_READ (R418): Block read returns 32 bytes of MBX7's window. -/
  | smbusBlockRead
  /-- COMMAND_TAKE (R416): The CP takes the next rung mailbox's command in order. -/
  | commandTake
  /-- GET_INFO (R426): Returns life-cycle, DEVNUM, firmware and readiness. -/
  | getInfo
  /-- SET_DEVNUM (R29): Sets DEVNUM once and repeats the peer exchange. -/
  | setDevnum
  /-- FN_ASSIGN (R412): Assigns engines, contexts, Milestone range and BAR2 to a function. -/
  | fnAssign
  /-- ENABLE (R358): Disables or enables an engine, logical tile or port. -/
  | enable
  /-- RESET (R441): Orders a warm reset, optionally keeping the log. -/
  | reset
  /-- LC_ADVANCE (R455): Changes life-cycle state after authorisation, zeroing DRAM and burning fuses. -/
  | lcAdvance
  /-- KEY_INSTALL (R454): Installs a key digest in a key slot. -/
  | keyInstall
  /-- FW_UPDATE (R426): Writes and verifies a firmware image into a slot. -/
  | fwUpdate
  /-- FW_SELECT (R426): Selects the boot slot for the next boot. -/
  | fwSelect
  /-- GRANT_DIRECT (R434): Opens a direct register write window. -/
  | grantDirect
  /-- REVOKE_DIRECT (R434): Closes a direct register window. -/
  | revokeDirect
  /-- TIME_SET (R230): Loads device time under HOST as a set or step. -/
  | timeSet
  /-- PPS_LABEL (R229): Sets the value of the next PPS edge. -/
  | ppsLabel
  /-- FREQ_TRIM (R226): Trims the HOST-source frequency. -/
  | freqTrim
  /-- TIME_SRC (R226): Selects the time source and its parameters. -/
  | timeSrc
  /-- PTP_ADDR (R426): Sets PTP own and master IP addresses. -/
  | ptpAddr
  /-- TIME_STEP_BACK (R487): Steps device time backward when no placement or valid active entry exists. -/
  | timeStepBack
  /-- CT_CFG (R237): Configures, enables or disables a carrier timeline. -/
  | ctCfg
  /-- TIME_STATUS (R426): Returns timeline status, offset and time. -/
  | timeStatus
  /-- MS_WRITE (R240): Writes shadow Milestone entries in the mailbox's domain. -/
  | msWrite
  /-- MS_READ (R426): Reads shadow or active Milestone entries. -/
  | msRead
  /-- MS_COMMIT (R244): Commits the shadow bank at the next slot boundary of a timeline. -/
  | msCommit
  /-- STRM_ARM (R203): Arms any stream context from a descriptor. -/
  | strmArm
  /-- STRM_REARM (R159): Re-arms a persistent context with a new base. -/
  | strmRearm
  /-- STRM_DISARM (R426): Stops a context after the element in flight. -/
  | strmDisarm
  /-- COPY (R380): Copies between host and device memory. -/
  | copy
  /-- SCRUB_CFG (R197): Configures the patrol scrubber. -/
  | scrubCfg
  /-- POOL_CFG (R200): Sets pool size, watchdog and spill area. -/
  | poolCfg
  /-- LIST_PLACE (R134): Places a list on engines with start, deadline and biases. -/
  | listPlace
  /-- LIST_CANCEL (R426): Removes placements and optionally stops running lists. -/
  | listCancel
  /-- ENG_QUERY (R426): Returns engine status, SEQ and PC. -/
  | engQuery
  /-- ENG_CFG (R426): Sets an engine's ENG_CFG and skip threshold. -/
  | engCfg
  /-- RSLOT_INSTALL (R186): Installs a resident slot of tiles. -/
  | rslotInstall
  /-- RES_WRITE (R187): Writes residency table entries. -/
  | resWrite
  /-- RES_READ (R187): Reads residency table entries. -/
  | resRead
  /-- CURVE_WRITE (R77): Installs or stages a curve image. -/
  | curveWrite
  /-- CURVE_READ (R426): Returns an installed curve. -/
  | curveRead
  /-- GAINSET_WRITE (R290): Installs or stages a gain-set image. -/
  | gainsetWrite
  /-- LOCK_CFG (R275): Writes a logical tile's or spare's lock configuration. -/
  | lockCfg
  /-- ACQUIRE (R464): Runs a full acquisition of an unbound tile. -/
  | acquire
  /-- TILE_CFG (R64): Writes a logical tile's TILE_CFG. -/
  | tileCfg
  /-- RDWK_CFG (R350): Sets a region's roadworks mode, lead, rotation and window. -/
  | rdwkCfg
  /-- LTAB_WRITE (R427): Installs or stages a legacy table. -/
  | ltabWrite
  /-- LTAB_READ (R427): Writes a tile's legacy table to memory. -/
  | ltabRead
  /-- LSA_THR (R340): Sets a stack's fade thresholds. -/
  | lsaThr
  /-- COMMISSION (R337): Writes commissioning line powers. -/
  | commission
  /-- COMB_READMIT (R345): Re-admits a degraded or failed comb as spare. -/
  | combReadmit
  /-- LSA_QUERY (R426): Returns comb status and line values. -/
  | lsaQuery
  /-- AUX_CFG (R320): Configures a host AUX channel. -/
  | auxCfg
  /-- AUX_CODE (R426): Writes a static code or queues codes. -/
  | auxCode
  /-- AUX_PWRUP (R318): Writes a channel's power-up record. -/
  | auxPwrup
  /-- MADC_HOST (R332): Programs host entries of converter B. -/
  | madcHost
  /-- MADC_TRIGGER_CMD (R328): Raises a HOST trigger in named regions. -/
  | madcTriggerCmd
  /-- MADC_RING (R333): Configures a region's record ring. -/
  | madcRing
  /-- THM_READ (R426): Returns all temperatures, steps and trip state. -/
  | thmRead
  /-- THM_LIMITS (R377): Sets a class's warning and throttle thresholds. -/
  | thmLimits
  /-- THM_SET (R426): Writes THM_SLEWrg or THM_CFG. -/
  | thmSet
  /-- FH_QUAD (R383): Sets a fronthaul quad's mode. -/
  | fhQuad
  /-- FLOW_WRITE (R388): Writes flow table entries. -/
  | flowWrite
  /-- EXC_RING (R392): Configures the exception ring. -/
  | excRing
  /-- TIMING_PINS (R409): Sets PPS_OUT enable and pin delays. -/
  | timingPins
  /-- TG_FREEZE (R269): Sets or clears a Tollgate freeze. -/
  | tgFreeze
  /-- TG_CFG (R264): Writes Tollgate configuration and lock watchdog. -/
  | tgCfg
  /-- TG_CLASS (R258): Pins or unpins a requester's class. -/
  | tgClass
  /-- TG_CLSCFG (R265): Sets calibration lift margin and HOT. -/
  | tgClscfg
  /-- LOG_READ (R465): Returns log entries by sequence. -/
  | logRead
  /-- EVENT_SUB (R430): Sets the mailbox's event class mask. -/
  | eventSub
  /-- INJECT (R305): Starts test injection and capture on an unbound tile's ring. -/
  | inject
  /-- CAPTURE_READ (R306): Returns capture samples. -/
  | captureRead
  /-- HINJ_BIND (R323): Binds the heater injection queue to a ring. -/
  | hinjBind
  /-- TG_TEST (R264): Puts named Tollgates in QUOTA for a test. -/
  | tgTest
  /-- REG_READ (R426): Reads registers with their read effects. -/
  | regRead
  /-- INFO (R428): v1 GET_INFO, first 8 bytes. -/
  | info
  /-- V1_RESET (R428): v1 RESET. -/
  | v1Reset
  /-- RDREG (R428): v1 register read. -/
  | rdreg
  /-- WRREG (R428): v1 register write where a host write would reach. -/
  | wrreg
  /-- RUN (R428): v1 immediate list placement. -/
  | run
  /-- TEMP (R428): v1 THM_READ. -/
  | temp
  /-- LTWR (R428): v1 legacy table write. -/
  | ltwr
  /-- LTRD (R428): v1 legacy table read. -/
  | ltrd
  /-- RECAL (R428): v1 change of RECAL. -/
  | recal
  /-- LOGRD (R428): v1 log read. -/
  | logrd
  /-- LMODE (R428): v1 change of lock mode. -/
  | lmode
  /-- FLASH_WRITE_COMPLETE (R426): The async FW_UPDATE write and signature check of a flash slot end, and
  ASYNC_DONE carries OK or BAD_FIELD. -/
  | flashWriteComplete
  /-- LC_ZEROING_COMPLETE (R455): The 60 ms DRAM zeroing of a life-cycle change ends; the fuses are burnt, LCCOUNT
  increments and ASYNC_DONE is placed. -/
  | lcZeroingComplete
  /-- VDD_IO_LOSS (R472): VDD_IO is lost, which removes the always-on domain with its log, trip record and trip
  latch, unlogged; its return acts as a cold power-up. -/
  | vddIoLoss
  deriving DecidableEq, Repr

end Sys2Proof
end

