-- ==== Sys2Proof/Machine/Bits.lean ====
section
/-!
DEFINITION. Bit fields, two's complement, byte order (R11), payload layout (R422), the sparse table's two
operations, and the sparse byte memory with its canonical form.
-/
namespace Sys2Proof.Machine

/-- Bit `i` of `w` (R6). -/
def bit (w i : Nat) : Bool := w.testBit i

/-- The `len` bits of `w` from bit `lo` upwards: NAME[lo+len-1 : lo] (R6). -/
def fld (w lo len : Nat) : Nat := (w >>> lo) % 2 ^ len

/-- 1 for true, 0 for false. -/
def b2n (b : Bool) : Nat := if b then 1 else 0

/-- `w` with the `len` bits from `lo` replaced by those of `v`. -/
def setFld (w lo len v : Nat) : Nat :=
  w - fld w lo len * 2 ^ lo + v % 2 ^ len * 2 ^ lo

/-- The two's complement value of the low `len` bits of `v` (R16). -/
def sx (len v : Nat) : Int :=
  let u := v % 2 ^ len
  if u < 2 ^ (len - 1) then (u : Int) else (u : Int) - (2 ^ len : Nat)

/-- The `len`-bit two's complement code of `i`. -/
def unsx (len : Nat) (i : Int) : Nat := (i % ((2 ^ len : Nat) : Int)).toNat

/-- `i` brought into `lo`…`hi`. -/
def clampInt (lo hi i : Int) : Int := if i < lo then lo else if hi < i then hi else i

/-- The `n` bytes of `v`, least significant first (R11). -/
def leBytes : Nat → Nat → List Byte
  | 0, _ => []
  | n + 1, v => BitVec.ofNat 8 v :: leBytes n (v / 256)

/-- The number a little-endian byte list holds (R11). -/
def ofLe : List Byte → Nat
  | [] => 0
  | b :: bs => b.toNat + 256 * ofLe bs

/-- `n` zero bytes. -/
def zeros (n : Nat) : List Byte := List.replicate n 0#8

/-- `bs` cut or filled with zero bytes to exactly `n`. -/
def padTo (n : Nat) (bs : List Byte) : List Byte := (bs ++ zeros (n - bs.length)).take n

/-- The `n` bytes of `bs` from offset `off`; bytes beyond its end read 0. -/
def slice (bs : List Byte) (off n : Nat) : List Byte := padTo n (bs.drop off)

/-- The little-endian `n`-byte field at offset `off`. -/
def getLe (bs : List Byte) (off n : Nat) : Nat := ofLe (slice bs off n)

/-- The next multiple of `n` at or after `off`. -/
def alignUp (off n : Nat) : Nat := if n = 0 then off else (off + n - 1) / n * n

/-- Fields (size in bytes, value) laid out by R422: each at the next multiple of its size, gaps 0. -/
def packFrom : Nat → List (Nat × Nat) → List Byte
  | _, [] => []
  | off, (n, v) :: fs =>
    zeros (alignUp off n - off) ++ leBytes n v ++ packFrom (alignUp off n + n) fs

/-- `packFrom` from offset 0. -/
def pack (fs : List (Nat × Nat)) : List Byte := packFrom 0 fs

/-- The value at `k`, `d` where the table lists none. -/
def tget {α : Type} (t : Tbl α) (k : Nat) (d : α) : α :=
  match t with
  | [] => d
  | (k', v) :: t => if k' = k then v else tget t k d

/-- The value at `k`, if the table lists one. -/
def tfind {α : Type} (t : Tbl α) (k : Nat) : Option α :=
  match t with
  | [] => none
  | (k', v) :: t => if k' = k then some v else tfind t k

/-- The table with `v` at `k`, kept in rising order. -/
def tset {α : Type} (t : Tbl α) (k : Nat) (v : α) : Tbl α :=
  match t with
  | [] => [(k, v)]
  | (k', w) :: t =>
    if k < k' then (k, v) :: (k', w) :: t
    else if k' = k then (k, v) :: t
    else (k', w) :: tset t k v

/-- The table without an entry at `k`. -/
def tdrop {α : Type} (t : Tbl α) (k : Nat) : Tbl α := t.filter (fun p => p.1 != k)

/-- Bytes of `m` at address `a`; an unlisted address reads 0 (log entry 8). -/
def Memory.read (m : List Host.Cell) (a : Nat) : Byte :=
  match m with
  | [] => 0#8
  | (k, b) :: m => if k = a then b else if a < k then 0#8 else Memory.read m a

/-- `m` with byte `b` at `a`, in canonical form: writing 0 removes the entry. -/
def Memory.write (m : List Host.Cell) (a : Nat) (b : Byte) : List Host.Cell :=
  match m with
  | [] => if b = 0#8 then [] else [(a, b)]
  | (k, c) :: m =>
    if a < k then (if b = 0#8 then (k, c) :: m else (a, b) :: (k, c) :: m)
    else if k = a then (if b = 0#8 then m else (a, b) :: m)
    else (k, c) :: Memory.write m a b

/-- Consecutive bytes written from `a` upwards. -/
def Memory.writeBytes (m : List Host.Cell) (a : Nat) : List Byte → List Host.Cell
  | [] => m
  | b :: bs => Memory.writeBytes (Memory.write m a b) (a + 1) bs

/-- `m` with `len` bytes from `a` zeroed. -/
def Memory.zero (m : List Host.Cell) (a len : Nat) : List Host.Cell :=
  m.filter (fun c => c.1 < a || a + len ≤ c.1)

/-- The addresses of `m` all lie above `lo`, strictly rising, and no listed byte is 0. -/
def Memory.wfFrom (lo : Nat) : List Host.Cell → Bool
  | [] => true
  | (k, b) :: m => lo ≤ k && b != 0#8 && Memory.wfFrom (k + 1) m

/-- The canonical form: addresses strictly rising, no entry equal to what an unlisted address reads as. -/
def Memory.wf (m : List Host.Cell) : Bool := Memory.wfFrom 0 m

/-- The elements from 0 to `n - 1`. -/
def upTo (n : Nat) : List Nat := List.range n

end Sys2Proof.Machine
end

