-- ==== Sys2Proof/Machine/Operands.lean ====
section
/-!
DEFINITION. Operand forms: number formats (R16), digit slicing (R67, R68), column offsets and gain (R42, R50),
codes and half-differences (R49, R79), shifts (R70, R95), curves (R76), and exact floating-point arithmetic
rounded to a format (R89, R96, R112).
-/
namespace Sys2Proof.Machine

/-! ### Rounding -/

/-- `a / b` (b > 0) rounded to the nearest integer, halves away from zero. -/
def roundAway (a : Int) (b : Nat) : Int :=
  if 0 ≤ a then ((2 * a.toNat + b) / (2 * b) : Nat) else -(((2 * (-a).toNat + b) / (2 * b) : Nat) : Int)

/-- `v × 2^s` rounded, halves away from zero (R70). -/
def shiftRound (v : Int) (s : Int) : Int :=
  if 0 ≤ s then v * ((2 ^ s.toNat : Nat) : Int) else roundAway v (2 ^ (-s).toNat)

/-- `⌈v × 2^s⌉` (R95). -/
def shiftCeil (v : Nat) (s : Int) : Nat :=
  if 0 ≤ s then v * 2 ^ s.toNat else (v + 2 ^ (-s).toNat - 1) / 2 ^ (-s).toNat

/-- `a × 2^s ≤ t`. -/
def shiftLe (a : Nat) (s : Int) (t : Nat) : Bool :=
  if 0 ≤ s then decide (a * 2 ^ s.toNat ≤ t) else decide (a ≤ t * 2 ^ (-s).toNat)

/-! ### Digits -/

/-- R67: the digits of a weight, least significant first. -/
def recodeFrom : Nat → Int → List Int
  | 0, r => [r]
  | k + 1, r =>
    let d := clampInt (-15) 15 (roundAway r (16 ^ (k + 1)))
    recodeFrom k (r - d * ((16 ^ (k + 1) : Nat) : Int)) ++ [d]

/-- R67: weight digit `p` of `m` for `dw` digits. -/
def weightDigit (m : Int) (dw p : Nat) : Int := (recodeFrom (dw - 1) m).getD p 0

/-- R67: the representable range of weights. -/
def weightInRange (m : Int) (dw : Nat) : Bool :=
  -(((16 ^ dw - 1 : Nat)) : Int) ≤ m && m ≤ ((16 ^ dw - 1 : Nat) : Int)

/-- R68: the representable range of inputs. -/
def inputInRange (x : Int) (dx : Nat) : Bool :=
  -(((8 * 16 ^ (dx - 1) : Nat)) : Int) ≤ x && x ≤ ((8 * 16 ^ (dx - 1) : Nat) : Int) - 1

/-- R68: input digit `q` of `x` for `dx` digits: signed for the most significant, a nibble otherwise. -/
def inputDigit (x : Int) (dx q : Nat) : Int :=
  let n := x / ((16 ^ q : Nat) : Int)
  if q + 1 = dx then n else n % 16

/-- R68: the PAM16 level a digit is sent as. -/
def digitLevel (x : Int) (dx q : Nat) : Nat :=
  let d := inputDigit x dx q
  if q + 1 = dx then (d + 8).toNat % 16 else d.toNat % 16

/-! ### Columns -/

/-- Sum of the products of two rows. -/
def dot : List Int → List Nat → Int
  | w :: ws, a :: as => w * a + dot ws as
  | _, _ => 0

/-- Sum of the products of two signed rows. -/
def dotI : List Int → List Int → Int
  | w :: ws, a :: as => w * a + dotI ws as
  | _, _ => 0

/-- Sum of a list. -/
def sumI : List Int → Int
  | [] => 0
  | x :: xs => x + sumI xs

/-- R42: OFSi of a row of levels. -/
def ofsOf (row : List Int) : Int := 8 * sumI row

/-- The largest `r` below 1,024 with 10⁴ r² < x, found bit by bit from `b` down. -/
def rootBelow (x : Nat) : Nat → Nat → Nat
  | 0, r => r
  | b + 1, r =>
    let r' := r + 2 ^ b
    rootBelow x b (if r' * r' * 10000 < x then r' else r)

/-- R42: SIGi = ⌈4.61 √(Σ W²)⌉ of a row of levels. -/
def sigOf (row : List Int) : Nat :=
  let x := 212521 * (dotI row row).toNat
  if x = 0 then 0 else rootBelow x 10 0 + 1

/-- R48: converter step at gain step `g`, product units. -/
def lsb (g : Nat) : Nat := 64 * 2 ^ g

/-- R50: AUTO's gain step for demand K·(|OFS| + σ·SIG). -/
def autoGain (k : Nat) (ofs : Int) (sig sigma : Nat) : Nat :=
  let dmd := k * (ofs.natAbs + sigma * sig)
  if sigma = 0 then 3 else if dmd ≤ 1984 then 0 else if dmd ≤ 3968 then 1
  else if dmd ≤ 7936 then 2 else 3

/-- A column reading's code (R49): the code, and the rail where it saturated (`some true` high).
`charge` is in 1/256 of a product unit. -/
def codeOf (charge : Int) (g : Nat) : Int × Option Bool :=
  let l := 256 * lsb g
  let c := clampInt (-32) 31 (roundAway charge l)
  if (63 * l : Nat) < 2 * charge then (31, some true)
  else if 2 * charge < -((65 * l : Nat) : Int) then (-32, some false) else (c, none)

/-- R79: the half-difference as it enters a comparison or a sum; `diff` is in 1/256 product unit. -/
def halfDiff (diff : Int) (g : Nat) : Int :=
  let h := clampInt (-8) 7 (roundAway diff (64 * lsb g))
  if h = 7 then 8 else h

/-- R79: STEP(g) = LSB(g) ÷ 4. -/
def hstep (g : Nat) : Nat := lsb g / 4

/-! ### Curves (R74–R76) -/

/-- The ordinate at `x`, exactly, as numerator over denominator. -/
def interp (x : Int) : List (Int × Int) → Int × Nat
  | (x0, y0) :: (x1, y1) :: ps =>
    if x ≤ x1 || ps.isEmpty then
      (y0 * (x1 - x0) + (y1 - y0) * (x - x0), (x1 - x0).toNat)
    else interp x ((x1, y1) :: ps)
  | _ => (0, 1)

/-- R76: the output code of a curve at level `l`, within `lo`…`hi`. -/
def curveCode (pts : List (Int × Int)) (lo hi l : Int) : Int :=
  let (n, den) := interp (64 * l) pts
  clampInt lo hi (roundAway n (16 * den))

/-! ### Floating point -/

/-- An exact value: not a number, an infinity, or ± m·2^e. -/
inductive FV where
  | nan
  | inf (neg : Bool)
  | fin (neg : Bool) (m : Nat) (e : Int)
  deriving DecidableEq, Repr

/-- A binary format: exponent and mantissa bits, largest finite magnitude's pattern, and whether the
all-ones exponent holds infinities and NaNs (E4M3 has one NaN pattern per sign and no infinity, R16). -/
structure FFmt where
  ebits : Nat
  mbits : Nat
  maxPat : Nat
  ieee : Bool

def fE4M3 : FFmt := ⟨4, 3, 0x7E, false⟩
def fE5M2 : FFmt := ⟨5, 2, 0x7B, true⟩
def fBF16 : FFmt := ⟨8, 7, 0x7F7F, true⟩
def fFP16 : FFmt := ⟨5, 10, 0x7BFF, true⟩
def fFP32 : FFmt := ⟨8, 23, 0x7F7FFFFF, true⟩

def FFmt.bias (f : FFmt) : Nat := 2 ^ (f.ebits - 1) - 1
/-- Exponent of the last place of the smallest normal numbers. -/
def FFmt.qmin (f : FFmt) : Int := 1 - (f.bias : Int) - f.mbits
def FFmt.signBit (f : FFmt) : Nat := 2 ^ (f.ebits + f.mbits)
/-- The NaN pattern that a free number selects: the manual names no payload or sign (log entry 21). -/
def FFmt.nanPat (f : FFmt) (free : Nat) : Nat :=
  (if free % 2 = 1 then f.signBit else 0) +
    if f.ieee then (2 ^ f.ebits - 1) * 2 ^ f.mbits + (1 + free / 2 % (2 ^ f.mbits - 1)) else 0x7F
def FFmt.infPat (f : FFmt) : Nat := (2 ^ f.ebits - 1) * 2 ^ f.mbits

/-- The value of a pattern. -/
def FFmt.decode (f : FFmt) (w : Nat) : FV :=
  let neg := w.testBit (f.ebits + f.mbits)
  let ex := fld w f.mbits f.ebits
  let fr := fld w 0 f.mbits
  if f.ieee && ex = 2 ^ f.ebits - 1 then (if fr = 0 then .inf neg else .nan)
  else if !f.ieee && fld w 0 (f.ebits + f.mbits) = 0x7F then .nan
  else if ex = 0 then .fin neg fr f.qmin
  else .fin neg (2 ^ f.mbits + fr) (f.qmin + (ex - 1 : Nat))

/-- Magnitude pattern of m·2^e rounded to nearest even with an unbounded exponent. -/
def FFmt.roundMag (f : FFmt) (m : Nat) (e : Int) : Nat :=
  if m = 0 then 0
  else
    let top : Int := (Nat.log2 m : Int) + e - f.mbits
    let q := if top < f.qmin then f.qmin else top
    let n :=
      if q ≤ e then m * 2 ^ (e - q).toNat
      else
        let k := (q - e).toNat
        let n0 := m / 2 ^ k
        let r := m % 2 ^ k
        if 2 * r < 2 ^ k then n0 else if 2 ^ k < 2 * r then n0 + 1 else n0 + n0 % 2
    (q - f.qmin).toNat * 2 ^ f.mbits + n

/-- The pattern of a value rounded to nearest even; beyond the largest finite value, an infinity (a NaN
in E4M3). `free` selects the pattern of a NaN. -/
def FFmt.encode (f : FFmt) (v : FV) (free : Nat := 0) : Nat :=
  match v with
  | .nan => f.nanPat free
  | .inf neg => (if neg then f.signBit else 0) + (if f.ieee then f.infPat else 0x7F)
  | .fin neg m e =>
    let p := f.roundMag m e
    (if neg then f.signBit else 0) +
      (if f.maxPat < p then (if f.ieee then f.infPat else 0x7F) else p)

/-- A value rounded to a format. -/
def FFmt.round (f : FFmt) (v : FV) : FV := f.decode (f.encode v)

/-- R96: the delivered pattern, clamped to the largest finite magnitude, NaN to 0; and whether it was
clamped. -/
def FFmt.deliver (f : FFmt) (v : FV) : Nat × Bool :=
  match v with
  | .nan => (0, true)
  | .inf neg => ((if neg then f.signBit else 0) + f.maxPat, true)
  | .fin neg m e =>
    let p := f.roundMag m e
    ((if neg then f.signBit else 0) + min p f.maxPat, decide (f.maxPat < p))

def FV.ofInt (i : Int) : FV := .fin (decide (i < 0)) i.natAbs 0

/-- The signed mantissa. -/
def signed (neg : Bool) (m : Nat) : Int := if neg then -(m : Int) else m

def FV.neg : FV → FV
  | .nan => .nan
  | .inf s => .inf (!s)
  | .fin s m e => .fin (!s) m e

def FV.abs : FV → FV
  | .nan => .nan
  | .inf _ => .inf false
  | .fin _ m e => .fin false m e

/-- Exact product. -/
def FV.mul : FV → FV → FV
  | .nan, _ => .nan
  | _, .nan => .nan
  | .inf s, .inf t => .inf (s != t)
  | .inf s, .fin t m _ => if m = 0 then .nan else .inf (s != t)
  | .fin t m _, .inf s => if m = 0 then .nan else .inf (s != t)
  | .fin s m e, .fin t n f => .fin (s != t) (m * n) (e + f)

/-- Exact sum; an exact zero is +0 unless both addends are −0. -/
def FV.add : FV → FV → FV
  | .nan, _ => .nan
  | _, .nan => .nan
  | .inf s, .inf t => if s = t then .inf s else .nan
  | .inf s, .fin _ _ _ => .inf s
  | .fin _ _ _, .inf s => .inf s
  | .fin s m e, .fin t n f =>
    let lo := if e ≤ f then e else f
    let i := signed s (m * 2 ^ (e - lo).toNat) + signed t (n * 2 ^ (f - lo).toNat)
    if i = 0 then .fin (s && t) 0 lo else .fin (decide (i < 0)) i.natAbs lo

/-- Sign of the difference a − b as an ordering: none where either is NaN. -/
def FV.cmp (a b : FV) : Option Int :=
  match a, b with
  | .nan, _ => none
  | _, .nan => none
  | .inf s, .inf t => some (if s = t then 0 else if s then -1 else 1)
  | .inf s, .fin _ _ _ => some (if s then -1 else 1)
  | .fin _ _ _, .inf s => some (if s then 1 else -1)
  | .fin s m e, .fin t n f =>
    let lo := if e ≤ f then e else f
    let i := signed s (m * 2 ^ (e - lo).toNat) - signed t (n * 2 ^ (f - lo).toNat)
    some (if i < 0 then -1 else if i = 0 then 0 else 1)

/-- The value rounded to an integer, halves away from zero; none for NaN or an infinity. -/
def FV.toInt : FV → Option Int
  | .nan => none
  | .inf _ => none
  | .fin s m e => some (shiftRound (signed s m) e)

/-- R96: an integer output of `len` bits: saturated value, and whether it saturated. -/
def intDeliver (len : Nat) (v : FV) : Int × Bool :=
  let hi : Int := ((2 ^ (len - 1) : Nat) : Int) - 1
  match v with
  | .nan => (0, true)
  | .inf s => (if s then -hi - 1 else hi, true)
  | .fin _ _ _ =>
    match v.toInt with
    | some i => (clampInt (-hi - 1) hi i, decide (i < -hi - 1 ∨ hi < i))
    | none => (0, true)

end Sys2Proof.Machine
end

