-- ==== Sys2Proof/Config.lean ====
section
/-!
DEFINITION. What an implementation fixes and the manual leaves open: constants without a body, so that no proof
can rest on a value of theirs. Each is named in the assumption log.
-/
namespace Sys2Proof.Config

/-- A value the manual leaves open, fresh for each number of the device's free-value counter. -/
opaque freeNat : Nat → Nat

/-- The value stored where the manual states no result of a task word for its operands: applied to the
opcode and the operand patterns. -/
opaque openResult : Nat → List Nat → Nat

/-- VEC 0x10–0x1B (R113): which of the FP32 patterns within the stated error the unit's function of an FP32 pattern gives; the
whole pattern where the manual states no value. -/
opaque vecFn : (vop : Nat) → (pattern : Nat) → Nat

/-- One stage of an FFT (R150): the layout that the manual leaves open. Leg of its butterfly that makes element `k`, the
element that is its input `j`, the twiddle of that input, whether the twiddles come before the sums, and the turn's sense. -/
opaque fftLeg : (vop n stage k : Nat) → Nat
opaque fftIn : (vop n stage k j : Nat) → Nat
opaque fftTw : (vop n stage k j : Nat) → Nat
opaque fftDit : Bool
opaque fftInv : Bool

/-- CI16 in an FFT: an exact product with a twiddle brought back to the data's scale, and whether half of an odd number is
rounded up. -/
opaque fftCut : Int → Int
opaque fftHalfUp : Int → Bool

/-- The place at which summand `i` of `n` is added in a floating-point reduction (R89): fixed, not stated. -/
opaque sumPlace : (opcode n i : Nat) → Nat

/-- Factory curves of a physical tile (R73–R75): rises of its weight curve from level to level, in 1/16 code, and of its
modulator curves, from which curves of the form that R75 demands are made. -/
opaque factoryWeightStep : (ptile k : Nat) → Nat
opaque factoryModStep : (ptile line k : Nat) → Nat

/-- R192: the CP's own list loads the images of residency entry `idx` with a weight format, a DW and a place for
digit planes that the entry does not name: WFMT, DW − 1 and PLANES. -/
opaque promoLoad : (idx : Nat) → Nat × Nat × Nat

/-- R192: task words of that list beside the LOADWs it completes. -/
opaque promoWords : (idx : Nat) → Nat

/-- Factory record of a physical tile (R355, R286, R293): calibration value `key`, park code of a ring, halfword at
`off` of a gain set's image, code `k` of the legacy table. -/
opaque factoryCal : (ptile key : Nat) → Int
opaque factoryPark : (ptile ring : Nat) → Nat
opaque factoryGain : (ptile set off : Nat) → Nat
opaque factoryTable : (ptile k : Nat) → Nat

/-- What the lock engine's monitors are calibrated to (R279, R281, R293, R298), in sums of 64 chip samples and 1/65,536:
the input tap of a line at its commissioning power, the ratio of output tap to input tap at a mean drive level in 1/256,
and the share of a line's power on a row's monitor at a weight level. -/
opaque tapFull : (ptile line : Nat) → Nat
opaque modRatio : (ptile line level : Nat) → Nat
opaque monShare : (ptile : Nat) → (level : Int) → Nat

/-- The flank on which a ring's error crosses 0 at its line (R301): rising where true. -/
opaque flank : (ptile ring : Nat) → Bool

/-- The offset of CHIRP or PRBS injection `signal` at sample `n`, for amplitude, frequencies and duration (R305):
the manual gives neither the phase nor the polynomial. -/
opaque injWave : (signal : Nat) → (amp : Int) → (f0 f1 durMs n : Nat) → Int

/-- The exception ring is full for a record of `n` bytes when its write index is `idx` (R391, R392): the manual names no
read index. -/
opaque excFull : (idx n : Nat) → Bool

/-- What LASTDROP shows of a dropped frame to which R391 gives no reason: of one above 9,216 bytes (0), of a pause or PFC
frame (1). -/
opaque lastDrop : Nat → Nat

/-- The kind byte of a MODULE log entry (R459): of an alarm (0), of NOAPP (1), of a bus timeout (2). -/
opaque moduleKind : Nat → Nat

/-- SHA-384 of a byte list, and the verdict on an ECDSA P-384 signature over a message by a public key (R450, R454). -/
opaque sha384 : List (BitVec 8) → List (BitVec 8)
opaque sigOk : (key sig msg : List (BitVec 8)) → Bool

/-- The board section of a firmware image (R450), given what the flash lists of its slot: quad modes with FEC25 (MODE in
bits 2–0, FEC25 in bit 6), TL_CFG, and the fronthaul ports enabled, one bit each. -/
opaque boardQuad : (image : List (Nat × BitVec 8)) → (quad : Nat) → Nat
opaque boardTime : (image : List (Nat × BitVec 8)) → Nat
opaque boardPorts : (image : List (Nat × BitVec 8)) → Nat

/-- The injected sequence that the CP programs into converter A (R330, R332): its last entry, and its entry words. -/
opaque cpInjLast : Nat
opaque cpInj : (entry : Nat) → Nat

/-- What the factory default program holds beyond R447, given what the flash lists of its slot: (address, bytes) placed
in memory, the descriptor of a context, the address of its list, and the bias of an engine's placement. -/
opaque progMem : (image : List (Nat × BitVec 8)) → List (Nat × List (BitVec 8))
opaque progDesc : (image : List (Nat × BitVec 8)) → (ctx : Nat) → List (BitVec 8)
opaque progList : (image : List (Nat × BitVec 8)) → Nat
opaque progBias : (image : List (Nat × BitVec 8)) → (engine : Nat) → Nat

/-- SRAM requests of an engine that lose a bank to another in one cycle of the timeline clock (R102): which requests meet in
a cycle is a matter of timing that the manual does not fix. -/
opaque bankConf : (engine n : Nat) → Nat

/-- The set of the hub cache that holds a block, among the 3,072 of its pair of banks (R198). -/
opaque cacheSet : (block : Nat) → Nat

/-- Single-bit errors that an engine's SRAM corrects in one cycle of the timeline clock (R201). -/
opaque sramCe : (engine n : Nat) → Nat

/-- The alternate best master clock algorithm of a PTP profile (R227): the first announced data set is better than the
second. -/
opaque ptpBetter : (profile : Nat) → (announced other : List (BitVec 8)) → Bool

/-- The factory calibration of a monitor ADC's input (R325): the value of a raw code, in the unit of R324. -/
opaque madcValue : (rg conv input raw : Nat) → Int

/-- Raw code of the `n`-th conversion of an AUX channel looped to input 63 that stands at this voltage, in 1/65,536 mV (R324). -/
opaque loopCode : (rg conv : Nat) → (volts : Int) → (n : Nat) → Nat

/-- What a calibration does beside its results (R355): the code it puts on a CP-owned AUX channel in a step, the DRAM address its
results travel to, and the activity of a tile under calibration in a dither chip (R372). -/
opaque calAux : (rg step channel : Nat) → Nat
opaque calAddr : (rg step : Nat) → Nat
opaque calActivity : (ptile chip : Nat) → Nat

/-- The MiB of DRAM at which the CP puts the spill area by default (R218). -/
opaque spillMib : Nat

/-- The PCIe Vendor ID of Valbazin (R381). -/
opaque vendorId : Nat

/-- FWVER of the recovery firmware held in boot ROM (R426, R452). -/
opaque recoveryVer : Nat

end Sys2Proof.Config
end

