-- ==== Sys2Proof/Machine/State.lean ====
section
/-!
DEFINITION. The machine's state as plain data: everything the manual gives the device, the queue of waiting
commands, the reasons a command can be turned away, and the state right after reset.
-/
namespace Sys2Proof.Machine

/-- A change of device memory, collected while a command acts and made at its end (Machine/Ops.lean). -/
inductive MemOp where
  | bytes (addr : Nat) (data : List Byte)
  | zero (addr len : Nat)
  deriving DecidableEq, Repr

/-! ### The log, the mailboxes and what the block sends out (chapters 15 and 17) -/

/-- One error-log entry (R456); `data` is its 16 DATA bytes. -/
structure LogEntry where
  ts : Nat := 0
  source : Nat := 0
  code : Nat := 0
  severity : Nat := 0
  seq : Nat := 0
  data : List Byte := []
  deriving DecidableEq, Repr

/-- The error log (R457, R466): the entries held, newest first, and the four counters of LOG_CNT. -/
structure ErrLog where
  entries : List LogEntry := []
  /-- Entries written since the log was last cleared; SEQ of the next is this modulo 2^24. -/
  written : Nat := 0
  cntInfo : Nat := 0
  cntWarn : Nat := 0
  cntError : Nat := 0
  cntFatal : Nat := 0
  deriving DecidableEq, Repr

/-- One event entry (R429); `data` is its 16 DATA bytes. -/
structure Event where
  ts : Nat := 0
  typ : Nat := 0
  source : Nat := 0
  eseq : Nat := 0
  data : List Byte := []
  deriving DecidableEq, Repr

/-- MBX_STATUS.STATE. -/
inductive MbxState where
  | idle | busy | done
  deriving DecidableEq, Repr

/-- One mailbox (R414, R415, R431): its buffers, registers, event queue and subscription. -/
structure Mailbox where
  /-- Command buffer, by 32-bit word index 0…1023. -/
  cmd : Tbl Word := []
  /-- Response buffer. -/
  rsp : List Byte := []
  state : MbxState := .idle
  lastSeq : Nat := 0
  lastStatus : Nat := 0
  /-- MBX_CFG.VER: 1 or 2 (R420). -/
  ver : Nat := 2
  intStat : BitVec 5 := 0#5
  intEn : BitVec 5 := 0#5
  prod : Nat := 0
  cons : Nat := 0
  lost : Nat := 0
  /-- Entries placed and not yet consumed, oldest first (R431). -/
  evq : List Event := []
  /-- EVENT_SUB class bits 0–8 (R430). -/
  evMask : BitVec 9 := 0#9
  /-- The doorbell has rung and the CP has not taken the command (R415, R416). -/
  rung : Bool := false
  deriving DecidableEq, Repr

/-- What leaves the block: bus completions, interrupts, frames, host writes. A TLP (BAR2 completion, atomic completion, MSI-X,
host write) goes to Tollgate 52 at the end of its command and leaves with that Tollgate's grant (R256; log entry 223). -/
inductive Output where
  /-- A BAR0 read completes for a requester. -/
  | busData (who off value : Nat)
  /-- A BAR2 read completes for a function; `data` are the bytes returned, `poison` marks poisoned data (R196). -/
  | bar2Data (fn addr : Nat) (poison : Bool) (data : List Byte)
  /-- A PCIe atomic of a function completes with the value that stood before it. -/
  | atomicData (fn addr old : Nat) (poison : Bool)
  /-- An MSI-X vector of a function (0 the PF, 1–4 VF0–VF3) (R432). -/
  | msix (fn vec : Nat)
  /-- Bytes written to host memory by COPY (R380). -/
  | hostWrite (addr : Nat) (data : List Byte)
  /-- One of the four TLPs above leaves the device: Tollgate 52 has granted it. -/
  | tlp (t : Output)
  /-- A frame leaves a peer port (R399). -/
  | peerFrame (port : Nat) (typ : Nat) (header : List Byte) (payload : List Byte)
  /-- A frame leaves a fronthaul port. -/
  | fhFrame (port : Nat) (payload : List Byte)
  /-- A block read of MBX7's window returns 32 bytes (R418). -/
  | smbusData (data : List Byte)
  /-- A read or write on a module bus (R407). -/
  | moduleOp (bus bank page offset : Nat) (write : Bool) (data : List Byte)
  /-- The rising edge of PPS_OUT (R409). -/
  | ppsOut (time : Nat)
  /-- ESMC sent on a fronthaul port (R386). -/
  | esmc (port ql : Nat)
  /-- A PTP message of the slave clock leaves a port (R227), under G.8275.2 with its own address and the master's. -/
  | ptp (port : Nat) (kind : Nat) (addr : List Byte)
  /-- A request waits at a memory channel, hub-cache bank, peer port or the host Tollgate. -/
  | dramRequest (addr : Nat) (write : Bool)
  deriving DecidableEq, Repr
/-! ### Device time, carrier timelines and Milestones (chapter 8) -/

/-- The discipline state (R231). -/
inductive Disc where
  | freerun | acquiring | locked | holdover
  deriving DecidableEq, Repr

/-- The slave clock's part of the PTP exchange (R227). -/
structure Ptp where
  /-- Masters heard on the port: port identity, and what each last announced. -/
  masters : List (Nat × List Byte) := []
  master : Option Nat := none
  /-- The last Sync of the master: sequence number, its timestamp here, and its origin time once that is known. -/
  sync : Option (Nat × Nat × Option Nat) := none
  /-- Delay_Req sent: sequence number, its timestamp here. -/
  request : Option (Nat × Nat) := none
  nextSeq : Nat := 0
  /-- Unicast service granted by the master, by message type (G.8275.2). -/
  granted : List Nat := []
  /-- The last complete exchange: origin and arrival of the Sync, departure of the Delay_Req and its arrival at the master. -/
  exchange : Option (Nat × Nat × Nat × Nat) := none
  deriving DecidableEq, Repr

/-- The time discipline (R225–R233). -/
structure Timeline where
  state : Disc := .freerun
  /-- TL_STATUS.EVERLOCKED. -/
  everLocked : Bool := false
  /-- Device time before the last cycle of the timeline clock, or right after a step. -/
  before : Nat := 0
  /-- Fraction of a Tc below the count, in units of 5·10⁻¹⁰ Tc. -/
  frac : Nat := 0
  /-- Phase error still to be removed by slewing, in the same units. -/
  slew : Int := 0
  /-- FREQ_TRIM, parts per 10⁹ (R226). -/
  trimPpb : Int := 0
  /-- Consecutive phase measurements within 50 ns (R232). -/
  good : Nat := 0
  stepReq : Bool := false
  stepped : Bool := false
  /-- The source is present; false after a loss until its return. -/
  srcPresent : Bool := true
  /-- Always-on time at which the present discipline state began: HOLDOVER's length is no matter of steps (R232). -/
  holdFrom : Nat := 0
  ppsOk : Bool := false
  /-- Device time of the last PPS_IN edge less the cable delay, and its distance from the one before (R408). -/
  ppsInAt : Option Int := none
  ppsGap : Option Int := none
  /-- Quality level last read from ESMC on the selected port (R228). -/
  esmcQl : Option Nat := none
  /-- Device time right after the last step (R234). -/
  stepAt : Option Nat := none
  /-- TL_OFFSET, in 1/16 Tc. -/
  offset : Int := 0
  /-- PPS_LABEL: the count of the next edge (R229). -/
  ppsLabel : Option Nat := none
  /-- Count given to the last accepted edge, none after a source change (R229). -/
  ppsLast : Option Nat := none
  /-- Offset of the last edge taken as a second, in 1/16 Tc, until it is measured (R229). -/
  ppsMeas : Option Int := none
  /-- Device time of the last rising edge of PPS_OUT (R409). -/
  ppsEdge : Option Nat := none
  /-- PTP domain and addresses (TIME_SRC, PTP_ADDR). -/
  ptpDomain : Nat := 0
  ptpFamily : Nat := 4
  ptpOwn : List Byte := []
  ptpMaster : List Byte := []
  /-- PTP messages taken by the slave clock, newest first: kind, hardware timestamp (R227). -/
  ptpSeen : List (Nat × Nat) := []
  ptp : Ptp := {}
  deriving DecidableEq, Repr

/-- A commit that is pending (R244–R246). -/
structure Commit where
  ct : Nat
  b : Nat
  mbx : Nat
  /-- False until the copy at B has been made. -/
  copied : Bool := false
  /-- Deferred entries with the slot boundary at which each is copied (R245). -/
  deferred : List (Nat × Nat) := []
  deriving DecidableEq, Repr

/-- A snapshot set (R253). -/
structure Snapshot where
  ts : Nat := 0
  pos : Nat := 0
  tmap : Nat := 0
  deriving DecidableEq, Repr

/-- The Milestone banks (R238, R243) and the MS registers. -/
structure Milestones where
  shadow : Tbl (BitVec 256) := []
  active : Tbl (BitVec 256) := []
  commit : Option Commit := none
  /-- MS_STATUS.CT and MS_EFFECT of the pending or last commit. -/
  lastCt : Nat := 0
  lastB : Nat := 0
  gen : Nat := 0
  snaps : Tbl Snapshot := []
  /-- For an entry that a commit has copied, the version it had and the instant of the copy: a firing before that instant is one
  of the old version (R244). -/
  prior : Tbl (BitVec 256 × Nat) := []
  /-- Instant and entry of the firing dispatched last, and the firings dispatched in a timeline cycle: its number, their count
  (R242). -/
  last : Option (Nat × Nat) := none
  cycle : Nat × Nat := (0, 0)
  /-- Device time at which each carrier timeline was enabled (R241). -/
  enabled : Tbl Nat := []
  /-- The 1,966,080 Tc interval in which MS_SLIP was last logged (R459), counted from 1. -/
  slipLogged : Nat := 0
  deriving DecidableEq, Repr
/-! ### Tiles and engines (chapters 2 to 6) -/

/-- TILE_STATUS.STATE (R62). -/
inductive TileState where
  | off | acquiring | idle | active | reloading | swapping | lockLost | shutdown
  | shutdownRestart | unbound | replacing
  deriving DecidableEq, Repr

/-- ENG_STATUS.STATE (R124). -/
inductive EngState where
  | off | idle | running | waiting | stalled | error | shutdown | shutdownRestart
  deriving DecidableEq, Repr

/-- The 64 × 64 levels of a tile image: row number to its 64 levels; a row not listed is all 0. -/
abbrev Levels := Tbl (List Int)

/-- The weight set a tile slot holds (R139, R140, R173). -/
structure WSet where
  /-- Number of the LOADW that formed it. -/
  num : Nat
  complex : Bool
  dw : Nat
  spread : Bool
  /-- TMASK of the LOADW. -/
  tmask : Nat
  /-- SRAM offset of the digit planes, where used. -/
  planes : Option Nat
  /-- The 48-byte index entry of a sparse set (R170, R173). -/
  sparse : Option (List Byte)
  deriving DecidableEq, Repr

/-- Why a tile reloads (R39): a LOADW, a digit or rotation reload, a return from the shadow. -/
inductive ReloadKind where
  | loadw (num : Nat) | digit (comp p : Nat) | ret
  deriving DecidableEq, Repr

/-- A reload in progress: the rows it writes, in order, and always-on time at the first row write (R39). -/
structure Reload where
  kind : ReloadKind
  rows : Levels
  t0 : Nat := 0
  deriving DecidableEq, Repr

/-- One column of one reading of a conversion while the saturation policy resolves it (R52–R57). -/
structure ColRes where
  word : Int := 0
  /-- Sum of h × STEP over the readings that make it up, product units (R83). -/
  dsum : Int := 0
  gateFail : Bool := false
  clamp : Bool := false
  split : Bool := false
  /-- Computed whole on the MAC array: later readings do not add to it. -/
  whole : Bool := false
  deriving DecidableEq, Repr

/-- One reading: the first, or a further one of a re-read (R83). -/
structure Reading where
  cols : Tbl ColRes := []
  /-- Windows of this reading not yet resolved. -/
  openWins : Nat := 1
  deriving DecidableEq, Repr

/-- One conversion (R43): what it converts, with which weights, and how far its words are resolved. Its segments are its
part of the tile's replay buffer (R54): what its re-runs, re-reads, splits and fallback work on. -/
structure Conv where
  cid : Nat
  num : Nat
  /-- The task word, its area and its weight set's index entry. -/
  word : BitVec 256
  aid : Nat
  sparse : Option (List Byte)
  /-- TILE_CFG in force for its task word. -/
  cfg : Nat
  p : Nat
  q : Nat
  comp : Nat
  v : Nat
  klog : Nat
  arr : Bool
  /-- PAM16 levels of its segments in order; one segment when ARR = 1. -/
  segs : List (List Nat)
  w : Levels
  ts : Nat
  /-- Close of its latest window. -/
  close : Nat := 0
  ptile : Nat
  quiet : Bool
  /-- Lowest number of readings taken so far and wanted: 1, or R after a failed gate. -/
  want : Nat := 1
  readings : Tbl Reading := []
  /-- Columns that failed the gate on the first reading (R83). -/
  failed : List Nat := []
  /-- Marked stale by a lock loss or a forced detour (R295, R347). -/
  stale : Bool := false
  /-- Computed as a whole on the MAC array since this instant (R86). -/
  mac : Option Nat := none
  /-- Gain steps in use when it began, and the number of the setting of R50 they come from. -/
  gains : Tbl Nat := []
  gainEp : Nat := 0
  deriving DecidableEq, Repr

/-- Why a window opens. -/
inductive WinKind where
  | first | rerun | reread
  deriving DecidableEq, Repr

/-- An integration window: segments `lo`…`lo + n − 1` of a conversion at depth 2^klog (R43, R54, R83). -/
structure Win where
  cid : Nat
  reading : Nat
  kind : WinKind
  lo : Nat
  n : Nat
  klog : Nat
  round : Nat
  /-- Columns whose words come from this window. -/
  cols : List Nat
  /-- Gain steps used, by column. -/
  gains : Tbl Nat
  ts : Nat := 0
  /-- Symbol rate at which it opened (R35). -/
  rate : Nat := 0
  deriving DecidableEq, Repr

/-- A tile operation of the issue queue (R114): one task word's work on one logical tile. -/
structure TileOp where
  num : Nat
  word : BitVec 256
  /-- Address of the task word, and the device time at its issue. -/
  addr : Nat := 0
  issued : Nat := 0
  /-- 0x01 LOADW, 0x02 MVM, 0x03 MVMC. -/
  op : Nat
  slot : Nat
  /-- Accumulation area's OPEN (its unique number). -/
  aid : Nat := 0
  /-- Items skipped by this task word (R131): the mask at its decode. -/
  mask : BitVec 256 := 0#256
  skipThr : Nat := 0
  /-- Weight set seen at decode. -/
  wset : Option WSet := none
  /-- Rows a LOADW writes, once formed. -/
  rows : Levels := []
  /-- TILE_CFG in force for this task word on this tile (R64). -/
  cfg : Nat := 0
  /-- The first window has been prepared: gains, range check. -/
  begun : Bool := false
  /-- It has opened a window on its tile (R64). -/
  opened : Bool := false
  /-- Next conversion: digit-pass stage, vector, group. -/
  stage : Nat := 0
  vec : Nat := 0
  grp : Nat := 0
  /-- Every conversion has been opened or handed to the MAC array. -/
  ended : Bool := false
  /-- Redirected to, or fallen back on, the MAC array (R86, R117). -/
  onMac : Bool := false
  /-- The state of its tile that the operation waits in, if it waits, and the device time since which it does (R117); IDLE in
  a forced gap (R346). -/
  waitFrom : Option (TileState × Nat) := none
  /-- The quiet request of R90 has been answered: `some true` suspended, `some false` denied (R92). -/
  quiet : Option Bool := none
  deriving DecidableEq, Repr

/-- What the tiles of one task word share: the re-read budget and the range check (R72, R85, R86). -/
structure Work where
  /-- Extra readings left; none unlimited. -/
  budget : Option Nat := none
  exhausted : Bool := false
  /-- KRATE has been checked and met: a first window has opened (R145). -/
  rateOk : Bool := false
  /-- Vectors out of range for DX, once checked. -/
  bad : Option (List Nat) := none
  /-- QUIETDENY has counted this task word. -/
  denied : Bool := false
  /-- A LOADW's digits have been formed and lie within range (R139). -/
  formed : Bool := false
  /-- A LOADW from a stream context: its rows, taken from the buffer by the end of the pass that brought them (R140). -/
  src : Option (List Byte) := none
  /-- A LOADW: the weight set each tile of its mask had before its decode. -/
  prev : Tbl (Option WSet) := []
  deriving DecidableEq, Repr

/-- Pieces of work on the MAC array (R109). -/
inductive Piece where
  /-- A split column of a conversion (kind 1). -/
  | split (slot cid reading lo n col : Nat)
  /-- Columns of one reading of a conversion of a tile slot (kind 2). -/
  | conv (slot cid reading : Nat) (cols : List Nat)
  /-- The rest of a tile operation (kind 2). -/
  | rest (op : TileOp)
  /-- Vectors out of range (kind 2). -/
  | range (op : TileOp) (vecs : List Nat)
  /-- A SENS product, one entry for all its tiles (kind 3). -/
  | sens (ops : List TileOp)
  /-- A DMM task word (kind 4). -/
  | dmm (word : BitVec 256) (aid : Nat) (mask : BitVec 256)
  deriving DecidableEq, Repr

/-- A job of the MAC array. -/
structure MacJob where
  num : Nat
  kind : Nat
  piece : Piece
  /-- Device time at which it began, if it has. -/
  started : Option Nat := none
  deriving DecidableEq, Repr

/-- Work in the vector queue (R114). -/
inductive VecKind where
  | vec | exit | route
  deriving DecidableEq, Repr

/-- An entry of the vector queue. -/
structure VecJob where
  num : Nat
  kind : VecKind
  word : BitVec 256
  deriving DecidableEq, Repr

/-- What a result vector's status has gathered so far (R97, R98). -/
structure VecStat where
  ts : Option Nat := none
  lowconf : Bool := false
  sat : Bool := false
  fallback : Bool := false
  stale : Bool := false
  /-- A tile conversion contributed. -/
  tileConv : Bool := false
  /-- Every tile conversion so far ran with dither suspended. -/
  allQuiet : Bool := true
  reread : Nat := 0
  tiles : Nat := 0
  colmask : Nat := 0
  /-- Latest start of a contributing integration, by physical tile (R295). -/
  starts : Tbl Nat := []
  /-- Latest close of a contributing window, by physical tile (R347). -/
  ends : Tbl Nat := []
  deriving DecidableEq, Repr

/-- An accumulation area (R106, R153). -/
structure Area where
  /-- Unique number: that of the task word that opened it. -/
  aid : Nat
  cplx : Bool
  ashift : Nat
  nvec : Nat
  base : Nat
  nrows : Nat
  bound : Nat := 0
  rows : Tbl (Tbl Int) := []
  vst : Tbl VecStat := []
  /-- Task words that targeted vectors lo…hi−1, with their issue instants (R181). -/
  targets : List (Nat × Nat × Nat) := []
  /-- Freed at decode; its rows wait for a delivery (R153). -/
  freeing : Bool := false
  deriving DecidableEq, Repr

/-- A delivery in the delivery queue (R137). -/
structure Delivery where
  num : Nat
  aid : Nat
  area : Nat
  word : BitVec 256
  mask : BitVec 256
  deriving DecidableEq, Repr

/-- A SIGNAL in the signal queue (R137, R162): its bias-resolved address. -/
structure SigEntry where
  num : Nat
  word : BitVec 256
  addr : Nat
  /-- Address of the task word. -/
  pc : Nat
  deriving DecidableEq, Repr

/-- A placement (R134). -/
structure Placement where
  list : Nat
  /-- Start entry, none for immediate start. -/
  start : Option Nat
  deadline : Option Nat
  bias : Nat
  placeId : Nat
  mbx : Nat
  /-- Version of the mailbox protocol's CP-internal lists: a residency promotion's own list. -/
  promo : Bool := false
  /-- The anchor (R249), once the start entry has fired or at placement. -/
  anchor : Option Nat := none
  /-- Firings of the deadline entry still to come before it is met. -/
  dleft : Nat := 0
  /-- Firings count from after this instant: the anchor, then the last firing counted. -/
  dfrom : Nat := 0
  /-- The deadline instant, once it has fired. -/
  dhit : Option Nat := none
  /-- The deadline entry was valid at the anchor. -/
  dvalid : Bool := false
  /-- Milestone releases that fire before its list starts: entry numbers and instants (R161). -/
  released : List (Nat × Nat) := []
  /-- The instant of the placement (R135). -/
  made : Nat := 0
  deriving DecidableEq, Repr

/-- The running list. -/
structure Run where
  plc : Placement
  startTs : Nat
  /-- The END task word has been decoded. -/
  ended : Bool := false
  /-- Error or CANCELLED code, with the failing task word's opcode and address. -/
  fail : Option (Nat × Nat × Nat) := none
  /-- Milestone releases at or after the list's start: entry numbers (R161). -/
  released : List Nat := []
  deriving DecidableEq, Repr

/-- An outstanding EXIT (R157, R182). -/
structure ExitRec where
  target : Nat
  cleared : BitVec 256
  deriving DecidableEq, Repr

/-- A ROUTE in progress (R155). -/
structure RouteRec where
  /-- Mask to restore. -/
  mask : BitVec 256
  join : Nat
  wout : Nat
  /-- Selected experts still to run: their section labels, selecting items and gate values. -/
  left : List (Nat × BitVec 256 × Tbl Nat)
  /-- The address the search for each section starts from: the word after the ROUTE. -/
  from_ : Nat
  deriving DecidableEq, Repr

/-- What holds decoding (R137). -/
inductive Hold where
  | none
  | waitm (msid : Nat) (timeout : Nat) (since : Nat)
  | fence (num : Nat) (scope : Nat) (poll : Bool) (addr value timeout since : Nat) (met : Bool)
  | lock (ctx tg timeout since : Nat)
  /-- An ARM waits for its descriptor, which another device holds (R29). -/
  | arm (num : Nat)
  | exitEval
  | routeEval
  | areaWait
  | queueFull
  | areaDone
  deriving DecidableEq, Repr

/-- The units a task word still works in, for FENCE, SIGNAL and LIST_END (R136, R163, R165). -/
inductive WUnit where
  | tile | mac | vec | deliver | signal | seq
  deriving DecidableEq, Repr

/-- A resident slot (R186). -/
structure RSlot where
  tmask : Nat
  gapUs : Nat
  deriving DecidableEq, Repr

/-- A logical tile's slot (R41, R42, R50, R100). -/
structure Slot where
  st : TileState := .off
  shadow : Levels := []
  /-- OFS and SIG of each column (R42). -/
  ofs : Tbl (Int × Nat) := []
  gains : Tbl Nat := []
  /-- Number of the task word that set them, and how many settings of R50 there have been. -/
  gainNum : Nat := 0
  gainEp : Nat := 0
  /-- The input buffer (R100, R103): task word, vector, and the elements of that vector's segments. -/
  inbuf : Option (Nat × Nat × List (Int × Int)) := none
  /-- Symbol rate in force (R64). -/
  rate : Nat := 0
  wset : Option WSet := none
  /-- Component and digit the tile holds of its set. -/
  held : Nat × Nat := (0, 0)
  convs : Tbl Conv := []
  wins : List Win := []
  reruns : List Win := []
  rereads : List Win := []
  reload : Option Reload := none
  /-- The tile must take all rows from the shadow before its next product (R117). -/
  stale : Bool := false
  /-- The next window has been counted in THM_CNT_SLEWWAIT (R378). -/
  slewed : Bool := false
  convCount : Nat := 0
  lastSat : Nat := 0
  lastSatTs : Nat := 0
  deriving DecidableEq, Repr

/-- An engine (chapters 4 and 5). -/
structure Engine where
  st : EngState := .off
  placed : List Placement := []
  run : Option Run := none
  pc : Nat := 0
  /-- The task word being decoded. -/
  cur : BitVec 256 := 0#256
  /-- End of the last list, or of the residency update after it (R135, R192). -/
  lastEnd : Nat := 0
  /-- Number given to the next decoded task word; 0 stands for none. -/
  nextNum : Nat := 1
  seq : Nat := 0
  mask : BitVec 256 := BitVec.allOnes 256
  exits : List ExitRec := []
  route : Option RouteRec := none
  inSection : Bool := false
  /-- EXIT confidence register, FP32 patterns (R151). -/
  conf : Tbl Nat := []
  hold : Hold := .none
  /-- ENG_CFG in force since the last task-word decode; the register at reset where none (R122). -/
  cfg : Option Nat := none
  issueq : List TileOp := []
  work : Tbl Work := []
  macq : List MacJob := []
  vecq : List VecJob := []
  areas : Tbl Area := []
  delq : List Delivery := []
  sigq : List SigEntry := []
  /-- Decoded task words not yet complete, with the units they still use. -/
  live : List (Nat × WUnit) := []
  slots : Tbl Slot := []
  nextCid : Nat := 0
  rslots : Tbl RSlot := []
  /-- A ROADWORKS Milestone of the region has fired since the last list end (R189). -/
  rdwkSeen : Bool := false
  /-- A promotion's load waits to run before the next list (R192): table index; whether its own list has failed. -/
  promo : Option Nat := none
  promoFail : Bool := false
  /-- Task words fetched and not yet decoded, in list order from the word at the PC (R114). -/
  fetched : List (BitVec 256) := []
  /-- Single-bit errors of its SRAM corrected so far (R201). -/
  sramCe : Nat := 0
  /-- Contexts that ARM task words of the running list have armed, each with its task word's number (R165). -/
  armedBy : List (Nat × Nat) := []
  deriving DecidableEq, Repr
/-! ### Streams, the pool and DRAM (chapter 7) -/

/-- STRM_CTXn_STAT.STATE (R212). -/
inductive CtxState where
  | idle | active | waitSpace | waitPool | waitGate | passEnd | dropped | spilled | fault
  deriving DecidableEq, Repr

/-- A stream descriptor (R204), field by field. -/
structure Desc where
  kind : Nat := 0
  persist : Bool := false
  ring : Bool := false
  cache : Nat := 0
  ndim : Nat := 1
  gateEn : Bool := false
  esize : Nat := 0
  gate : Nat := 0
  resv : Nat := 0
  slack : Nat := 0
  ct : Nat := 0
  forkn : Nat := 0
  base : Nat := 0
  counts : List Nat := []
  strides : List Int := []
  buf : Nat := 0
  bufsz : Nat := 0
  prog : Nat := 0
  credit : Nat := 0
  gaprec : Nat := 0
  /-- Members as (DEVNUM, number in the STRM series of that device). -/
  members : List (Nat × Nat) := []
  deriving DecidableEq, Repr

/-- One fork member as its source sees it (R219–R221). -/
structure Member where
  joined : Bool := false
  dropped : Bool := false
  /-- Number of the next element to deliver to it. -/
  next : Nat := 0
  /-- For a member on a peer: free ring bytes, as last reported by CREDIT less what was sent since (R402). -/
  space : Nat := 0
  /-- For a member on a peer: a CREDIT has come, and the last one reported an empty ring. -/
  heard : Bool := false
  emptied : Bool := false
  /-- The gap since the drop: timestamp of its first element, of the last so far, and their count. -/
  gapFirst : Nat := 0
  gapLast : Nat := 0
  missed : Nat := 0
  gapCause : Nat := 0
  deriving DecidableEq, Repr

/-- An element a fork source holds for its members; `no` counts elements since the full arm. -/
structure Elem where
  no : Nat
  ts : Nat
  addr : Nat
  len : Nat
  /-- Its bytes while the source holds them; none once a member has to take them from the pass buffer (R219) or they have
  been spilled. -/
  data : List Byte := []
  pass : Nat := 0
  /-- Where the watchdog spilled its bytes, if it did (R218). -/
  spill : Option Nat := none
  /-- Its bytes were read back from a poisoned block (R196). -/
  poison : Bool := false
  deriving DecidableEq, Repr

/-- A batch of fork elements for one peer device (R402); `poison` marks an element that touches a poisoned block. -/
structure Batch where
  mask : Nat
  poison : Bool := false
  data : List Byte
  /-- Instant of its first element. -/
  first : Nat
  deriving DecidableEq, Repr

/-- A stream context (R202–R221). -/
structure Ctx where
  st : CtxState := .idle
  desc : Desc := {}
  /-- Mailbox that armed it (R220); for an ARM task word, the one that placed the list. -/
  mbx : Nat := 0
  /-- Order of full arms (R218). -/
  armed : Nat := 0
  /-- Elements requested, and completed, in the present pass; FH_OUT: 1 once the pass has begun (R394). -/
  issued : Nat := 0
  prog : Nat := 0
  /-- Bytes placed in the buffer (READ, FORK_RX) or taken from it (WRITE) since the full arm (R207). -/
  placed : Nat := 0
  /-- Largest CREDIT read since the full arm; it never decreases (R207). -/
  creditSeen : Nat := 0
  /-- READ from a peer: elements that have come and wait for earlier ones, each with its poison mark and data; FH_OUT: the
  parts of a pass buffer on a peer, by offset (R214). -/
  arrived : List (Nat × Bool × List Byte) := []
  /-- WRITE to a peer: runs of elements that are complete beyond the completed prefix, first element and number (R207). -/
  fin : List (Nat × Nat) := []
  /-- Instants at which outstanding element reads were issued, oldest first. -/
  issueTs : List Nat := []
  /-- Pool bytes it holds (R215). -/
  pool : Nat := 0
  /-- Held re-arm (R159). -/
  rearm : Option Nat := none
  /-- Passes begun since the full arm. -/
  passNo : Nat := 0
  members : List Member := []
  /-- Elements kept for members, oldest first, and the number of elements so far. -/
  elems : List Elem := []
  elemCount : Nat := 0
  batches : Tbl Batch := []
  /-- The state to return to from SPILLED, and where the watchdog has put elements of `arrived`: address and length by element
  (R218). -/
  spillSt : CtxState := .idle
  spillArr : Tbl (Nat × Nat) := []
  /-- FH_IN and FH_OUT: number of the present pass, once it has begun. -/
  pass : Option Int := none
  /-- FH_IN: first slot boundary at which a pass may begin. -/
  firstPass : Nat := 0
  /-- FH_IN: bytes written in the present pass buffer; FH_OUT: offset of the next record. -/
  frontier : Nat := 0
  /-- FH_IN: written length of each pass buffer whose pass has ended. -/
  ended : Tbl Nat := []
  /-- FORK_RX: its source has let it join, and the elements of that source's present pass it counts. -/
  joined : Bool := false
  /-- FORK_RX: its source on a peer: device, source context, member bit; and the free space last reported to it. -/
  source : Option (Nat × Nat × Nat) := none
  credited : Nat := 0
  deriving DecidableEq, Repr

/-- A 256-byte block in the hub cache, a line in each bank of a pair (R198): whether it is dirty, its insertion priority
(R199). -/
structure CLine where
  block : Nat
  dirty : Bool := false
  prio : Nat := 0
  deriving DecidableEq, Repr

/-- Hub stream and memory state beside the contexts. -/
structure Streams where
  ctxs : Tbl Ctx := []
  /-- The hub cache: the blocks of each set of each pair of banks, most recently used first (R198). -/
  cache : Tbl (List CLine) := []
  nextArm : Nat := 1
  /-- Device time since which the pool's shared part has been full with two contexts waiting. -/
  wdogFrom : Option Nat := none
  /-- Bytes used in the spill area. -/
  spillUsed : Nat := 0
  /-- 256-byte blocks poisoned (R196), and blocks queued for corrected write-back (R195). -/
  poison : List Nat := []
  writeBack : List Nat := []
  /-- Next block of the patrol scrub, and when the patrol began (R197). -/
  scrubNext : Nat := 0
  scrubFrom : Nat := 0
  /-- Its read of that block: 0 not presented, 1 waiting at the memory channel's Tollgate, 2 granted. -/
  scrubReq : Nat := 0
  deriving DecidableEq, Repr
/-! ### Peer links (R396–R404) -/

/-- Who waits for a transfer's completion. -/
inductive XferFor where
  /-- A READ element, or `n` elements of a WRITE from number `first` on, of a stream context under its full arm `arm`. -/
  | stream (ctx arm first n : Nat)
  /-- A record of an FH_IN context; `off` bytes into pass buffer `pass` of an FH_OUT context. -/
  | fhIn (ctx arm : Nat)
  | fhOut (ctx arm : Nat) (pass : Int) (off : Nat)
  /-- A SIGNAL, or a FENCE poll, of an engine's task word. -/
  | signal (e num : Nat)
  | fence (e num : Nat)
  /-- The descriptor of an engine's ARM. -/
  | arm (e num : Nat)
  /-- `off` bytes into the data that job `num` of the CP moves (COPY). -/
  | cp (num off : Nat)
  /-- A FORK for the members `mask` of its source; it needs no completion. -/
  | fork (mask : Nat) (poison : Bool)
  deriving DecidableEq, Repr

/-- A transfer sent and not complete (R400, R401). -/
structure Xfer where
  tag : Nat
  port : Nat
  req : Nat
  /-- Device it goes to. -/
  dev : Nat
  /-- TYPE: 0 WRITE, 1 READ, 3 ADD, 5 FORK. -/
  typ : Nat
  addr : Nat
  len : Nat
  data : List Byte
  for_ : XferFor
  /-- Device time of the first refusal or of the link loss; the transfer fails 1 ms after it. -/
  since : Option Nat := none
  /-- The Tollgate of its port has admitted it (R256). -/
  sent : Bool := false
  /-- Admitted, but its frame has not left: its port is not UP, or an earlier transfer of its requester to its device goes
  first (R400; log entry 190). -/
  held : Bool := false
  /-- Where the watchdog spilled its data, if it did (R218). -/
  spill : Option Nat := none
  /-- Device time at which a refused transfer is sent again. -/
  retryAt : Option Nat := none
  deriving DecidableEq, Repr

/-- PRT_PEERn_STATUS.STATE. -/
inductive PeerState where
  | down | training | notReady | up | shutdown | shutdownRestart | conflict
  deriving DecidableEq, Repr

/-- A peer port. -/
structure Peer where
  st : PeerState := .down
  /-- What the partner reported at training: its port, its DEVNUM once valid, its DEV_UID. -/
  pport : Nat := 0
  pdev : Option Nat := none
  puid : Nat := 0
  /-- Time comparisons, newest first: offset and delay, in 1/2 Tc. -/
  comps : List (Int × Nat) := []
  /-- Comparisons made with both devices time locked, up to 8. -/
  valid : Nat := 0
  /-- Consecutive results beyond TLIM (R404). -/
  beyond : Nat := 0
  /-- Device time at which the comparison under way was sent: its t1 (R404). -/
  timeSent : Option Nat := none
  /-- Replays so far of the frame replayed last (R396). -/
  replays : Nat := 0
  deriving DecidableEq, Repr

/-- The peer links. -/
structure Peers where
  ports : Tbl Peer := []
  nextTag : Nat := 0
  xfers : List Xfer := []
  /-- The device whose command MBX6 took last since reset, and messages of MBX6 that no port carries yet, each with its device
  (R419). -/
  mbxDev : Option Nat := none
  mbxOut : List (Nat × List Byte) := []
  deriving DecidableEq, Repr
/-! ### Tollgates (chapter 9) -/

/-- A request waiting at a Tollgate (R259–R261). -/
structure TReq where
  who : Nat
  /-- Cycle in which it was first presented. -/
  age : Nat
  /-- It asks for a locked sequence (R266), for the LOCKSEQ at this address. -/
  lock : Option Nat := none
  /-- Address of the memory it asks for, and whether it writes; none where it stands for another kind of unit. -/
  mem : Option (Nat × Bool) := none
  deriving DecidableEq, Repr

/-- A locked sequence (R266–R268). -/
structure TLock where
  owner : Nat
  opened : Nat
  /-- Address of the LOCKSEQ that opened it. -/
  pc : Nat
  /-- CLOSE has been decoded; the sequence ends once the owner's requests have completed (R167). -/
  closing : Bool := false
  deriving DecidableEq, Repr

/-- One Tollgate's arbitration state (R256–R271). -/
structure Tollgate where
  /-- Hub cycles seen by this Tollgate. -/
  cycle : Nat := 0
  parked : List TReq := []
  presented : List TReq := []
  lock : Option TLock := none
  /-- Grants since the last Nth grant (R262). -/
  sinceNth : Nat := 0
  /-- Requester last granted in each class (R260). -/
  rr : Tbl Nat := []
  /-- Of the last four grants, which went to lifted requests, newest first (R259). -/
  last4 : List Bool := []
  /-- Grants in the present quota window, by requester, and the requesters masked (R263). -/
  quota : Tbl Nat := []
  masked : List Nat := []
  /-- Requesters of the granted units the port holds, oldest first (R256). -/
  held : List Nat := []
  /-- Memory channels: grants allowed so far by the 1 TB/s average, in 1/48 grant (R256). -/
  allowance : Nat := 0
  deriving DecidableEq, Repr
/-! ### Physical tiles and ring lock (chapters 3, 10, 11 and 13) -/

/-- The lock states of R309. -/
inductive LockState where
  | off | ramp | settle | sweep | capture | identity | locked | relock | legacy | faulted
  deriving DecidableEq, Repr

/-- An acquisition or re-acquisition in progress (R296, R299–R304). Rings are numbered 64 · row + line, modulator
rings 4,096 + line. -/
structure Acq where
  /-- Of a re-acquisition: 0 waits for the next whole window, 1 local sweep, 2 capture, 3 identity check,
  4 soft-start, 5 a full sweep of inconclusive rings (R296, R303); of a full acquisition: 1 while a sweep is a
  local one (R304). -/
  phase : Nat := 0
  /-- A full acquisition; a local re-acquisition otherwise. -/
  full : Bool := true
  /-- Sweep teeth run so far. -/
  teeth : Nat := 0
  /-- Rings this sweep, capture or check still concerns. -/
  rings : List Nat := []
  /-- Identity checks run, and the rings whose final full sweep, as inconclusive ones, has been run (R303). -/
  checks : Nat := 0
  swept : List Nat := []
  /-- Rings found on line j + m, being moved. -/
  moving : List (Nat × Int) := []
  /-- A rescue of rings on a wrong line, or the last sweep, is under way: they are checked again alone. -/
  again : Bool := false
  /-- Rings whose line is still to be confirmed: own-line results still needed, and checks made (R299, R303). -/
  todo : Tbl (Nat × Nat) := []
  /-- Windows of the identity check run so far, when it began, and each ring's correlation with the pilots of lines j − 1, j, j + 1
  (R302). -/
  wins : Nat := 0
  from_ : Nat := 0
  corr : Tbl (Int × Int × Int) := []
  /-- Heater codes at which the rings being swept or moved stop (R301, R304). -/
  goal : Tbl Nat := []
  /-- Of the rings being swept: the last estimate, and the codes at which the error crossed 0 (R301). -/
  lastE : Tbl Int := []
  found : List (Nat × Nat) := []
  deriving DecidableEq, Repr

/-- A test injection (R305, R323). -/
structure Inj where
  ring : Nat
  signal : Nat
  /-- OPEN mode: the law's output frozen at this code. -/
  frozen : Option Nat
  decim : Nat
  sel : Nat
  amp : Int
  f0 : Nat
  f1 : Nat
  durMs : Nat
  /-- Device time at which it began; samples run. -/
  began : Nat
  n : Nat := 0
  /-- Offset applied now. -/
  cur : Int := 0
  /-- The law's last output for the ring, ahead of the offset (R305, R306). -/
  u : Nat := 0
  deriving DecidableEq, Repr

/-- A capture (R306). -/
structure Capture where
  active : Bool := false
  trunc : Bool := false
  first : Nat := 0
  /-- Words taken, oldest first. -/
  samples : List Nat := []
  deriving DecidableEq, Repr

/-- An image staged for the next calibration (R77, R290, R427): its bytes and whom ASYNC_DONE goes to. -/
structure Staged where
  typ : Nat
  index : Nat
  bytes : List Byte
  mbx : Nat
  opcode : Nat
  seq : Nat
  deriving DecidableEq, Repr

/-- A physical tile: what belongs to it and stays with it across roadworks (R73, R275). -/
structure PTile where
  /-- Trim codes applied, by row (R37, R39). -/
  trim : Tbl (List Int) := []
  /-- Levels applied, by row (R279, R280). -/
  lev : Levels := []
  /-- Levels held before, each with the instant it ended, within the present sample window (R279, R280). -/
  trimHist : List (Nat × Levels) := []
  /-- Dither offset of each line's rings in this chip, 1/256 level (R277, R278); none while dither is off. -/
  dith : List Int := []
  /-- Level each input modulator drives outside conversion windows (R299, R302), and level × activity units that the
  windows of this sample window have driven, by line (R293). -/
  mlev : List Nat := []
  mdrv : Tbl Nat := []
  /-- Drive codes last sent to the input modulators, by line (R35, R76). -/
  drv : List Int := []
  /-- Installed curves (R73): points by line, the weight curve at 64; factory data where not listed. -/
  curves : Tbl (List (Int × Int)) := []
  /-- TCAL of the installed curves (R74). -/
  tcals : Tbl Int := []
  /-- Dither suspended since this instant (R90). -/
  quietFrom : Option Nat := none
  /-- A quiet request waits for the next chip boundary (R90). -/
  quietAsk : Bool := false
  /-- A quiet period has ended; dither resumes at the next chip boundary (R298). -/
  quietStop : Bool := false
  /-- Dither last resumed at this instant (R92). -/
  quietEnd : Option Nat := none
  /-- Activity of the last chip and so far in this chip, and what windows already open will add to the
  next; in units of 1/15,625 Tc, so that a chip is 24,000,000 (R372). -/
  actPrev : Nat := 0
  actNow : Nat := 0
  actNext : Nat := 0
  /-- Ballast activity run so far (R372). -/
  ballast : Nat := 0
  /-- Activity of the present and of the last sample window (R286, R287); of the one before, for patch 63 (R285). -/
  winAct : Nat := 0
  duty : Nat := 0
  dutyOld : Nat := 0
  /-- The tile runs in legacy table mode (LOCK_STATUS.MODE_ACT, R307). -/
  legacy : Bool := false
  lock : LockState := .off
  acq : Acq := {}
  /-- Device time at which the present lock state began. -/
  since : Nat := 0
  /-- The lock state FAULTED has been reached: the tile is out of the map until ACQUIRE or reset (R464). -/
  gone : Bool := false
  /-- Heater codes by ring. -/
  htr : Tbl Nat := []
  /-- MBIAS codes by line, 0 where not listed (R312, R315). -/
  mbias : Tbl Int := []
  /-- Set-points in use while a soft-start ramps, in 1/16 code; set-points of R286 where not listed (R292). -/
  h0 : Tbl Int := []
  ramping : Bool := false
  /-- Warm-up: the activity its ballast conversions are to reach, in units of a chip (R292, R353). -/
  warm : Option Nat := none
  /-- Lock mode that takes effect at the end of its next calibration: legacy or native (R308). -/
  modeNext : Option Bool := none
  /-- The heaters move to their park codes on the way to a safe point (R358). -/
  parking : Bool := false
  /-- x̄ (72 elements) and b (64 elements) of each patch (R283). -/
  xbar : Tbl (List Int) := []
  xhat : Tbl (List Int) := []
  bump : Tbl (List Int) := []
  /-- Error estimates of the latest window, of the rings that have one (R279, R281). -/
  err : Tbl Int := []
  /-- End of the window they belong to, and the estimates of the window before, which patch 63 may still use (R285). -/
  errAt : Nat := 0
  errOld : Tbl Int := []
  /-- Rows whose mean monitor signal deviated by more than QLIM in the window whose estimates are not ready yet
  (R298). -/
  qtrip : List Nat := []
  /-- Estimates of a window that are not ready yet: the window's end, and the lines that were dark (R281). -/
  est : Option (Nat × Tbl Int × List Nat) := none
  /-- Modulator rings: integral part of the law (R293). -/
  modInt : Tbl Int := []
  /-- Consecutive estimates beyond LIMIT, and samples clamped, by ring (R294). -/
  beyonds : Tbl Nat := []
  clamped : Tbl Nat := []
  /-- Consecutive missed samples by patch, modulator rings at 64 + line (R291, R293). -/
  miss : Tbl Nat := []
  /-- Number of the chip in whose slot each patch last ran or missed, plus 1; modulator rings at 64 + line (R285). -/
  ran : Tbl Nat := []
  /-- Lines dark, with the instant each became so (R294). -/
  darkFrom : Tbl Nat := []
  /-- End of the last window in which every ring had an estimate within LIMIT (R295). -/
  lastGood : Nat := 0
  /-- Instants of its lock losses, newest first (R296). -/
  losses : List Nat := []
  /-- The last loss: cause, row, line, MOD, last good instant (LOCK_LAST). -/
  lastLoss : Option (Nat × Nat × Nat × Nat × Nat) := none
  /-- Gain set in use, its band values TB, PB, AB, and patches that have not sampled under it yet (R287–R289). -/
  gset : Nat := 0
  bands : Nat × Nat × Nat := (0, 0, 0)
  gnew : List Nat := []
  /-- The set before the last window boundary, and that boundary: patch 63 of the sample then running uses it, and it
  meets a new set one window later than the others (R285, R289). -/
  gsetOld : Nat := 0
  winAt : Nat := 0
  gnewLast : Bool := false
  /-- Installed gain-set images by index; factory sets where not listed (R290). -/
  gains : Tbl (List Byte) := []
  staged : List Staged := []
  /-- Calibration results; the factory record where not listed (R355). -/
  cal : Tbl Int := []
  /-- Tile temperature at the last refresh, 1/16 °C (R286, R363). -/
  temp : Option Int := none
  /-- Installed legacy table: code of ring r at temperature k at 16 r + k (R427). -/
  ltab : Tbl Nat := []
  /-- Coefficient word that failed, and the instant of its last rewrite (R461). -/
  coefBad : Option Nat := none
  coefAt : Option Nat := none
  /-- Lock configuration in force since the last window boundary: LOCK_CFG, FE, SS, TBANDA, TBANDB, PABAND as
  0–5; reset values where not listed (R275). -/
  cfg : Tbl Nat := []
  /-- Gain set that takes effect at the next window boundary (R289). -/
  gnext : Option Nat := none
  /-- LOCK_STATUS.DLMISS (R291). -/
  dlmiss : Bool := false
  /-- A legacy tile's recalibration burst: windows left, and the sum and number of each ring's errors so far; the instant the last
  one began (R308). -/
  burst : Option (Nat × Tbl (Int × Nat)) := none
  burstAt : Nat := 0
  inj : Option Inj := none
  cap : Capture := {}
  deriving DecidableEq, Repr
/-! ### Converters (chapter 11) -/

/-- A monitor ADC (R326–R330). -/
structure Madc where
  /-- 0 stopped, 1 regular, 2 injected. -/
  st : Nat := 0
  entry : Nat := 0
  /-- Cause bits of the injected run in progress, and of the pending one (R329). -/
  cause : Nat := 0
  pend : Option Nat := none
  /-- Regular entry to go back to after the injected run, which aborted it. -/
  back : Option Nat := none
  /-- The regular entry in progress restarted after an abort. -/
  restart : Bool := false
  /-- The round is complete and the next waits for its period (R327). -/
  waiting : Bool := false
  /-- The start of the next round has come while this one runs (R327). -/
  due : Bool := false
  /-- Start of the entry in progress in 1/100 Tc, which also gives the phase of the converter clock (R326, R329); number of the
  last round period (R327). -/
  start : Nat := 0
  round : Nat := 0
  /-- The spare tile that inputs 59–62 follow while this entry is under way (R331). -/
  tile : Nat := 0xFF
  deriving DecidableEq, Repr

/-- An auxiliary channel or the heater injection queue (R319–R323). -/
structure Aux where
  queue : List Nat := []
  /-- The waveform has produced its first code since RUN was set. -/
  begun : Bool := false
  rising : Bool := true
  lfsr : Nat := 1
  /-- The present run of empty instants has been logged (R321). -/
  empty : Bool := false
  /-- Mailbox that started it. -/
  mbx : Nat := 0
  /-- Device time of the last sample instant it took, or of RUN (R319). -/
  sampled : Nat := 0
  /-- A forward step of device time calls for an update (R319). -/
  stepped : Bool := false
  /-- PERIOD in force until the next sample instant (R322). -/
  period : Nat := 49152
  deriving DecidableEq, Repr
/-! ### Light and roadworks (chapter 12) -/

/-- Comb states (R338). -/
inductive CombState where
  | off | standby | aligning | aligned | inUse | degraded | failed
  deriving DecidableEq, Repr

/-- A comb laser. -/
structure Comb where
  st : CombState := .off
  /-- Powered, with its TEC settling (R339). -/
  powered : Bool := false
  /-- The CP wants it brought to ALIGNED. -/
  want : Bool := false
  /-- Stored equaliser settings by line, 0.01 dB (R336, R343). -/
  eq : Tbl Nat := []
  deriving DecidableEq, Repr

/-- A detour gap (R343, R346). -/
structure Gap where
  t0 : Nat
  forced : Bool
  /-- Scheduled close; a forced gap without aligned light has none. -/
  close : Option Nat
  /-- The switch to the spare comb has been commanded. -/
  switched : Bool
  /-- Origin of the table of R343: the gap's opening, or the instant a waiting forced gap found its comb aligned. -/
  origin : Nat := 0
  verified : Bool := false
  /-- Start of the dark interval of a forced gap (R347). -/
  dark : Nat := 0
  deriving DecidableEq, Repr

/-- A stack's light (R336–R349). -/
structure StackSt where
  active : Nat := 0
  combA : Comb := {}
  combB : Comb := {}
  /-- 0 none, 1 warned, 2 armed, 3 forced. -/
  level : Nat := 0
  /-- Consecutive rounds at or beyond each threshold. -/
  warnN : Nat := 0
  schedN : Nat := 0
  forceN : Nat := 0
  /-- Since when every line has stood above the clear value of the warning. -/
  clearFrom : Option Nat := none
  armedAt : Nat := 0
  /-- A scheduled detour failed: the scheduled level stands, but no detour is armed (R344). -/
  disarmed : Bool := false
  waited : Bool := false
  gap : Option Gap := none
  /-- The last gap closed at this instant (R281). -/
  gapEnd : Option Nat := none
  /-- Line powers of the last rounds, 0.01 dB relative to commissioning. -/
  lines : Tbl Int := []
  /-- Start of the last round in which every line lay above −FORCE (R347). -/
  lastFair : Nat := 0
  /-- The stack has no usable light (R462). -/
  dark : Bool := false
  /-- Commissioning line powers of combs A and B (R337), non-volatile: comb · 64 + line to 0.01 dBm. -/
  commission : Tbl Int := []
  deriving DecidableEq, Repr

/-- A roadworks switch or takeover in progress (R24, R119). -/
structure Swap where
  lt : Nat
  old : Nat
  new : Nat
  takeover : Bool
  /-- The firing's instant, and when the switch began. -/
  inst : Nat := 0
  began : Nat := 0
  /-- The spare is loading: the drain has ended. -/
  loading : Bool := false
  /-- The map has been updated. -/
  updated : Bool := false
  /-- Instant of the last of these two steps (R119). -/
  stepAt : Nat := 0
  deriving DecidableEq, Repr

/-- A region's roadworks (R350–R357) and converters. -/
structure Region where
  /-- The region has been ready since the last reset: its engines have left OFF (R444). -/
  up : Bool := false
  /-- Next logical tile, as offset from T(16·rg). -/
  next : Nat := 0
  /-- NEXT found no logical tile to name when it last stepped (R352). -/
  noNext : Bool := false
  /-- Physical tile under calibration, and the step it is in (R355). -/
  cal : Option Nat := none
  step : Nat := 0
  /-- The firing that opened the window it is calibrated in (R355, R430). -/
  calInst : Nat := 0
  /-- What the steps run so far have measured: calibration values and curves (R355). -/
  results : Tbl Int := []
  curves : Tbl (List (Int × Int)) := []
  /-- The window the last switch opened ends here. -/
  winEnd : Nat := 0
  /-- The spare is being prepared, or is prepared, for this logical tile (R353). -/
  preparing : Bool := false
  ready : Bool := false
  /-- The logical tile the spare is prepared for, and the last duty of logical tiles that wait for it (R24, R353). -/
  prep : Option Nat := none
  lastDuty : Tbl Nat := []
  /-- DEV_RDWK_CFG and DEV_RDWK_WIN in force; a write takes effect at the next firing (R360). -/
  cfg : Option (Nat × Nat) := none
  swap : Option Swap := none
  /-- Lock configuration of the spare (R275), by the numbers of PTile.cfg. -/
  spareLock : Tbl Nat := []
  /-- A firing waits for the detour gap to close (R349): its instant, and its window's length. -/
  held : Option (Nat × Nat) := none
  /-- Instant of the last internal firing (R350). -/
  fired : Nat := 0
  /-- The heater injection queue is bound to this ring of this physical tile (R323). -/
  hinj : Option (Nat × Nat) := none
  madc : Tbl Madc := []
  aux : Tbl Aux := []
  /-- Records that wait to leave the region (R333), oldest first, and WIDX. -/
  records : List (List Byte) := []
  widx : Nat := 0
  deriving DecidableEq, Repr

/-! ### Heat (chapter 13) -/

/-- A temperature sensor (R362–R368); readings in 1/16 °C. -/
structure Sensor where
  temp : Int := 0
  warn : Bool := false
  throt : Bool := false
  shut : Bool := false
  /-- Consecutive samples at or above the shutdown value. -/
  shutN : Nat := 0
  cold : Bool := false
  fault : Bool := false
  /-- Since when the reading has been identical, and its group's readings then (R364). -/
  sameFrom : Nat := 0
  groupThen : List Int := []
  deriving DecidableEq, Repr

/-- A throttle source (R370): stacks 0–3, hub 4, LSAs 5 + s, DRAM pairs 9 + p. -/
structure ThSource where
  /-- Start of the present ESC or REL interval, and its sensors' readings then. -/
  from_ : Nat := 0
  readings : List Int := []
  /-- Sensors that a sample of the interval has found below their throttle set value. -/
  below : List Nat := []
  /-- Every sensor has cleared. -/
  cleared : Bool := true
  deriving DecidableEq, Repr

/-- The thermal supervisor (R362–R376). -/
structure Thermal where
  /-- Throttle step of each source (R370). -/
  steps : Tbl Nat := []
  srcs : Tbl ThSource := []
  sensors : Tbl Sensor := []
  /-- Groups sampling at 20 kHz, with the instant since which every reading has lain low enough (R365). -/
  fast : Tbl Nat := []
  /-- Always-on time of the last trip while the device is held by it (R374, R375). -/
  tripped : Option Nat := none
  /-- Trips in the present window, newest first, in always-on Tc; total, last sensor, latch (R376). -/
  trips : List Nat := []
  total : Nat := 0
  lastSens : Nat := 0
  latched : Bool := false
  /-- Number of the dither chip that began last (R276, R488). -/
  chip : Option Nat := none
  /-- THM_CFG and THM_SLEWrg as the last sample found them: a write takes effect at the next sample (chapter 13). -/
  intervals : Nat := 0x0A0A
  budgets : Tbl Nat := []
  deriving DecidableEq, Repr
/-! ### Fronthaul ports, modules and the host port (chapter 14) -/

/-- PRT_FHp_STATUS.STATE. -/
inductive FhState where
  | off | training | upGated | up | shutdown | shutdownRestart
  deriving DecidableEq, Repr

/-- A fronthaul port. -/
structure FhPort where
  st : FhState := .off
  /-- Enabled: EN_A or EN_B of its quad. -/
  en : Bool := false
  link : Bool := false
  lastDrop : Nat := 0
  /-- Device time at which the last frame and its gap end (R395). -/
  busyTo : Nat := 0
  deriving DecidableEq, Repr

/-- A frame read from a pass buffer and not yet sent (R393–R395). -/
structure OutFrame where
  /-- Tollgate 53 has admitted it (R395). -/
  granted : Bool := false
  ctx : Nat
  send : Nat
  port : Nat
  dropLate : Bool
  data : List Byte
  deriving DecidableEq, Repr

/-- A module bus (R405–R407). -/
structure ModBus where
  /-- PRT_MB_STATUS code: 0 ABSENT, 1 INIT, 2 READY, 3 FAULT, 4 NOAPP. -/
  st : Nat := 0
  /-- Polling is suspended for a CDB command until this instant (R407). -/
  cdbTo : Option Nat := none
  /-- The identifier byte read, which tells CMIS from SFF-8636, and the rates in Gb/s the module advertises (R405, R406). -/
  ident : Nat := 0
  rates : List Nat := []
  /-- The levels driven on RESET_N and LPMODE (R405). -/
  resetN : Bool := true
  lpMode : Bool := false
  deriving DecidableEq, Repr

/-- The ports. -/
structure Ports where
  fh : Tbl FhPort := []
  /-- Flow table entries as 16-byte numbers, and the last sequence byte each matched (R388, R389). -/
  flows : Tbl Nat := []
  lastSeq : Tbl Nat := []
  /-- Exception ring: size, base, address of the write index; none while off (R392). -/
  exc : Option (Nat × Nat × Nat) := none
  excIdx : Nat := 0
  outq : List OutFrame := []
  /-- TLPs that wait for a grant of Tollgate 52, oldest first, each with its requester (R256, R257). -/
  tlps : List (Nat × Output) := []
  mods : Tbl ModBus := []
  /-- The host link has trained: rate in GT/s and width (R379). -/
  host : Option (Nat × Nat) := none
  /-- VFs enabled (R381). -/
  vfs : Bool := false
  deriving DecidableEq, Repr

/-! ### The control processor, boot and life cycle (chapters 15 and 16) -/

/-- Resources of a function (R412, FN_ASSIGN). -/
structure FnRes where
  bar2log : Nat := 0xFF
  msFirst : Nat := 0
  msCount : Nat := 0
  engmask : Nat := 0
  fhmask : Nat := 0
  dramBase : Nat := 0
  deriving DecidableEq, Repr

/-- A command the CP has taken and not answered (R416). -/
structure Cmd where
  mbx : Nat
  v1 : Bool
  opcode : Nat
  async : Bool
  seq : Nat
  hostts : Nat
  payload : List Byte
  deriving DecidableEq, Repr

/-- Work of an async command under way (R424). -/
structure Job where
  opcode : Nat
  mbx : Nat
  v1 : Bool
  seq : Nat
  hostts : Nat
  /-- The mailbox is held BUSY until the work ends. -/
  held : Bool
  payload : List Byte
  /-- Number of the job; of a COPY with a peer: its transfers that are not complete, whether they read, what they have
  brought by offset, and whether one has failed (R29, R400). -/
  num : Nat := 0
  left : Nat := 0
  reads : Bool := false
  parts : List (Nat × List Byte) := []
  bad : Bool := false
  deriving DecidableEq, Repr

/-- The reset types, in DEV_RST_CAUSE.LAST order (R439). -/
inductive ResetType where
  | cold | perst | warm | warmLog | cpWdog | thermal | lifeCycle
  deriving DecidableEq, Repr

/-- The CP and the device's life cycle. -/
structure Cp where
  /-- Rails and clocks are good and PWRGD is asserted; the domains outside the always-on one run. -/
  powered : Bool := true
  /-- PWRGD as the device takes it: false from its fall, or from a rail loss, to its next rise. -/
  pwrgd : Bool := true
  /-- PERST_N is held low. -/
  perst : Bool := false
  ready : Bool := false
  dramReady : Bool := false
  /-- Region readiness bits (R444), device ready, DEGRADED, STANDALONE. -/
  regions : Nat := 0
  device : Bool := false
  degraded : Bool := false
  standalone : Bool := false
  rstCause : Nat := 0
  warms : Nat := 0
  straps : Nat := 0
  lcState : Nat := 0
  lcCount : Nat := 0
  returns : Nat := 0
  svn : Nat := 0
  uid : Nat := 0
  /-- Persistent key slots: 48-byte digests (R451, R454). -/
  keys : Tbl (List Byte) := []
  /-- The volatile key slots, which every reset wipes (R440); nothing the manual describes writes one. -/
  vkeys : Tbl (List Byte) := []
  /-- Power-up records of AUX channels, valid where listed: span and code by 8 · region + channel (R318). -/
  auxRec : Tbl (Nat × Nat) := []
  /-- SPI flash contents (R449), 0 where not listed, and what the boot record holds. -/
  flash : List Host.Cell := []
  bootSel : Nat := 0
  fails : Tbl Nat := []
  slot : Nat := 0
  fallback : Bool := false
  recovery : Bool := false
  cur : Option Cmd := none
  lastServed : Nat := 6
  jobs : List Job := []
  nextJob : Nat := 0
  /-- A reset ordered for this device time (R441, R455). -/
  resetAt : Option (Nat × ResetType) := none
  /-- GRANT_DIRECT windows by number: offset, length (R434). -/
  windows : Tbl (Nat × Nat) := []
  fns : Tbl FnRes := []
  /-- Window offset set over SMBus (R418). -/
  smbusOfs : Nat := 0
  /-- The first access before DRAM was ready has been logged (R443). -/
  earlyLogged : Bool := false
  /-- Tollgates a test or a recovery procedure holds in QUOTA (R264). -/
  tgTest : Nat := 0
  /-- Pins driven: ALERT_N and THERMTRIP_N asserted, PPS_OUT high. -/
  alert : Bool := false
  therm : Bool := false
  ppsOut : Bool := false
  /-- CLK10M_IN within ±10 ppm and other reference clocks present (R408, R475): bit per clock of R475. -/
  clocks : Nat := 0x1F
  deriving DecidableEq, Repr
/-! ### The device -/

/-- Everything the device holds but its queue of commands. -/
structure Dev where
  /-- Device time, Tc (R225). -/
  time : Nat := 0
  /-- Tc since VDD_IO became valid, in the always-on domain (R376). -/
  aon : Nat := 0
  /-- Registers that keep what is written or counted: BAR0 offset to value, where it differs from reset. -/
  regs : Tbl Word := []
  /-- Holding registers of R9: (requester, offset of the _HI half, half held) for reads and for writes. -/
  holdR : List (Nat × Nat × Nat) := []
  holdW : List (Nat × Nat × Nat) := []
  /-- Device memory (R26) in canonical form, and the changes of the command in progress, newest first. -/
  mem : List Host.Cell := []
  wr : List MemOp := []
  log : ErrLog := {}
  mbx : Tbl Mailbox := []
  out : List Output := []
  /-- The model's own counter behind values the manual leaves open (log entry 10). -/
  freeCtr : Nat := 0
  tl : Timeline := {}
  ms : Milestones := {}
  /-- Tile map, where it differs from reset: logical tile to physical tile, 0xFF unbound (R25). -/
  tmap : Tbl Nat := []
  /-- Spare of each region where it differs from 128 + rg; 0xFF none. -/
  spares : Tbl Nat := []
  tmapGen : Nat := 0
  /-- DEVNUM once set (R29). -/
  devnum : Option Nat := none
  engs : Tbl Engine := []
  ptiles : Tbl PTile := []
  /-- Residency table entries (R187). -/
  res : Tbl (BitVec 256) := []
  nextPlace : Nat := 0
  str : Streams := {}
  peers : Peers := {}
  tgs : Tbl Tollgate := []
  /-- Requesters whose class is pinned (R258). -/
  pinned : List Nat := []
  /-- The patrol scrubber is lifted (R265). -/
  scrubLift : Bool := false
  stks : Tbl StackSt := []
  rgs : Tbl Region := []
  th : Thermal := {}
  ports : Ports := {}
  cp : Cp := {}
  deriving DecidableEq, Repr

/-- No command ends in a fault: the manual gives every command an effect or a response. -/
inductive Fault where
  deriving DecidableEq, Repr

/-- Why a command is turned away. -/
inductive Refusal where
  /-- A command without a meaning yet; raised by its arm of `exec` alone. Safe: the machine stops. -/
  | notModelled (mnemonic : String)
  deriving DecidableEq, Repr

/-- The machine: the device and the commands waiting, first in, first out. -/
structure State where
  pending : List Instr := []
  dev : Dev := {}
  deriving DecidableEq, Repr

/-- The flash as delivered: slot A holds an image header with a valid MAGIC and nothing else (log entry 6). -/
def resetFlash : List Host.Cell := [(0x10000, 0x46#8), (0x10001, 0x5A#8), (0x10002, 0x55#8), (0x10003, 0x38#8)]

/-- The log right after a cold reset: RESET, and the boot without a signature check (R458, R451). -/
def resetLog : ErrLog :=
  { entries := [{ source := 0x6000, code := 0x0009, seq := 1, data := List.replicate 16 0#8 },
                { code := 0x0001, data := List.replicate 4 0#8 ++ List.replicate 3 0xFF#8 ++ List.replicate 9 0#8 }]
    written := 2, cntInfo := 2 }

/-- The machine right after a cold reset of a device as delivered, with every strap low (log entries 4–6). -/
def State.reset : State := { dev := { log := resetLog, cp := { flash := resetFlash, fails := [(0, 1)] } } }

end Sys2Proof.Machine
end

