-- ==== Sys2Proof/Machine/Regs.lean ====
section
/-!
DEFINITION. The register maps of BAR0 (R5–R10) as one table, and the store of what registers keep.
-/
namespace Sys2Proof.Machine

/-- The registers of BAR0, named as the manual names them; indices (engine, tile, region, …) stand apart. -/
inductive RegName where
  | DEV_RST_CAUSE | DEV_STRAPS | DEV_LC | DEV_BOOT | DEV_READY | DEV_UID_LO | DEV_UID_HI | DEV_TMAP
  | DEV_SPARE | DEV_TMAP_GEN | DEV_SYS_ID | DEV_SKIPTHR | MBX_DOORBELL | MBX_STATUS | MBX_CFG
  | MBX_INT_STAT | MBX_INT_EN | MBX_EVQ_PROD | MBX_EVQ_CONS | MBX_EVQ_LOST | MBX_BUF | MBX_EVWIN
  | TL_TIME_LO | TL_TIME_HI | TL_CFG | TL_STATUS | TL_OFFSET | TL_CT_CFG | TL_CT_OFS_LO
  | TL_CT_OFS_HI | TL_CT_POS | MS_STATUS | MS_GEN | MS_EFFECT_LO | MS_EFFECT_HI | MS_CNT_SLIP
  | TL_CNT_LATE | TL_CNT_LLIST | TL_SNAP_TS_LO | TL_SNAP_TS_HI | TL_SNAP_POS | TL_SNAP_TMAP
  | THM_CFG | THM_STEP | THM_TRIP | THM_COLD | THM_WARN | THM_THROT | THM_SHUT | THM_CNT_THROT
  | THM_CNT_SLEWWAIT | THM_SLEW | THM_SENS | TG_CLSCFG | TG_REQCLS | TG_CFG | TG_CTRL | TG_LOCKWD
  | TG_STATUS | TG_CNT_GRANT | TG_CNT_FULL | TG_CNT_NTH | TG_CNT_MASK | TG_CNT_LIFT
  | TG_CNT_LOCKABORT | TG_MAXWAIT | STRM_CFG | STRM_SPILL_LO | STRM_SPILL_HI | STRM_SCRUB
  | STRM_POOL | STRM_CNT_CE | STRM_CNT_UE | STRM_CNT_SPILL | STRM_CNT_GAP | STRM_CTX_STAT
  | STRM_CTX_PROG_LO | STRM_CTX_PROG_HI | ENG_CFG | ENG_STATUS | ENG_PC_LO | ENG_PC_HI | ENG_SEQ
  | ENG_ACC | ENG_CNT_TW | ENG_CNT_BANKCONF | ENG_CNT_TILEWAIT | ENG_CNT_SWAPWAIT
  | ENG_CNT_FALLBACK | ENG_CNT_RANGEFIX | ENG_CNT_OUTSAT | ENG_CNT_QUIETDENY | ENG_CNT_SKIP
  | TILE_CFG | TILE_STATUS | TILE_GAIN | TILE_CNT_CONV_LO | TILE_CNT_CONV_HI | TILE_CNT_SAT
  | TILE_CNT_RERUN | TILE_CNT_SPLIT | TILE_CNT_CLAMP | TILE_CNT_RELOAD | TILE_LAST_SAT
  | TILE_LAST_SAT_TS_LO | TILE_LAST_SAT_TS_HI | TILE_TRIM_ADDR | TILE_TRIM_DATA | TILE_OFS
  | LOCK_CFG | LOCK_STATUS | LOCK_FE | LOCK_SS | LOCK_TBANDA | LOCK_TBANDB | LOCK_PABAND
  | LOCK_CNT_DLMISS | LOCK_CNT_LOST | LOCK_CNT_WRONG | LOCK_CNT_GSW | LOCK_CNT_QEND | LOCK_LAST
  | LOCK_LAST_GOOD_LO | LOCK_LAST_GOOD_HI | LOCK_RING_ADDR | LOCK_RING_DATA | LOCK_TEST
  | LSA_STATUS | LSA_THR | LSA_WORST | LSA_CNT | MADC_CFG | MADC_RING_LO | MADC_RING_HI
  | MADC_RING_WIDX | MADC_CNT_LOST | MADC_C_CFG | MADC_C_RPER | MADC_C_STATUS | MADC_C_CNT_ABORT
  | MADC_C_CNT_MERGE | MADC_C_CNT_OVERRUN | MADC_C_REG | MADC_C_INJ | MADC_C_RES | MADC_C_IRES
  | DAC_AUX_CFG | DAC_AUX_CODE | DAC_AUX_PERIOD | DAC_AUX_LIM | DAC_AUX_STEP | DAC_AUX_SEED
  | DAC_AUX_QDATA | DAC_AUX_STATUS | DAC_RDADDR | DAC_RDDATA | DEV_RDWK_CFG | DEV_RDWK_WIN
  | DEV_RDWK_STATUS | DEV_RDWK_CNT | PRT_FH_QCFG | PRT_FH_STATUS | PRT_FH_CNT_RX | PRT_FH_CNT_DROP
  | PRT_FH_CNT_WIN | PRT_FH_CNT_TXLATE | PRT_PEER_CFG | PRT_PEER_STATUS | PRT_PEER_TOFS
  | PRT_PEER_TDLY | PRT_PEER_CNT_REPLAY | PRT_TIMING_CFG | PRT_MB_STATUS | LOG_E | LOG_HEAD
  | LOG_CNT
  deriving DecidableEq

/-- A row of the register maps: where the register lies for each of up to three indices (count, stride),
its reset value, and which of its bits are RW, RC, W1C and WO; every other defined bit is RO (R7). -/
structure RegRow where
  base : Nat
  dims : List (Nat × Nat)
  reset : Nat
  rw : Nat
  rc : Nat
  w1c : Nat
  wo : Nat
  /-- 1 a _LO half, 2 a _HI half of a 64-bit quantity (R9). -/
  half : Nat
  deriving DecidableEq, Repr

/-- The register maps of chapters 1, 2, 4 and 6 to 17. -/
def RegName.row : RegName → RegRow
  | .DEV_RST_CAUSE => ⟨0, [], 0, 0, 0, 0, 0, 0⟩
  | .DEV_STRAPS => ⟨4, [], 0, 0, 0, 0, 0, 0⟩
  | .DEV_LC => ⟨8, [], 0, 0, 0, 0, 0, 0⟩
  | .DEV_BOOT => ⟨0xC, [], 0, 0, 0, 0, 0, 0⟩
  | .DEV_READY => ⟨0x10, [], 0, 0, 0, 0, 0, 0⟩
  | .DEV_UID_LO => ⟨0x18, [], 0, 0, 0, 0, 0, 1⟩
  | .DEV_UID_HI => ⟨0x1C, [], 0, 0, 0, 0, 0, 2⟩
  | .DEV_TMAP => ⟨0x100, [(32, 4)], 0, 0, 0, 0, 0, 0⟩
  | .DEV_SPARE => ⟨0x180, [(2, 4)], 0, 0, 0, 0, 0, 0⟩
  | .DEV_TMAP_GEN => ⟨0x188, [], 0, 0, 0, 0, 0, 0⟩
  | .DEV_SYS_ID => ⟨0x18C, [], 0, 0, 0, 0, 0, 0⟩
  | .DEV_SKIPTHR => ⟨0x200, [(32, 4)], 0, 0xFFFF, 0, 0, 0, 0⟩
  | .MBX_DOORBELL => ⟨0x11000, [(8, 0x2000)], 0, 0, 0, 0, 1, 0⟩
  | .MBX_STATUS => ⟨0x11004, [(8, 0x2000)], 0, 0, 0, 0, 0, 0⟩
  | .MBX_CFG => ⟨0x11008, [(8, 0x2000)], 2, 3, 0, 0, 0, 0⟩
  | .MBX_INT_STAT => ⟨0x1100C, [(8, 0x2000)], 0, 0, 0, 0x1F, 0, 0⟩
  | .MBX_INT_EN => ⟨0x11010, [(8, 0x2000)], 0, 0x1F, 0, 0, 0, 0⟩
  | .MBX_EVQ_PROD => ⟨0x11014, [(8, 0x2000)], 0, 0, 0, 0, 0, 0⟩
  | .MBX_EVQ_CONS => ⟨0x11018, [(8, 0x2000)], 0, 0xFFFFFFFF, 0, 0, 0, 0⟩
  | .MBX_EVQ_LOST => ⟨0x1101C, [(8, 0x2000)], 0, 0, 0xFFFFFFFF, 0, 0, 0⟩
  | .MBX_BUF => ⟨0x10000, [(8, 0x2000), (1024, 4)], 0, 0, 0, 0, 0, 0⟩
  | .MBX_EVWIN => ⟨0x11400, [(8, 0x2000), (32, 0x20), (8, 4)], 0, 0, 0, 0, 0, 0⟩
  | .TL_TIME_LO => ⟨0x20000, [], 0, 0, 0, 0, 0, 1⟩
  | .TL_TIME_HI => ⟨0x20004, [], 0, 0, 0, 0, 0, 2⟩
  | .TL_CFG => ⟨0x20008, [], 0x13000, 0xFFFF33F3, 0, 0, 0, 0⟩
  | .TL_STATUS => ⟨0x2000C, [], 0, 0, 0, 0x10, 0, 0⟩
  | .TL_OFFSET => ⟨0x20010, [], 0, 0, 0, 0, 0, 0⟩
  | .TL_CT_CFG => ⟨0x20040, [(8, 0x10)], 0x10, 0x73, 0, 0, 0, 0⟩
  | .TL_CT_OFS_LO => ⟨0x20044, [(8, 0x10)], 0, 0xFFFFFFFF, 0, 0, 0, 1⟩
  | .TL_CT_OFS_HI => ⟨0x20048, [(8, 0x10)], 0, 0xFFFFFFFF, 0, 0, 0, 2⟩
  | .TL_CT_POS => ⟨0x2004C, [(8, 0x10)], 0, 0, 0, 0, 0, 0⟩
  | .MS_STATUS => ⟨0x20100, [], 0, 0, 0, 0, 0, 0⟩
  | .MS_GEN => ⟨0x20104, [], 0, 0, 0, 0, 0, 0⟩
  | .MS_EFFECT_LO => ⟨0x20108, [], 0, 0, 0, 0, 0, 1⟩
  | .MS_EFFECT_HI => ⟨0x2010C, [], 0, 0, 0, 0, 0, 2⟩
  | .MS_CNT_SLIP => ⟨0x20110, [], 0, 0, 0xFFFFFFFF, 0, 0, 0⟩
  | .TL_CNT_LATE => ⟨0x20200, [(32, 4)], 0, 0, 0xFFFFFFFF, 0, 0, 0⟩
  | .TL_CNT_LLIST => ⟨0x20280, [(32, 4)], 0, 0, 0xFFFFFFFF, 0, 0, 0⟩
  | .TL_SNAP_TS_LO => ⟨0x20300, [(4, 0x10)], 0, 0, 0, 0, 0, 1⟩
  | .TL_SNAP_TS_HI => ⟨0x20304, [(4, 0x10)], 0, 0, 0, 0, 0, 2⟩
  | .TL_SNAP_POS => ⟨0x20308, [(4, 0x10)], 0, 0, 0, 0, 0, 0⟩
  | .TL_SNAP_TMAP => ⟨0x2030C, [(4, 0x10)], 0, 0, 0, 0, 0, 0⟩
  | .THM_CFG => ⟨0x30000, [], 0xA0A, 0xFFFF, 0, 0, 0, 0⟩
  | .THM_STEP => ⟨0x30004, [], 0, 0, 0, 0, 0, 0⟩
  | .THM_TRIP => ⟨0x30008, [], 0, 0, 0, 0, 0, 0⟩
  | .THM_COLD => ⟨0x3000C, [], 0, 0, 0, 0, 0, 0⟩
  | .THM_WARN => ⟨0x30040, [(4, 0x10)], 0, 0xFFFFFFFF, 0, 0, 0, 0⟩
  | .THM_THROT => ⟨0x30044, [(4, 0x10)], 0, 0xFFFFFFFF, 0, 0, 0, 0⟩
  | .THM_SHUT => ⟨0x30048, [(4, 0x10)], 0, 0, 0, 0, 0, 0⟩
  | .THM_CNT_THROT => ⟨0x30280, [], 0, 0, 0xFFFFFFFF, 0, 0, 0⟩
  | .THM_CNT_SLEWWAIT => ⟨0x30284, [], 0, 0, 0xFFFFFFFF, 0, 0, 0⟩
  | .THM_SLEW => ⟨0x30080, [(8, 4)], 0x80000A0A, 0x8000FFFF, 0, 0, 0, 0⟩
  | .THM_SENS => ⟨0x30100, [(96, 4)], 0, 0, 0, 0, 0, 0⟩
  | .TG_CLSCFG => ⟨0x40000, [], 0x320003E8, 0xFF00FFFF, 0, 0, 0, 0⟩
  | .TG_REQCLS => ⟨0x40100, [(24, 4)], 0, 0xFFFFFFFF, 0, 0, 0, 0⟩
  | .TG_CFG => ⟨0x41000, [(54, 0x1000)], 0x40108001, 0xFFFFF001, 0, 0, 0, 0⟩
  | .TG_CTRL => ⟨0x41004, [(54, 0x1000)], 0, 1, 0, 0, 0, 0⟩
  | .TG_LOCKWD => ⟨0x41008, [(54, 0x1000)], 0x1000, 0xFFFFF, 0, 0, 0, 0⟩
  | .TG_STATUS => ⟨0x4100C, [(54, 0x1000)], 0, 0, 0, 0, 0, 0⟩
  | .TG_CNT_GRANT => ⟨0x41010, [(54, 0x1000)], 0, 0, 0xFFFFFFFF, 0, 0, 0⟩
  | .TG_CNT_FULL => ⟨0x41014, [(54, 0x1000)], 0, 0, 0xFFFFFFFF, 0, 0, 0⟩
  | .TG_CNT_NTH => ⟨0x41018, [(54, 0x1000)], 0, 0, 0xFFFFFFFF, 0, 0, 0⟩
  | .TG_CNT_MASK => ⟨0x4101C, [(54, 0x1000)], 0, 0, 0xFFFFFFFF, 0, 0, 0⟩
  | .TG_CNT_LIFT => ⟨0x41020, [(54, 0x1000)], 0, 0, 0xFFFFFFFF, 0, 0, 0⟩
  | .TG_CNT_LOCKABORT => ⟨0x41024, [(54, 0x1000)], 0, 0, 0xFFFFFFFF, 0, 0, 0⟩
  | .TG_MAXWAIT => ⟨0x41028, [(54, 0x1000)], 0, 0, 0xFFFFFFFF, 0, 0, 0⟩
  | .STRM_CFG => ⟨0x80000, [], 0x100064, 0xFFFFFF, 0, 0, 0, 0⟩
  | .STRM_SPILL_LO => ⟨0x80008, [], 0, 0xFFFFFF00, 0, 0, 0, 1⟩
  | .STRM_SPILL_HI => ⟨0x8000C, [], 0, 0x7F, 0, 0, 0, 2⟩
  | .STRM_SCRUB => ⟨0x80010, [], 0x800001E0, 0x8000FFFF, 0, 0, 0, 0⟩
  | .STRM_POOL => ⟨0x80014, [], 0, 0, 0, 0, 0, 0⟩
  | .STRM_CNT_CE => ⟨0x80020, [], 0, 0, 0xFFFFFFFF, 0, 0, 0⟩
  | .STRM_CNT_UE => ⟨0x80024, [], 0, 0, 0xFFFFFFFF, 0, 0, 0⟩
  | .STRM_CNT_SPILL => ⟨0x80028, [], 0, 0, 0xFFFFFFFF, 0, 0, 0⟩
  | .STRM_CNT_GAP => ⟨0x8002C, [], 0, 0, 0xFFFFFFFF, 0, 0, 0⟩
  | .STRM_CTX_STAT => ⟨0x81000, [(288, 0x10)], 0, 0, 0, 0, 0, 0⟩
  | .STRM_CTX_PROG_LO => ⟨0x81004, [(288, 0x10)], 0, 0, 0, 0, 0, 1⟩
  | .STRM_CTX_PROG_HI => ⟨0x81008, [(288, 0x10)], 0, 0, 0, 0, 0, 2⟩
  | .ENG_CFG => ⟨0x100000, [(32, 0x8000)], 0x14004000, 0xFF01FF00, 0, 0, 0, 0⟩
  | .ENG_STATUS => ⟨0x100004, [(32, 0x8000)], 0, 0, 0, 0, 0, 0⟩
  | .ENG_PC_LO => ⟨0x100008, [(32, 0x8000)], 0, 0, 0, 0, 0, 1⟩
  | .ENG_PC_HI => ⟨0x10000C, [(32, 0x8000)], 0, 0, 0, 0, 0, 2⟩
  | .ENG_SEQ => ⟨0x100010, [(32, 0x8000)], 0, 0, 0, 0, 0, 0⟩
  | .ENG_ACC => ⟨0x100014, [(32, 0x8000)], 0, 0, 0, 0, 0, 0⟩
  | .ENG_CNT_TW => ⟨0x100040, [(32, 0x8000)], 0, 0, 0xFFFFFFFF, 0, 0, 0⟩
  | .ENG_CNT_BANKCONF => ⟨0x100044, [(32, 0x8000)], 0, 0, 0xFFFFFFFF, 0, 0, 0⟩
  | .ENG_CNT_TILEWAIT => ⟨0x100048, [(32, 0x8000)], 0, 0, 0xFFFFFFFF, 0, 0, 0⟩
  | .ENG_CNT_SWAPWAIT => ⟨0x10004C, [(32, 0x8000)], 0, 0, 0xFFFFFFFF, 0, 0, 0⟩
  | .ENG_CNT_FALLBACK => ⟨0x100050, [(32, 0x8000)], 0, 0, 0xFFFFFFFF, 0, 0, 0⟩
  | .ENG_CNT_RANGEFIX => ⟨0x100054, [(32, 0x8000)], 0, 0, 0xFFFFFFFF, 0, 0, 0⟩
  | .ENG_CNT_OUTSAT => ⟨0x100058, [(32, 0x8000)], 0, 0, 0xFFFFFFFF, 0, 0, 0⟩
  | .ENG_CNT_QUIETDENY => ⟨0x10005C, [(32, 0x8000)], 0, 0, 0xFFFFFFFF, 0, 0, 0⟩
  | .ENG_CNT_SKIP => ⟨0x100060, [(32, 0x8000)], 0, 0, 0xFFFFFFFF, 0, 0, 0⟩
  | .TILE_CFG => ⟨0x104000, [(32, 0x8000), (4, 0x1000)], 0x20A10, 0xF0F33, 0, 0, 0, 0⟩
  | .TILE_STATUS => ⟨0x104004, [(32, 0x8000), (4, 0x1000)], 0, 0, 0, 0, 0, 0⟩
  | .TILE_GAIN => ⟨0x104010, [(32, 0x8000), (4, 0x1000), (4, 4)], 0, 0, 0, 0, 0, 0⟩
  | .TILE_CNT_CONV_LO => ⟨0x104020, [(32, 0x8000), (4, 0x1000)], 0, 0, 0, 0, 0, 1⟩
  | .TILE_CNT_CONV_HI => ⟨0x104024, [(32, 0x8000), (4, 0x1000)], 0, 0, 0, 0, 0, 2⟩
  | .TILE_CNT_SAT => ⟨0x104028, [(32, 0x8000), (4, 0x1000)], 0, 0, 0xFFFFFFFF, 0, 0, 0⟩
  | .TILE_CNT_RERUN => ⟨0x10402C, [(32, 0x8000), (4, 0x1000)], 0, 0, 0xFFFFFFFF, 0, 0, 0⟩
  | .TILE_CNT_SPLIT => ⟨0x104030, [(32, 0x8000), (4, 0x1000)], 0, 0, 0xFFFFFFFF, 0, 0, 0⟩
  | .TILE_CNT_CLAMP => ⟨0x104034, [(32, 0x8000), (4, 0x1000)], 0, 0, 0xFFFFFFFF, 0, 0, 0⟩
  | .TILE_CNT_RELOAD => ⟨0x104038, [(32, 0x8000), (4, 0x1000)], 0, 0, 0xFFFFFFFF, 0, 0, 0⟩
  | .TILE_LAST_SAT => ⟨0x10403C, [(32, 0x8000), (4, 0x1000)], 0, 0, 0, 0, 0, 0⟩
  | .TILE_LAST_SAT_TS_LO => ⟨0x104040, [(32, 0x8000), (4, 0x1000)], 0, 0, 0, 0, 0, 1⟩
  | .TILE_LAST_SAT_TS_HI => ⟨0x104044, [(32, 0x8000), (4, 0x1000)], 0, 0, 0, 0, 0, 2⟩
  | .TILE_TRIM_ADDR => ⟨0x104048, [(32, 0x8000), (4, 0x1000)], 0, 0x3FF, 0, 0, 0, 0⟩
  | .TILE_TRIM_DATA => ⟨0x10404C, [(32, 0x8000), (4, 0x1000)], 0, 0, 0, 0, 0, 0⟩
  | .TILE_OFS => ⟨0x104100, [(32, 0x8000), (4, 0x1000), (64, 4)], 0, 0, 0, 0, 0, 0⟩
  | .LOCK_CFG => ⟨0x104800, [(32, 0x8000), (4, 0x1000)], 0x1A000A04, 0x3F1FFFFF, 0, 0, 0, 0⟩
  | .LOCK_STATUS => ⟨0x104804, [(32, 0x8000), (4, 0x1000)], 0, 0, 0, 0x10000, 0, 0⟩
  | .LOCK_FE => ⟨0x104808, [(32, 0x8000), (4, 0x1000)], 0x6003004, 0xFFFFFFFF, 0, 0, 0, 0⟩
  | .LOCK_SS => ⟨0x10480C, [(32, 0x8000), (4, 0x1000)], 0x20000D, 0xFFFFFFFF, 0, 0, 0, 0⟩
  | .LOCK_TBANDA => ⟨0x104810, [(32, 0x8000), (4, 0x1000)], 0x4100370, 0xFFFFFFFF, 0, 0, 0, 0⟩
  | .LOCK_TBANDB => ⟨0x104814, [(32, 0x8000), (4, 0x1000)], 0x1004B0, 0xFFFFFFFF, 0, 0, 0, 0⟩
  | .LOCK_PABAND => ⟨0x104818, [(32, 0x8000), (4, 0x1000)], 0xFFB03228, 0xFFFFFFFF, 0, 0, 0, 0⟩
  | .LOCK_CNT_DLMISS => ⟨0x104820, [(32, 0x8000), (4, 0x1000)], 0, 0, 0xFFFFFFFF, 0, 0, 0⟩
  | .LOCK_CNT_LOST => ⟨0x104824, [(32, 0x8000), (4, 0x1000)], 0, 0, 0xFFFFFFFF, 0, 0, 0⟩
  | .LOCK_CNT_WRONG => ⟨0x104828, [(32, 0x8000), (4, 0x1000)], 0, 0, 0xFFFFFFFF, 0, 0, 0⟩
  | .LOCK_CNT_GSW => ⟨0x10482C, [(32, 0x8000), (4, 0x1000)], 0, 0, 0xFFFFFFFF, 0, 0, 0⟩
  | .LOCK_CNT_QEND => ⟨0x104830, [(32, 0x8000), (4, 0x1000)], 0, 0, 0xFFFFFFFF, 0, 0, 0⟩
  | .LOCK_LAST => ⟨0x104834, [(32, 0x8000), (4, 0x1000)], 0, 0, 0, 0, 0, 0⟩
  | .LOCK_LAST_GOOD_LO => ⟨0x104838, [(32, 0x8000), (4, 0x1000)], 0, 0, 0, 0, 0, 1⟩
  | .LOCK_LAST_GOOD_HI => ⟨0x10483C, [(32, 0x8000), (4, 0x1000)], 0, 0, 0, 0, 0, 2⟩
  | .LOCK_RING_ADDR => ⟨0x104840, [(32, 0x8000), (4, 0x1000)], 0, 0x1FFF, 0, 0, 0, 0⟩
  | .LOCK_RING_DATA => ⟨0x104844, [(32, 0x8000), (4, 0x1000)], 0, 0, 0, 0, 0, 0⟩
  | .LOCK_TEST => ⟨0x104848, [(32, 0x8000), (4, 0x1000)], 0, 0, 0, 0, 0, 0⟩
  | .LSA_STATUS => ⟨0x200000, [(8, 0x10000)], 0, 0, 0, 0, 0, 0⟩
  | .LSA_THR => ⟨0x200004, [(8, 0x10000)], 0x12C25850, 0x3FFFFFFF, 0, 0, 0, 0⟩
  | .LSA_WORST => ⟨0x200008, [(8, 0x10000)], 0, 0, 0, 0, 0, 0⟩
  | .LSA_CNT => ⟨0x20000C, [(8, 0x10000)], 0, 0, 0xFFFFFFFF, 0, 0, 0⟩
  | .MADC_CFG => ⟨0x201000, [(8, 0x10000)], 6, 7, 0, 0, 0, 0⟩
  | .MADC_RING_LO => ⟨0x201004, [(8, 0x10000)], 0, 0xFFFFFF01, 0, 0, 0, 1⟩
  | .MADC_RING_HI => ⟨0x201008, [(8, 0x10000)], 0, 0x7F, 0, 0, 0, 2⟩
  | .MADC_RING_WIDX => ⟨0x20100C, [(8, 0x10000)], 0, 0, 0, 0, 0, 0⟩
  | .MADC_CNT_LOST => ⟨0x201010, [(8, 0x10000)], 0, 0, 0xFFFFFFFF, 0, 0, 0⟩
  | .MADC_C_CFG => ⟨0x201100, [(8, 0x10000), (2, 0x200)], 0, 0x1F0F1F01, 0, 0, 0, 0⟩
  | .MADC_C_RPER => ⟨0x201104, [(8, 0x10000), (2, 0x200)], 0, 0xFFFF, 0, 0, 0, 0⟩
  | .MADC_C_STATUS => ⟨0x201108, [(8, 0x10000), (2, 0x200)], 0, 0, 0, 0, 0, 0⟩
  | .MADC_C_CNT_ABORT => ⟨0x201110, [(8, 0x10000), (2, 0x200)], 0, 0, 0xFFFFFFFF, 0, 0, 0⟩
  | .MADC_C_CNT_MERGE => ⟨0x201114, [(8, 0x10000), (2, 0x200)], 0, 0, 0xFFFFFFFF, 0, 0, 0⟩
  | .MADC_C_CNT_OVERRUN => ⟨0x201118, [(8, 0x10000), (2, 0x200)], 0, 0, 0xFFFFFFFF, 0, 0, 0⟩
  | .MADC_C_REG => ⟨0x201140, [(8, 0x10000), (2, 0x200), (32, 4)], 0, 0xF73F, 0, 0, 0, 0⟩
  | .MADC_C_INJ => ⟨0x2011C0, [(8, 0x10000), (2, 0x200), (8, 4)], 0, 0xF73F, 0, 0, 0, 0⟩
  | .MADC_C_RES => ⟨0x201200, [(8, 0x10000), (2, 0x200), (32, 4)], 0, 0, 0, 0, 0, 0⟩
  | .MADC_C_IRES => ⟨0x201280, [(8, 0x10000), (2, 0x200), (8, 4)], 0, 0, 0, 0, 0, 0⟩
  | .DAC_AUX_CFG => ⟨0x202000, [(8, 0x10000), (9, 0x20)], 0x20, 0x13F37, 0, 0, 0, 0⟩
  | .DAC_AUX_CODE => ⟨0x202004, [(8, 0x10000), (9, 0x20)], 0x8000, 0xFFFF, 0, 0, 0, 0⟩
  | .DAC_AUX_PERIOD => ⟨0x202008, [(8, 0x10000), (9, 0x20)], 0xC000, 0xFFFFFFFF, 0, 0, 0, 0⟩
  | .DAC_AUX_LIM => ⟨0x20200C, [(8, 0x10000), (9, 0x20)], 0xFFFF0000, 0xFFFFFFFF, 0, 0, 0, 0⟩
  | .DAC_AUX_STEP => ⟨0x202010, [(8, 0x10000), (9, 0x20)], 1, 0xFFFF, 0, 0, 0, 0⟩
  | .DAC_AUX_SEED => ⟨0x202014, [(8, 0x10000), (9, 0x20)], 1, 0x7FFFFF, 0, 0, 0, 0⟩
  | .DAC_AUX_QDATA => ⟨0x202018, [(8, 0x10000), (9, 0x20)], 0, 0, 0, 0, 0xFFFF, 0⟩
  | .DAC_AUX_STATUS => ⟨0x20201C, [(8, 0x10000), (9, 0x20)], 0, 0, 0, 6, 0, 0⟩
  | .DAC_RDADDR => ⟨0x202180, [(8, 0x10000)], 0, 0xFEFFF, 0, 0, 0, 0⟩
  | .DAC_RDDATA => ⟨0x202184, [(8, 0x10000)], 0, 0, 0, 0, 0, 0⟩
  | .DEV_RDWK_CFG => ⟨0x203000, [(8, 0x10000)], 0x32006400, 0xFFFFFF03, 0, 0, 0, 0⟩
  | .DEV_RDWK_WIN => ⟨0x203004, [(8, 0x10000)], 0x78, 0xFFFF, 0, 0, 0, 0⟩
  | .DEV_RDWK_STATUS => ⟨0x203008, [(8, 0x10000)], 0, 0, 0, 0, 0, 0⟩
  | .DEV_RDWK_CNT => ⟨0x20300C, [(8, 0x10000)], 0, 0, 0xFFFFFFFF, 0, 0, 0⟩
  | .PRT_FH_QCFG => ⟨0x300000, [(4, 4)], 0, 0x47, 0, 0, 0, 0⟩
  | .PRT_FH_STATUS => ⟨0x300100, [(8, 0x40)], 0, 0, 0xF00, 0, 0, 0⟩
  | .PRT_FH_CNT_RX => ⟨0x300104, [(8, 0x40)], 0, 0, 0xFFFFFFFF, 0, 0, 0⟩
  | .PRT_FH_CNT_DROP => ⟨0x300108, [(8, 0x40)], 0, 0, 0xFFFFFFFF, 0, 0, 0⟩
  | .PRT_FH_CNT_WIN => ⟨0x30010C, [(8, 0x40)], 0, 0, 0xFFFFFFFF, 0, 0, 0⟩
  | .PRT_FH_CNT_TXLATE => ⟨0x300110, [(8, 0x40)], 0, 0, 0xFFFFFFFF, 0, 0, 0⟩
  | .PRT_PEER_CFG => ⟨0x300400, [], 0x760032, 0xFFFFFFFF, 0, 0, 0, 0⟩
  | .PRT_PEER_STATUS => ⟨0x300500, [(4, 0x40)], 0, 0, 0, 0, 0, 0⟩
  | .PRT_PEER_TOFS => ⟨0x300504, [(4, 0x40)], 0, 0, 0, 0, 0, 0⟩
  | .PRT_PEER_TDLY => ⟨0x300508, [(4, 0x40)], 0, 0, 0, 0, 0, 0⟩
  | .PRT_PEER_CNT_REPLAY => ⟨0x30050C, [(4, 0x40)], 0, 0, 0xFFFFFFFF, 0, 0, 0⟩
  | .PRT_TIMING_CFG => ⟨0x300600, [], 0, 0xFFFFFFFF, 0, 0, 0, 0⟩
  | .PRT_MB_STATUS => ⟨0x300700, [], 0, 0, 0, 0, 0, 0⟩
  | .LOG_E => ⟨0x400000, [(8192, 0x20), (8, 4)], 0, 0, 0, 0, 0, 0⟩
  | .LOG_HEAD => ⟨0x440000, [], 0, 0, 0, 0, 0, 0⟩
  | .LOG_CNT => ⟨0x440004, [], 0, 0, 0xFFFFFFFF, 0, 0, 0⟩

/-- Registers of BAR0, part 1. -/
def regList1 : List RegName :=
  [.DEV_RST_CAUSE, .DEV_STRAPS, .DEV_LC, .DEV_BOOT, .DEV_READY, .DEV_UID_LO, .DEV_UID_HI,
   .DEV_TMAP, .DEV_SPARE, .DEV_TMAP_GEN, .DEV_SYS_ID, .DEV_SKIPTHR, .MBX_DOORBELL, .MBX_STATUS,
   .MBX_CFG, .MBX_INT_STAT, .MBX_INT_EN, .MBX_EVQ_PROD, .MBX_EVQ_CONS, .MBX_EVQ_LOST, .MBX_BUF,
   .MBX_EVWIN, .TL_TIME_LO, .TL_TIME_HI, .TL_CFG, .TL_STATUS, .TL_OFFSET, .TL_CT_CFG,
   .TL_CT_OFS_LO, .TL_CT_OFS_HI, .TL_CT_POS, .MS_STATUS, .MS_GEN, .MS_EFFECT_LO, .MS_EFFECT_HI,
   .MS_CNT_SLIP, .TL_CNT_LATE, .TL_CNT_LLIST, .TL_SNAP_TS_LO, .TL_SNAP_TS_HI]

/-- Registers of BAR0, part 2. -/
def regList2 : List RegName :=
  [.TL_SNAP_POS, .TL_SNAP_TMAP, .THM_CFG, .THM_STEP, .THM_TRIP, .THM_COLD, .THM_WARN, .THM_THROT,
   .THM_SHUT, .THM_CNT_THROT, .THM_CNT_SLEWWAIT, .THM_SLEW, .THM_SENS, .TG_CLSCFG, .TG_REQCLS,
   .TG_CFG, .TG_CTRL, .TG_LOCKWD, .TG_STATUS, .TG_CNT_GRANT, .TG_CNT_FULL, .TG_CNT_NTH,
   .TG_CNT_MASK, .TG_CNT_LIFT, .TG_CNT_LOCKABORT, .TG_MAXWAIT, .STRM_CFG, .STRM_SPILL_LO,
   .STRM_SPILL_HI, .STRM_SCRUB, .STRM_POOL, .STRM_CNT_CE, .STRM_CNT_UE, .STRM_CNT_SPILL,
   .STRM_CNT_GAP, .STRM_CTX_STAT, .STRM_CTX_PROG_LO, .STRM_CTX_PROG_HI, .ENG_CFG, .ENG_STATUS]

/-- Registers of BAR0, part 3. -/
def regList3 : List RegName :=
  [.ENG_PC_LO, .ENG_PC_HI, .ENG_SEQ, .ENG_ACC, .ENG_CNT_TW, .ENG_CNT_BANKCONF, .ENG_CNT_TILEWAIT,
   .ENG_CNT_SWAPWAIT, .ENG_CNT_FALLBACK, .ENG_CNT_RANGEFIX, .ENG_CNT_OUTSAT, .ENG_CNT_QUIETDENY,
   .ENG_CNT_SKIP, .TILE_CFG, .TILE_STATUS, .TILE_GAIN, .TILE_CNT_CONV_LO, .TILE_CNT_CONV_HI,
   .TILE_CNT_SAT, .TILE_CNT_RERUN, .TILE_CNT_SPLIT, .TILE_CNT_CLAMP, .TILE_CNT_RELOAD,
   .TILE_LAST_SAT, .TILE_LAST_SAT_TS_LO, .TILE_LAST_SAT_TS_HI, .TILE_TRIM_ADDR, .TILE_TRIM_DATA,
   .TILE_OFS, .LOCK_CFG, .LOCK_STATUS, .LOCK_FE, .LOCK_SS, .LOCK_TBANDA, .LOCK_TBANDB,
   .LOCK_PABAND, .LOCK_CNT_DLMISS, .LOCK_CNT_LOST, .LOCK_CNT_WRONG, .LOCK_CNT_GSW]

/-- Registers of BAR0, part 4. -/
def regList4 : List RegName :=
  [.LOCK_CNT_QEND, .LOCK_LAST, .LOCK_LAST_GOOD_LO, .LOCK_LAST_GOOD_HI, .LOCK_RING_ADDR,
   .LOCK_RING_DATA, .LOCK_TEST, .LSA_STATUS, .LSA_THR, .LSA_WORST, .LSA_CNT, .MADC_CFG,
   .MADC_RING_LO, .MADC_RING_HI, .MADC_RING_WIDX, .MADC_CNT_LOST, .MADC_C_CFG, .MADC_C_RPER,
   .MADC_C_STATUS, .MADC_C_CNT_ABORT, .MADC_C_CNT_MERGE, .MADC_C_CNT_OVERRUN, .MADC_C_REG,
   .MADC_C_INJ, .MADC_C_RES, .MADC_C_IRES, .DAC_AUX_CFG, .DAC_AUX_CODE, .DAC_AUX_PERIOD,
   .DAC_AUX_LIM, .DAC_AUX_STEP, .DAC_AUX_SEED, .DAC_AUX_QDATA, .DAC_AUX_STATUS, .DAC_RDADDR,
   .DAC_RDDATA, .DEV_RDWK_CFG, .DEV_RDWK_WIN, .DEV_RDWK_STATUS, .DEV_RDWK_CNT]

/-- Registers of BAR0, part 5. -/
def regList5 : List RegName :=
  [.PRT_FH_QCFG, .PRT_FH_STATUS, .PRT_FH_CNT_RX, .PRT_FH_CNT_DROP, .PRT_FH_CNT_WIN,
   .PRT_FH_CNT_TXLATE, .PRT_PEER_CFG, .PRT_PEER_STATUS, .PRT_PEER_TOFS, .PRT_PEER_TDLY,
   .PRT_PEER_CNT_REPLAY, .PRT_TIMING_CFG, .PRT_MB_STATUS, .LOG_E, .LOG_HEAD, .LOG_CNT]

/-- Every register of BAR0. -/
def allRegs : List RegName :=
  regList1 ++ regList2 ++ regList3 ++ regList4 ++ regList5
/-- Reset value of a register (R6), where it differs from index to index. -/
def resetOf (n : RegName) (i : Nat) : Nat :=
  match n with
  | .THM_WARN => [0x05F005A0, 0x050004D0, 0x04600410, 0x05500500].getD i 0
  | .THM_THROT => [0x06900640, 0x05300500, 0x050004B0, 0x05F005A0].getD i 0
  | .TG_REQCLS =>
    if i ≤ 15 || i = 18 || i = 19 then 0x55555555
    else if i = 16 || i = 17 then 0xFFFFFFFF else if i = 20 then 0x2AA9 else 0
  | n => n.row.reset

/-- Index offset inside a register array. -/
def dimOff : List (Nat × Nat) → List Nat → Nat
  | (_, s) :: ds, i :: is => i * s + dimOff ds is
  | _, _ => 0

/-- BAR0 offset of a register (R10). -/
def RegName.off (n : RegName) (i : Nat := 0) (j : Nat := 0) (k : Nat := 0) : Nat :=
  n.row.base + dimOff n.row.dims [i, j, k]

/-- The indices at which a register array covers the byte distance `d` from its base. -/
def dimFind : List (Nat × Nat) → Nat → Option (List Nat)
  | [], d => if d = 0 then some [] else none
  | (c, s) :: ds, d =>
    if d / s < c then (dimFind ds (d % s)).map (d / s :: ·) else none

/-- The LSA part of both regions of a stack is one set of registers, kept under the even region (R360). -/
def lsaFold (off : Nat) : Nat :=
  if 0x200000 ≤ off && off < 0x280000 && (off - 0x200000) % 0x10000 < 0x1000
    && (off - 0x200000) / 0x10000 % 2 = 1 then off - 0x10000 else off

/-- The first register of `ns` that lies at `off`. -/
def findReg (off : Nat) : List RegName → Option (RegName × List Nat)
  | [] => none
  | n :: ns =>
    if n.row.base ≤ off then
      match dimFind n.row.dims (off - n.row.base) with
      | some is => some (n, is)
      | none => findReg off ns
    else findReg off ns

/-- The register at BAR0 offset `off`, none where the offset is reserved. -/
def regAt (off : Nat) : Option (RegName × List Nat) := findReg (lsaFold off) allRegs

/-- What a register keeps. -/
def Dev.reg (d : Dev) (n : RegName) (i : Nat := 0) (j : Nat := 0) (k : Nat := 0) : Nat :=
  (tget d.regs (n.off i j k) (BitVec.ofNat 32 (resetOf n i))).toNat

/-- A register's field of `len` bits from bit `lo`. -/
def Dev.rf (d : Dev) (n : RegName) (lo len : Nat) (i : Nat := 0) (j : Nat := 0) (k : Nat := 0) : Nat :=
  fld (d.reg n i j k) lo len

/-- Keep `v` in a register. -/
def Dev.setReg (d : Dev) (n : RegName) (v : Nat) (i : Nat := 0) (j : Nat := 0) (k : Nat := 0) : Dev :=
  { d with regs := tset d.regs (n.off i j k) (BitVec.ofNat 32 v) }

/-- Add to a counter that stops at 0xFFFF_FFFF (R65, R123, R223, R255, R273, R310, R335, R378, R410). -/
def Dev.bump (d : Dev) (n : RegName) (i : Nat := 0) (j : Nat := 0) (by_ : Nat := 1) : Dev :=
  if by_ = 0 then d else d.setReg n (min 0xFFFFFFFF (d.reg n i j + by_)) i j

/-- Add to a counter field of `len` bits from bit `lo` that stops at its largest value. -/
def Dev.bumpFld (d : Dev) (n : RegName) (lo len : Nat) (i : Nat := 0) : Dev :=
  d.setReg n (setFld (d.reg n i) lo len (min (2 ^ len - 1) (fld (d.reg n i) lo len + 1))) i

end Sys2Proof.Machine
end

