-- ==== Sys2Proof/Machine/Flags.lean ====
section
/-!
DEFINITION. The device's flags: interrupt status bits and the vectors they raise (R415, R432), the error log
(R456–R459), and events placed in mailbox queues (R429–R431).
-/
namespace Sys2Proof.Machine

/-! ### Source identifiers (R31) -/

def srcPackage : Nat := 0x0000
def srcStack (s : Nat) : Nat := 0x1000 + s
def srcRegion (rg : Nat) : Nat := 0x2000 + rg
def srcEngine (e : Nat) : Nat := 0x3000 + e
def srcPtile (p : Nat) : Nat := 0x4000 + p
def srcHost : Nat := 0x5000
def srcFh (p : Nat) : Nat := 0x5010 + p
def srcPeer (p : Nat) : Nat := 0x5020 + p
def srcMb (m : Nat) : Nat := 0x5030 + m
def srcTiming : Nat := 0x5040
def srcCp : Nat := 0x6000
def srcTimeline : Nat := 0x6001
def srcThermal : Nat := 0x6002
def srcComb (s c : Nat) : Nat := 0x6010 + 2 * s + c
def srcTg (n : Nat) : Nat := 0x6100 + n

/-- The source that logs an access by a requester of R257: its engine or port (R27, R459). -/
def srcOfReq (who : Nat) : Nat :=
  if who < 0x100 then srcEngine (who / 8)
  else if who < 0x120 then srcPackage
  else if who < 0x140 then srcEngine (who - 0x120)
  else if who = 0x140 then srcHost
  else if who < 0x145 then srcPeer (who - 0x141)
  else srcCp

/-! ### Mailbox flags -/

/-- Mailbox `m`; each starts as reset leaves it (R420, R430). -/
def mbxReset (m : Nat) : Mailbox :=
  { evMask := if m = 0 then 0x1F4#9 else if m = 7 then 0x140#9 else 0#9 }

/-- Mailbox `m` as it stands. -/
def Dev.mb (d : Dev) (m : Nat) : Mailbox := tget d.mbx m (mbxReset m)

/-- Mailbox `m` replaced. -/
def Dev.setMb (d : Dev) (m : Nat) (b : Mailbox) : Dev := { d with mbx := tset d.mbx m b }

/-- An output sent (newest first). -/
def Dev.emit (d : Dev) (o : Output) : Dev := { d with out := o :: d.out }

/-- The MSI-X vector of INT_STAT bit `b` of mailbox `m`, for an event of class `c` (R432). -/
def msixOf (m b c : Nat) : Option (Nat × Nat) :=
  if m = 0 then
    if b = 0 || b = 3 then some (0, 0) else if b = 1 then some (0, 1 + c)
    else if b = 2 then some (0, 10) else none
  else if m = 5 then
    if b = 0 || b = 3 then some (0, 11) else if b = 1 || b = 2 then some (0, 12) else none
  else if m ≤ 4 then
    if b = 0 || b = 3 then some (m, 0) else if b = 1 then some (m, 1)
    else if b = 2 then some (m, 2) else none
  else none

/-- INT_STAT bit `b` set; its vector is raised while its INT_EN bit is set (R432). -/
def Dev.setInt (d : Dev) (m b : Nat) (c : Nat := 0) : Dev :=
  let x := d.mb m
  let d := d.setMb m { x with intStat := x.intStat ||| BitVec.ofNat 5 (2 ^ b) }
  match msixOf m b c with
  | some (f, v) => if x.intEn.getLsbD b then d.emit (.msix f v) else d
  | none => d

/-! ### Events -/

/-- The class of an event type (R430). -/
def eventClass (t : Nat) : Nat :=
  if t ≤ 2 then 0 else if t = 3 then 1 else if t ≤ 6 then 2 else if t ≤ 8 then 3
  else if t ≤ 0xA then 4 else if t ≤ 0xD then 5 else if t = 0xE then 6 else if t = 0xF then 7 else 8

/-- The 32 bytes of an event entry (R429). -/
def Event.bytes (e : Event) : List Byte :=
  pack [(8, e.ts), (2, e.typ), (2, e.source), (4, e.eseq)] ++ padTo 16 e.data

/-- Number `es` from `n` upwards (ESEQ). -/
def numberFrom (n : Nat) : List Event → List Event
  | [] => []
  | e :: es => { e with eseq := n % 2 ^ 32 } :: numberFrom (n + 1) es

/-- Events placed together in the queue of mailbox `m`, or all discarded where the queue would then
hold more than 256 entries not consumed (R431). Number 8 stands for no mailbox: the standalone program's lists. -/
def Dev.place (d : Dev) (m : Nat) (es : List Event) : Dev :=
  let b := d.mb m
  if 8 ≤ m then d
  else if 256 < b.evq.length + es.length then
    (d.setMb m { b with lost := min 0xFFFFFFFF (b.lost + es.length) }).setInt m 2
  else
    let d := d.setMb m { b with
      evq := b.evq ++ numberFrom b.prod es, prod := (b.prod + es.length) % 2 ^ 32 }
    es.foldl (fun d e => d.setInt m 1 (eventClass e.typ)) d

/-- One event to one mailbox. -/
def Dev.event (d : Dev) (m typ source : Nat) (fs : List (Nat × Nat)) (ts : Nat) : Dev :=
  d.place m [{ ts := ts, typ := typ, source := source, data := padTo 16 (pack fs) }]

/-- One event to every mailbox of a bit mask (R162, R238). -/
def Dev.eventMask (d : Dev) (mask typ source : Nat) (fs : List (Nat × Nat)) (ts : Nat) : Dev :=
  (upTo 8).foldl (fun d m => if bit mask m then d.event m typ source fs ts else d) d

/-- A subscribed event: to every mailbox whose mask holds the bit of its class (R430). -/
def Dev.publish (d : Dev) (typ source : Nat) (fs : List (Nat × Nat)) (ts : Nat) : Dev :=
  (upTo 8).foldl (fun d m =>
    if (d.mb m).evMask.getLsbD (eventClass typ) then d.event m typ source fs ts else d) d

/-! ### The error log -/

/-- Severity of a fault code (R459): 0 info, 1 warning, 2 error, 3 fatal. -/
def logSeverity (code : Nat) : Nat :=
  if code ∈ [0x0001, 0x0009, 0x0101, 0x0104, 0x0303, 0x0502, 0x0504, 0x0506, 0x0602] then 0
  else if code ∈ [0x0007, 0x000A, 0x0605, 0x0803, 0x0804] then 3
  else if code ∈ [0x0201, 0x0202, 0x0204, 0x0205, 0x0301, 0x0401, 0x0402, 0x0501, 0x0503, 0x0603,
      0x0604, 0x0904, 0x0906] then 2
  else 1

/-- The 32 bytes of a log entry (R456). -/
def LogEntry.bytes (e : LogEntry) : List Byte :=
  pack [(8, e.ts), (2, e.source), (2, e.code), (4, e.severity + 256 * e.seq)] ++ padTo 16 e.data

/-- One entry counted in LOG_CNT by its severity, saturating at 0xFF (R466). -/
def ErrLog.count (l : ErrLog) (sev : Nat) : ErrLog :=
  if sev = 0 then { l with cntInfo := min 255 (l.cntInfo + 1) }
  else if sev = 1 then { l with cntWarn := min 255 (l.cntWarn + 1) }
  else if sev = 2 then { l with cntError := min 255 (l.cntError + 1) }
  else { l with cntFatal := min 255 (l.cntFatal + 1) }

/-- One entry written (R457): the log keeps the most recent 8,192. -/
def ErrLog.add (l : ErrLog) (e : LogEntry) : ErrLog :=
  ({ l with
      entries := ({ e with seq := l.written % 2 ^ 24 } :: l.entries).take 8192
      written := l.written + 1 } : ErrLog).count e.severity

/-- A log entry, and for severity error or fatal the FAULT event with it (R458, R459). -/
def Dev.logAt (d : Dev) (source code : Nat) (fs : List (Nat × Nat)) (ts : Nat) : Dev :=
  let data := padTo 16 (pack fs)
  let sev := logSeverity code
  let seq := d.log.written % 2 ^ 24
  let d := { d with log := d.log.add { ts, source, code, severity := sev, data } }
  if 2 ≤ sev then
    d.publish 0x11 source [(2, code), (1, sev), (4, seq), (8, getLe data 0 8)] ts
  else d

/-- A log entry detected now. -/
def Dev.logNow (d : Dev) (source code : Nat) (fs : List (Nat × Nat)) : Dev := d.logAt source code fs d.time

end Sys2Proof.Machine
end

