-- ==== Sys2Proof/Machine/Ops.lean ====
section
/-!
DEFINITION. The named operations over the device: its engines, tiles and map, device memory (R26–R29), and
values the manual leaves open.
-/
namespace Sys2Proof.Machine

/-! ### Parts of the device -/

def Dev.eng (d : Dev) (e : Nat) : Engine := tget d.engs e {}
def Dev.setEng (d : Dev) (e : Nat) (x : Engine) : Dev := { d with engs := tset d.engs e x }
def Dev.modEng (d : Dev) (e : Nat) (f : Engine → Engine) : Dev := d.setEng e (f (d.eng e))

def Engine.slot (x : Engine) (t : Nat) : Slot := tget x.slots t {}
def Engine.setSlot (x : Engine) (t : Nat) (s : Slot) : Engine := { x with slots := tset x.slots t s }
def Dev.slot (d : Dev) (e t : Nat) : Slot := (d.eng e).slot t
def Dev.setSlot (d : Dev) (e t : Nat) (s : Slot) : Dev := d.modEng e (·.setSlot t s)
def Dev.modSlot (d : Dev) (e t : Nat) (f : Slot → Slot) : Dev := d.setSlot e t (f (d.slot e t))

/-- The state code of R62. -/
def TileState.code : TileState → Nat
  | .off => 0 | .acquiring => 1 | .idle => 2 | .active => 3 | .reloading => 4 | .swapping => 5
  | .lockLost => 6 | .shutdown => 7 | .shutdownRestart => 8 | .unbound => 9 | .replacing => 10

/-- The state code of R124. -/
def EngState.code : EngState → Nat
  | .off => 0 | .idle => 1 | .running => 2 | .waiting => 3 | .stalled => 4 | .error => 5
  | .shutdown => 6 | .shutdownRestart => 7

def Dev.pt (d : Dev) (p : Nat) : PTile := tget d.ptiles p {}
def Dev.setPt (d : Dev) (p : Nat) (x : PTile) : Dev := { d with ptiles := tset d.ptiles p x }
def Dev.modPt (d : Dev) (p : Nat) (f : PTile → PTile) : Dev := d.setPt p (f (d.pt p))

/-- Physical tile bound to logical tile `n` (R25); 0xFF unbound. -/
def Dev.phys (d : Dev) (n : Nat) : Nat := tget d.tmap n n

/-- Spare of region `rg`; 0xFF none. -/
def Dev.spare (d : Dev) (rg : Nat) : Nat := tget d.spares rg (128 + rg)

/-- Region of a physical tile (R22). -/
def regionOfP (p : Nat) : Nat := if p < 128 then p / 16 else p - 128

/-- The logical tile a physical tile serves, if any. -/
def Dev.logicalOf (d : Dev) (p : Nat) : Option Nat := (upTo 128).find? (fun n => d.phys n = p)

/-- One map update (R23): entries of logical tiles and of spares change together and GEN increments. -/
def Dev.mapUpdate (d : Dev) (ts : List (Nat × Nat)) (sp : List (Nat × Nat)) : Dev :=
  { d with
    tmap := ts.foldl (fun m p => tset m p.1 p.2) d.tmap
    spares := sp.foldl (fun m p => tset m p.1 p.2) d.spares
    tmapGen := (d.tmapGen + 1) % 2 ^ 32 }

def Dev.ctx (d : Dev) (n : Nat) : Ctx := tget d.str.ctxs n {}
def Dev.setCtx (d : Dev) (n : Nat) (c : Ctx) : Dev :=
  { d with str := { d.str with ctxs := tset d.str.ctxs n c } }
def Dev.tg (d : Dev) (n : Nat) : Tollgate := tget d.tgs n {}
def Dev.setTg (d : Dev) (n : Nat) (t : Tollgate) : Dev := { d with tgs := tset d.tgs n t }

def Dev.rgn (d : Dev) (rg : Nat) : Region := tget d.rgs rg {}
def Dev.setRgn (d : Dev) (rg : Nat) (x : Region) : Dev := { d with rgs := tset d.rgs rg x }
def Dev.stk (d : Dev) (s : Nat) : StackSt := tget d.stks s {}
def Dev.setStk (d : Dev) (s : Nat) (x : StackSt) : Dev := { d with stks := tset d.stks s x }

/-- The next number of the free-value counter, and the device with it consumed (log entry 10). -/
def Dev.fresh (d : Dev) : Nat × Dev := (d.freeCtr, { d with freeCtr := d.freeCtr + 1 })

/-! ### Device memory -/

/-- Size of DRAM (R26). -/
def dramEnd : Nat := 0x6000000000
def sramBase (e : Nat) : Nat := 0x7800000000 + e * 0x800000
def isDram (a : Nat) : Bool := a < dramEnd
def isSram (a : Nat) : Bool := 0x7800000000 ≤ a && a < 0x7810000000
/-- Device addresses that are not reserved (R26). -/
def isUsable (a : Nat) : Bool := isDram a || isSram a
/-- Every byte of `n` from `a` is usable. The usable ranges are two intervals. -/
def usableRange (a n : Nat) : Bool :=
  n = 0 || a + n ≤ dramEnd || (0x7800000000 ≤ a && a + n ≤ 0x7810000000)

/-- The byte a pending change leaves at `a`, where it covers `a`. -/
def MemOp.byteAt (o : MemOp) (a : Nat) : Option Byte :=
  match o with
  | .bytes b bs => if b ≤ a && a < b + bs.length then some (bs.getD (a - b) 0#8) else none
  | .zero b n => if b ≤ a && a < b + n then some 0#8 else none

/-- One change made in memory. -/
def MemOp.apply (o : MemOp) (m : List Host.Cell) : List Host.Cell :=
  match o with
  | .bytes b bs => Memory.writeBytes m b bs
  | .zero b n => Memory.zero m b n

/-- The changes of a command made in memory, oldest first (the list is newest first). -/
def commitOps (ops : List MemOp) (m : List Host.Cell) : List Host.Cell :=
  ops.foldr MemOp.apply m

/-- The byte at a device address as the command in progress sees it. -/
def Dev.rd (d : Dev) (a : Nat) : Byte :=
  match d.wr.findSome? (·.byteAt a) with
  | some b => b
  | none => Memory.read d.mem a

/-- `n` bytes from `a`. -/
def Dev.rdBytes (d : Dev) (a n : Nat) : List Byte := (upTo n).map (fun i => d.rd (a + i))

/-- The little-endian `n`-byte number at `a`. -/
def Dev.rdLe (d : Dev) (a n : Nat) : Nat := ofLe (d.rdBytes a n)

/-- Bytes stored from `a` upwards. -/
def Dev.wrBytes (d : Dev) (a : Nat) (bs : List Byte) : Dev :=
  if bs = [] then d else { d with wr := .bytes a bs :: d.wr }

/-- An `n`-byte number stored at `a`. -/
def Dev.wrLe (d : Dev) (a n v : Nat) : Dev := d.wrBytes a (leBytes n v)

/-- `n` bytes from `a` zeroed. -/
def Dev.wrZero (d : Dev) (a n : Nat) : Dev := { d with wr := .zero a n :: d.wr }

/-- The first reserved address of `n` bytes from `a` (R27). -/
def firstReserved (a n : Nat) : Option Nat :=
  if usableRange a n then none
  else if !isUsable a then some a
  else if isDram a then some dramEnd
  else some 0x7810000000

/-- Log an access by requester `who` that touches a reserved address (R27). -/
def Dev.logReserved (d : Dev) (who a n : Nat) : Dev :=
  match firstReserved a n with
  | some x => d.logNow (srcOfReq who) 0x0003 [(8, x), (2, who)]
  | none => d

/-- 256-byte block number of a DRAM address (R194). -/
def blockOf (a : Nat) : Nat := a / 256

/-- A poisoned block among those `n` bytes from `a` touch (R196). -/
def Dev.poisoned (d : Dev) (a n : Nat) : Bool :=
  d.str.poison.any (fun b => b * 256 < a + n && a < b * 256 + 256)

/-- A poisoned block is clean again once a write covers all its 256 bytes (R196). -/
def Dev.unpoison (d : Dev) (a n : Nat) : Dev :=
  { d with str := { d.str with
      poison := d.str.poison.filter (fun b => !(a ≤ b * 256 && b * 256 + 256 ≤ a + n)) } }

/-- A read by requester `who` (R27): reserved bytes read as all ones, with one log entry. -/
def Dev.devRead (d : Dev) (who a n : Nat) : List Byte × Dev :=
  ((upTo n).map (fun i => if isUsable (a + i) then d.rd (a + i) else 0xFF#8), d.logReserved who a n)

/-- The bytes of `bs` from `a` that fall on usable addresses, as (address, bytes) runs. -/
def usableRuns (a : Nat) (bs : List Byte) : List (Nat × List Byte) :=
  if usableRange a bs.length then [(a, bs)]
  else
    let lo := if a < dramEnd then [(a, bs.take (dramEnd - a))] else []
    let s := if a < 0x7800000000 then 0x7800000000 else a
    if s < 0x7810000000 && 0x7800000000 < a + bs.length then
      lo ++ [(s, (bs.drop (s - a)).take (0x7810000000 - s))]
    else lo

/-- A write by requester `who` (R27): bytes at reserved addresses are dropped, with one log entry. -/
def Dev.devWrite (d : Dev) (who a : Nat) (bs : List Byte) : Dev :=
  (usableRuns a bs).foldl
    (fun d r => (d.wrBytes r.1 r.2).unpoison r.1 r.2.length)
    (d.logReserved who a bs.length)

/-! ### Global addresses (R29) -/

/-- DEVNUM of this device as its own lists, contexts and CP count it. -/
def Dev.ownDev (d : Dev) : Nat := d.devnum.getD 0
def globalDev (a : Nat) : Nat := a / 2 ^ 39 % 4
def globalLocal (a : Nat) : Nat := a % 2 ^ 39

/-- Logical tile number of Ee.Tt (R2). -/
def ltile (e t : Nat) : Nat := 4 * e + t

end Sys2Proof.Machine
end

