-- ==== Sys2Proof/Machine/Carrier.lean ====
section
/-!
DEFINITION. Carrier timelines (R235–R237) and Milestone entries (R238–R241): positions, boundaries and firing
instants.
-/
namespace Sys2Proof.Machine

/-! ### Numerology (R236) -/

/-- Tc of a frame, a subframe, a microsecond's numerator: 1 µs = 1,966.08 Tc (R14). -/
def frameTc : Nat := 19660800
def subframeTc : Nat := 1966080
def tcPerSec : Nat := 1966080000

/-- Microseconds as Tc, rounded up (R14). -/
def usTc (us : Nat) : Nat := (us * 196608 + 99) / 100

/-- A carrier timeline's numerology: μ and extended cyclic prefix. -/
structure Numer where
  mu : Nat
  ecp : Bool
  deriving DecidableEq, Repr

def Dev.numer (d : Dev) (ct : Nat) : Numer :=
  { mu := d.rf .TL_CT_CFG 4 3 ct, ecp := d.rf .TL_CT_CFG 1 1 ct = 1 }
def Dev.ctEn (d : Dev) (ct : Nat) : Bool := d.rf .TL_CT_CFG 0 1 ct = 1
def Dev.ctOfs (d : Dev) (ct : Nat) : Nat :=
  d.reg .TL_CT_OFS_LO ct + 2 ^ 32 * d.reg .TL_CT_OFS_HI ct

/-- Symbols per slot, slots per subframe and per frame. -/
def Numer.syms (n : Numer) : Nat := if n.ecp then 12 else 14
def Numer.spsf (n : Numer) : Nat := 2 ^ n.mu
def Numer.spf (n : Numer) : Nat := 10 * n.spsf
/-- Length of a symbol that is not long. -/
def Numer.symTc (n : Numer) : Nat := if n.ecp then 40960 else 140288 / n.spsf

/-- Start of symbol `i` of a subframe: symbols 0 and 7·2^μ are 1,024 Tc longer. -/
def Numer.symStart (n : Numer) (i : Nat) : Nat :=
  if n.ecp then i * n.symTc
  else i * n.symTc + (if i = 0 then 0 else if i ≤ 7 * n.spsf then 1024 else 2048)

/-- The symbol of a subframe that contains offset `t`. -/
def Numer.symAt (n : Numer) (t : Nat) : Nat :=
  if n.ecp then t / n.symTc
  else
    let h := n.symStart (7 * n.spsf)
    if t < h then (t - 1024) / n.symTc else 7 * n.spsf + (t - h - 1024) / n.symTc

/-- Start within the frame of symbol `sym` of slot `slot`. -/
def Numer.start (n : Numer) (slot sym : Nat) : Nat :=
  slot / n.spsf * subframeTc + n.symStart (slot % n.spsf * n.syms + sym)

/-- Slot and symbol of the frame at offset `r`. -/
def Numer.at (n : Numer) (r : Nat) : Nat × Nat :=
  let i := n.symAt (r % subframeTc)
  (r / subframeTc * n.spsf + i / n.syms, i % n.syms)

/-- Carrier time of device time `t` under offset `ofs` (R235): signed. -/
def carrierTime (t ofs : Nat) : Int := sx 64 (unsx 64 ((t : Int) - ofs))

def frameOf (c : Int) : Int := c / (frameTc : Int)
def inFrame (c : Int) : Nat := (c % (frameTc : Int)).toNat

/-- TL_CTn_POS at device time `t` in the register's layout (R255). -/
def Dev.posAt (d : Dev) (ct t : Nat) : Nat :=
  let c := carrierTime t (d.ctOfs ct)
  let (sl, sy) := (d.numer ct).at (inFrame c)
  (frameOf c % 1024).toNat * 2 ^ 22 + sl * 2 ^ 12 + sy * 2 ^ 8

/-- The device time nearest to now whose carrier time under offset `ofs` is `c`: the difference from now in two's complement
(R235). -/
def Dev.deviceOf (d : Dev) (c : Int) (ofs : Nat) : Int :=
  (d.time : Int) + sx 64 (unsx 64 (c + (ofs : Int) - (d.time : Int)))

/-- The start of the slot of `ct` that contains device time `t`, and of the next slot, in carrier time. -/
def Dev.slotBounds (d : Dev) (ct : Nat) (t : Nat) : Int × Int :=
  let n := d.numer ct
  let c := carrierTime t (d.ctOfs ct)
  let f := frameOf c * frameTc
  let (sl, _) := n.at (inFrame c)
  (f + n.start sl 0, if sl + 1 = n.spf then f + frameTc else f + n.start (sl + 1) 0)

/-- The same in device time: both counted from `t`, so that the carrier count's sign is of no account (R235). -/
def Dev.slotSpan (d : Dev) (ct t : Nat) : Int × Int :=
  let (lo, hi) := d.slotBounds ct t
  let c := carrierTime t (d.ctOfs ct)
  ((t : Int) + (lo - c), (t : Int) + (hi - c))

/-- The first slot boundary of `ct` at or after device time `t`, as device time (R244). -/
def Dev.nextBoundary (d : Dev) (ct t : Nat) : Nat :=
  let (lo, hi) := d.slotSpan ct t
  if lo = t then t else hi.toNat

/-- The slot number of the slot of `ct` that contains `t`: whole slots from carrier time 0 (R209). -/
def Dev.slotNumber (d : Dev) (ct t : Nat) : Int :=
  let n := d.numer ct
  let c := carrierTime t (d.ctOfs ct)
  frameOf c * n.spf + (n.at (inFrame c)).1

/-- Device time at which slot number `k` of `ct` begins. -/
def Dev.slotStart (d : Dev) (ct : Nat) (k : Int) : Int :=
  let n := d.numer ct
  d.deviceOf (k / (n.spf : Int) * frameTc + n.start (k % (n.spf : Int)).toNat 0) (d.ctOfs ct)

/-! ### Milestone entries (R238) -/

abbrev MsEntry := BitVec 256

def MsEntry.f (m : MsEntry) (byte lo len : Nat) : Nat := fld m.toNat (8 * byte + lo) len
def MsEntry.valid (m : MsEntry) : Bool := MsEntry.f m 0 0 1 = 1
def MsEntry.ct (m : MsEntry) : Nat := MsEntry.f m 0 1 3
def MsEntry.perlog (m : MsEntry) : Nat := MsEntry.f m 0 4 4
def MsEntry.sfnres (m : MsEntry) : Nat := MsEntry.f m 2 0 10
def MsEntry.slot (m : MsEntry) : Nat := MsEntry.f m 4 0 16
def MsEntry.symbol (m : MsEntry) : Nat := MsEntry.f m 6 0 4
def MsEntry.dskip (m : MsEntry) : Nat := MsEntry.f m 6 4 3
def MsEntry.offset (m : MsEntry) : Nat := MsEntry.f m 8 0 32
def MsEntry.actions (m : MsEntry) : Nat := MsEntry.f m 12 0 16
def MsEntry.rgmask (m : MsEntry) : Nat := MsEntry.f m 14 0 8
def MsEntry.stmask (m : MsEntry) : Nat := MsEntry.f m 15 0 4
def MsEntry.winlen (m : MsEntry) : Nat := MsEntry.f m 16 0 32
def MsEntry.evcode (m : MsEntry) : Nat := MsEntry.f m 20 0 16
def MsEntry.mbxmask (m : MsEntry) : Nat := MsEntry.f m 22 0 8
def MsEntry.snapsel (m : MsEntry) : Nat := MsEntry.f m 23 0 2

def Dev.msActive (d : Dev) (n : Nat) : MsEntry := tget d.ms.active n 0#256
/-- The version of entry `n` that the active bank held at `t` (R244, R249; log entry 185). -/
def Dev.entryAt (d : Dev) (n t : Nat) : MsEntry :=
  match tfind d.ms.prior n with
  | some (m, b) => if t < b then m else d.msActive n
  | none => d.msActive n
def Dev.msShadow (d : Dev) (n : Nat) : MsEntry := tget d.ms.shadow n 0#256

/-- The position a firing at device time `t` belongs to (R241): frame and slot of the entry's symbol. -/
def Dev.firingPos (d : Dev) (m : MsEntry) (t : Nat) : Int × Nat :=
  let c := carrierTime t (d.ctOfs (MsEntry.ct m)) - MsEntry.offset m
  (frameOf c, ((d.numer (MsEntry.ct m)).at (inFrame c)).1)

/-- Device time `t` is a firing instant of entry version `m` (R241). -/
def Dev.isFiring (d : Dev) (m : MsEntry) (t : Nat) : Bool :=
  let ct := MsEntry.ct m
  let n := d.numer ct
  let c := carrierTime t (d.ctOfs ct) - MsEntry.offset m
  let f := frameOf c
  let r := inFrame c
  let sl := (n.at r).1
  MsEntry.valid m && d.ctEn ct
    && (f % ((2 ^ MsEntry.perlog m : Nat) : Int)).toNat = MsEntry.sfnres m
    && (MsEntry.slot m = 0xFFFF || MsEntry.slot m = sl)
    && r = n.start sl (MsEntry.symbol m)

/-- The latest firing of `m` at or before carrier offset `x`, counted without its OFFSET, in carrier time. -/
def Dev.latestBefore (d : Dev) (m : MsEntry) (x : Int) : Int :=
  let n := d.numer (MsEntry.ct m)
  let per : Int := ((2 ^ MsEntry.perlog m : Nat) : Int)
  let f0 := frameOf x
  let f := f0 - (f0 - MsEntry.sfnres m) % per
  let r := inFrame x
  let lastIn (r : Nat) : Option Nat :=
    if MsEntry.slot m = 0xFFFF then
      let sl := (n.at r).1
      if n.start sl (MsEntry.symbol m) ≤ r then some (n.start sl (MsEntry.symbol m))
      else if sl = 0 then none else some (n.start (sl - 1) (MsEntry.symbol m))
    else if n.start (MsEntry.slot m) (MsEntry.symbol m) ≤ r
      then some (n.start (MsEntry.slot m) (MsEntry.symbol m)) else none
  let endOf : Int := (lastIn (frameTc - 1)).getD 0
  if f = f0 then
    match lastIn r with
    | some y => f * frameTc + y
    | none => (f - per) * frameTc + endOf
  else f * frameTc + endOf

/-- The latest firing instant of `m` in (a, b], as device time (R234), reckoned back from `b` in carrier time, whose count is
that of 64 bits read as signed (R235). -/
def Dev.latestFiring (d : Dev) (m : MsEntry) (a b : Int) : Option Nat :=
  let ct := MsEntry.ct m
  if !(MsEntry.valid m) || !(d.ctEn ct) || MsEntry.symbol m ≥ (d.numer ct).syms then none
  else
    let off : Int := (MsEntry.offset m : Nat)
    let cb := sx 64 (unsx 64 (b - (d.ctOfs ct : Int)))
    let top : Int := 2 ^ 63 - 1
    let c := d.latestBefore m (cb - off) + off
    let t := if -(2 ^ 63 : Int) ≤ c then b - (cb - c)
      else b - (cb + 2 ^ 63) - 1 - (top - (d.latestBefore m (top - off) + off))
    if a < t && t ≤ b && 0 ≤ t then some t.toNat else none

/-- The function whose Milestone range mailbox `m` owns (R247); MBX0 owns what no other does. -/
def Dev.inDomain (d : Dev) (m n : Nat) : Bool :=
  let own (f : Nat) : Bool :=
    let r := tget d.cp.fns f {}
    r.msFirst ≤ n && n < r.msFirst + r.msCount
  if (1 ≤ m && m ≤ 4) || m = 6 then own m else !([1, 2, 3, 4, 6].any own)

/-- The slot boundary at which changed entry `n` is copied, where a commit on `c` at `b` defers it (R245). -/
def Dev.deferTo (d : Dev) (c b n : Nat) : Option Nat :=
  let a := d.msActive n
  let c' := MsEntry.ct a
  if MsEntry.valid a && c' != c && d.ctEn c' then
    let (lo, hi) := d.slotSpan c' b
    if (d.latestFiring a (lo - 1) (hi - 1)).isSome then some hi.toNat else none
  else none

/-- The version of entry `n` that a commit under way will bring, and from when (R244, R245; log entry 188). -/
def Dev.comingEntry (d : Dev) (n : Nat) : Option (MsEntry × Nat) :=
  match d.ms.commit with
  | none => none
  | some c =>
    if c.copied then (tfind c.deferred n).map (fun t => (d.msShadow n, t))
    else if d.inDomain c.mbx n then some (d.msShadow n, (d.deferTo c.ct c.b n).getD c.b) else none

/-- The first firing instant of `m` strictly after device time `t`, found by looking back from one frame
period ahead and stepping to earlier ones; `fuel` bounds the steps. -/
def Dev.firstAfter (d : Dev) (m : MsEntry) (t : Nat) : Nat → Int → Option Nat → Option Nat
  | 0, _, best => best
  | fuel + 1, b, best =>
    match d.latestFiring m t b with
    | some x => d.firstAfter m t fuel ((x : Int) - 1) (some x)
    | none => best

/-- The next firing instant of `m` after `t` (R241): within one period of it. -/
def Dev.nextFiring (d : Dev) (m : MsEntry) (t : Nat) : Option Nat :=
  let n := d.numer (MsEntry.ct m)
  if MsEntry.slot m = 0xFFFF && MsEntry.perlog m = 0 then
    -- Every slot: the symbol of this slot, or of the next.
    d.firstAfter m t 4 ((t : Int) + 2 * (subframeTc / n.spsf + 1024)) none
  else d.firstAfter m t (n.spf + 1) ((t : Int) + ((2 ^ MsEntry.perlog m : Nat) : Int) * frameTc) none

/-- The `k`-th firing of `m` after `t` (k ≥ 1). -/
def Dev.nthFiring (d : Dev) (m : MsEntry) : Nat → Nat → Option Nat
  | 0, _ => none
  | 1, t => d.nextFiring m t
  | k + 2, t =>
    match d.nextFiring m t with
    | some x => d.nthFiring m (k + 1) x
    | none => none

end Sys2Proof.Machine
end

