-- ==== Sys2Proof/Machine/TaskWord.lean ====
section
/-!
DEFINITION. The fields of task words (R126, R138–R166), the operands their address fields name, and the engine's
bookkeeping of words that are not complete.
-/
namespace Sys2Proof.Machine

abbrev Tw := BitVec 256

/-- Field of a task word: `len` bits from bit `lo` of the word that starts at byte `byte`. -/
def tw (w : Tw) (byte lo len : Nat) : Nat := fld w.toNat (8 * byte + lo) len

/-! ### Header (R126) -/
def twOp (w : Tw) : Nat := tw w 0 0 8
def twLbl (w : Tw) : Bool := tw w 1 0 1 = 1
def twEnd (w : Tw) : Bool := tw w 1 1 1 = 1
def twRet (w : Tw) : Bool := tw w 1 2 1 = 1
def twBias (w : Tw) : Bool := tw w 1 3 1 = 1
def twLabel (w : Tw) : Nat := tw w 2 0 16

/-! ### LOADW (R138) -/
def ldTmask (w : Tw) : Nat := tw w 4 0 4
def ldSrc (w : Tw) : Bool := tw w 4 4 1 = 1
def ldCtx (w : Tw) : Nat := tw w 4 5 3
def ldFmt (w : Tw) : Nat := tw w 5 0 4
def ldDw (w : Tw) : Nat := tw w 5 4 2 + 1
def ldSpread (w : Tw) : Bool := tw w 5 6 1 = 1
def ldSparse (w : Tw) : Bool := tw w 5 7 1 = 1
def ldRow0 (w : Tw) : Nat := tw w 6 0 6
def ldRows (w : Tw) : Nat := tw w 7 0 6 + 1
def ldWaddr (w : Tw) : Nat := tw w 8 0 32
def ldIdx (w : Tw) : Nat := tw w 12 0 32
def ldPlanes (w : Tw) : Nat := tw w 16 0 32
def ldComplex (w : Tw) : Bool := ldFmt w = 4 || ldFmt w = 5
/-- PLANES is used when DW > 1 or WFMT is INT16, CI8 or CI16. -/
def ldUsesPlanes (w : Tw) : Bool := 1 < ldDw w || 3 ≤ ldFmt w
/-- Bytes of one row of 64 weights. -/
def ldRowBytes (w : Tw) : Nat := [64, 32, 64, 128, 128, 256].getD (ldFmt w) 64

/-! ### MVM and MVMC (R141) -/
def mvTmask (w : Tw) : Nat := tw w 4 0 4
def mvArr (w : Tw) : Bool := tw w 4 4 1 = 1
def mvSpread (w : Tw) : Bool := tw w 4 5 1 = 1
def mvSens (w : Tw) : Bool := tw w 4 6 1 = 1
def mvQuiet (w : Tw) : Bool := tw w 4 7 1 = 1
def mvKlog (w : Tw) : Nat := tw w 5 0 3
def mvGain (w : Tw) : Nat := tw w 5 3 3
def mvRR (w : Tw) : Nat := tw w 5 6 2
def mvDw (w : Tw) : Nat := tw w 6 0 2 + 1
def mvDx (w : Tw) : Nat := tw w 6 2 2 + 1
def mvFb (w : Tw) : Bool := tw w 6 4 1 = 1
def mvXfmt (w : Tw) : Nat := tw w 6 5 2
def mvThrM (w : Tw) : Nat := tw w 7 0 3
def mvThrE (w : Tw) : Nat := tw w 7 3 5
def mvBudget (w : Tw) : Nat := tw w 8 0 8
def mvArea (w : Tw) : Nat := tw w 9 0 4
def mvArow (w : Tw) : Nat := tw w 10 0 16
def mvXaddr (w : Tw) : Nat := tw w 12 0 32
def mvXstride (w : Tw) : Nat := tw w 16 0 16
def mvNseg (w : Tw) : Nat := tw w 18 0 8 + 1
def mvNvec (w : Tw) : Nat := tw w 20 0 16
def mvIgrp (w : Tw) : Nat := tw w 22 0 16
/-- Threshold T = M × 2^E (R66). -/
def mvThr (w : Tw) : Nat := mvThrM w * 2 ^ mvThrE w
/-- R = 2, 4 or 8 readings (R66). -/
def mvR (w : Tw) : Nat := 2 * 2 ^ mvRR w
/-- Bytes of one segment. -/
def mvSegBytes (w : Tw) : Nat := [32, 64, 128, 0].getD (mvXfmt w) 0 * (if twOp w = 3 then 2 else 1)
/-- Number of tiles of a mask. -/
def popc4 (m : Nat) : Nat := (upTo 4).foldl (fun n t => n + b2n (bit m t)) 0
/-- Position of tile `t` among the set bits of a mask. -/
def posIn (m t : Nat) : Nat := (upTo t).foldl (fun n u => n + b2n (bit m u)) 0

/-! ### DMM (R147) -/
def dmA (w : Tw) : Nat := tw w 4 0 4
def dmB (w : Tw) : Nat := tw w 4 4 4
def dmDest (w : Tw) : Bool := tw w 5 0 1 = 1
def dmOsel (w : Tw) : Nat := tw w 5 1 3
def dmM (w : Tw) : Nat := tw w 6 0 16
def dmKd (w : Tw) : Nat := tw w 8 0 16
def dmN (w : Tw) : Nat := tw w 10 0 16
def dmAaddr (w : Tw) : Nat := tw w 12 0 32
def dmBaddr (w : Tw) : Nat := tw w 16 0 32
def dmDaddr (w : Tw) : Nat := tw w 20 0 32
def dmArea (w : Tw) : Nat := tw w 20 0 4
def dmArow (w : Tw) : Nat := tw w 22 0 16
def dmIgrp (w : Tw) : Nat := tw w 24 0 16
def dmBstride (w : Tw) : Nat := tw w 26 0 16
def dmDstride (w : Tw) : Nat := tw w 28 0 16
/-- Bytes of an element of a DMM format. -/
def dmSize (f : Nat) : Nat := [1, 1, 1, 2, 2, 4, 2, 4, 4].getD f 0
def dmCplx (f : Nat) : Bool := 6 ≤ f

/-! ### VEC (R149) -/
def vcOp (w : Tw) : Nat := tw w 4 0 8
def vcFmt (w : Tw) : Nat := tw w 5 0 4
def vcSat (w : Tw) : Bool := tw w 5 4 1 = 1
def vcDfmt (w : Tw) : Nat := tw w 6 0 4
def vcParam (w : Tw) : Nat := tw w 7 0 8
def vcA (w : Tw) : Nat := tw w 8 0 32
def vcB (w : Tw) : Nat := tw w 12 0 32
def vcD (w : Tw) : Nat := tw w 16 0 32
def vcCount (w : Tw) : Nat := tw w 20 0 32
def vcImm (w : Tw) : Nat := tw w 24 0 32
def vcRowlen (w : Tw) : Nat := tw w 28 0 16
def vcPitch (w : Tw) : Nat := tw w 30 0 16

/-! ### ACC (R152) -/
def acAct (w : Tw) : Nat := tw w 4 0 2
def acCplx (w : Tw) : Bool := tw w 4 2 1 = 1
def acImask (w : Tw) : Bool := tw w 4 3 1 = 1
def acArea (w : Tw) : Nat := tw w 4 4 4
def acAshift (w : Tw) : Nat := tw w 5 0 5
def acOfmt (w : Tw) : Nat := tw w 6 0 4
def acNvec (w : Tw) : Nat := tw w 8 0 16
def acIgrp (w : Tw) : Nat := tw w 10 0 16
def acStab (w : Tw) : Nat := tw w 12 0 32
def acDaddr (w : Tw) : Nat := tw w 16 0 32
def acDstride (w : Tw) : Nat := tw w 20 0 32

/-! ### ROUTE (R154), EXIT (R156), ARM (R158), WAITM (R160), SIGNAL (R162), FENCE (R164), LOCKSEQ (R166) -/
def rtK (w : Tw) : Nat := tw w 4 0 4
def rtNitem (w : Tw) : Nat := tw w 6 0 16
def rtNexp (w : Tw) : Nat := tw w 8 0 16
def rtJoin (w : Tw) : Nat := tw w 10 0 16
def rtScores (w : Tw) : Nat := tw w 12 0 32
def rtEtab (w : Tw) : Nat := tw w 16 0 32
def rtWout (w : Tw) : Nat := tw w 20 0 32
def exNitem (w : Tw) : Nat := tw w 6 0 16
def exTarget (w : Tw) : Nat := tw w 8 0 16
def exThr (w : Tw) : Nat := tw w 12 0 32
def exXmap (w : Tw) : Nat := tw w 16 0 32
def arCtx (w : Tw) : Nat := tw w 4 0 3
def arRearm (w : Tw) : Bool := tw w 4 3 1 = 1
def twAddr (w : Tw) : Nat := tw w 8 0 64
def wmMsid (w : Tw) : Nat := tw w 4 0 12
def wmMode (w : Tw) : Bool := tw w 4 12 1 = 1
def wmTimeout (w : Tw) : Nat := tw w 8 0 16
def sgKind (w : Tw) : Nat := tw w 4 0 2
def sgMask (w : Tw) : Nat := tw w 5 0 8
def sgCode (w : Tw) : Nat := tw w 6 0 16
def twValue (w : Tw) : Nat := tw w 16 0 64
def fnScope (w : Tw) : Nat := tw w 4 0 4
def fnPoll (w : Tw) : Bool := tw w 4 4 1 = 1
def fnTimeout (w : Tw) : Nat := tw w 24 0 16
def lkClose (w : Tw) : Bool := tw w 4 0 1 = 1
def lkCtx (w : Tw) : Nat := tw w 4 1 3
def lkTg (w : Tw) : Nat := tw w 5 0 8
def lkTimeout (w : Tw) : Nat := tw w 6 0 16

/-! ### Items (R131) -/

/-- Vector `v` runs under item mask `m` with IGRP = `g`. -/
def activeVec (m : BitVec 256) (g v : Nat) : Bool :=
  g = 0 || 256 * g ≤ v || m.getLsbD (v / g)

/-! ### Words not complete -/

/-- A decoded word's work in a unit begins. -/
def Engine.addLive (x : Engine) (num : Nat) (u : WUnit) : Engine := { x with live := x.live ++ [(num, u)] }

/-- Work of word `num` in unit `u` ends; the word completes with its last unit (ENG_CNT_TW, R123). -/
def Dev.endLive (d : Dev) (e num : Nat) (u : WUnit) : Dev :=
  let x := d.eng e
  if (num, u) ∈ x.live then
    let x := { x with live := x.live.erase (num, u) }
    let d := d.setEng e x
    if x.live.any (·.1 = num) then d else d.bump .ENG_CNT_TW e
  else d

/-- Some word before `num` still works in one of the units `us`. -/
def Engine.busyBefore (x : Engine) (num : Nat) (us : List WUnit) : Bool :=
  x.live.any (fun p => p.1 < num && us.contains p.2)

/-- The area with unique number `aid`, with its area number. -/
def Engine.areaOf (x : Engine) (aid : Nat) : Option (Nat × Area) := x.areas.find? (·.2.aid = aid)

/-- Bytes of the engine's SRAM. -/
def Dev.sram (d : Dev) (e off n : Nat) : List Byte := d.rdBytes (sramBase e + off) n

end Sys2Proof.Machine
end

