-- ==== Sys2Proof/Machine/Accum.lean ====
section
/-!
DEFINITION. The accumulator (R94–R99, R104–R107): contributions and what they leave in a result vector's status,
the output converter, delivery with result status, and what a task-word error does to its list (R132).
-/
namespace Sys2Proof.Machine

/-! ### Deadlines and errors -/

/-- The deadline instant of a placement (R249): the firing counted as such, or the one to come as the active
bank now stands. -/
def Dev.deadlineOf (d : Dev) (p : Placement) : Option Nat :=
  match p.deadline, p.dhit with
  | none, _ => none
  | some _, some t => some t
  | some n, none => if p.dvalid then d.nthFiring (d.msActive n) p.dleft p.dfrom else none

/-- The present instant is at or after the deadline of the running list (R250). -/
def Dev.isLate (d : Dev) (e : Nat) : Bool :=
  match (d.eng e).run with
  | some r => ((d.deadlineOf r.plc).map (fun t => decide (t ≤ d.time))).getD false
  | none => false

/-- An evaluation is placed in the vector queue: issued work, which runs to completion whatever becomes of the list (R132). -/
def Engine.evaluates (x : Engine) : Bool := x.vecq.any (fun j => j.kind != .vec)

/-- Decoding of run `r` stops for good (R132): holds end. The mask is restored, once an evaluation that works on it is done. -/
def Engine.stopDecode (x : Engine) (r : Run) : Engine :=
  { x with
    run := some r, hold := .none, exits := [], route := none, inSection := false
    mask := if x.evaluates then x.mask else BitVec.allOnes 256 }

/-- The lock requests of context `who` are withdrawn. -/
def Dev.withdrawLock (d : Dev) (who : Nat) : Dev :=
  { d with tgs := d.tgs.map (fun p => (p.1, { p.2 with
      parked := p.2.parked.filter (fun r => !(r.who = who && r.lock.isSome))
      presented := p.2.presented.filter (fun r => !(r.who = who && r.lock.isSome)) })) }

/-- Decoding of run `r` on engine `e` stops for good; a LOCKSEQ that waits no longer asks for its lock (R132). -/
def Dev.stopRun (d : Dev) (e : Nat) (r : Run) : Dev :=
  let x := d.eng e
  (match x.hold with
    | .lock c _ _ _ => d.withdrawLock (8 * e + c)
    | _ => d).setEng e (x.stopDecode r)

/-- Task-word error `code` of the word at `addr` with opcode `op` (R132): decoding stops, holds end and the mask is
restored. ERROR is shown and logged when the list's issued work and deliveries are done (`Dev.listEnd`). -/
def Dev.taskError (d : Dev) (e code op addr : Nat) : Dev :=
  let x := d.eng e
  match x.run with
  | none => d
  | some r =>
    if r.fail.isSome then d
    else d.stopRun e { r with fail := some (code, op, addr) }

def errBadOp : Nat := 0x01
def errBadField : Nat := 0x02
def errAlign : Nat := 0x03
def errAddr : Nat := 0x04
def errKrate : Nat := 0x05
def errGateArr : Nat := 0x06
def errSpread : Nat := 0x07
def errBound : Nat := 0x08
def errArea : Nat := 0x09
def errWrange : Nat := 0x0A
def errWset : Nat := 0x0B
def errUnbound : Nat := 0x0C
def errFlow : Nat := 0x0D
def errTimeout : Nat := 0x0E
def errLock : Nat := 0x0F
def errLockAbort : Nat := 0x10
def errLockOpen : Nat := 0x11
def errStream : Nat := 0x12
def errFmt : Nat := 0x13
def statCancelled : Nat := 0x20

/-! ### Contributions -/

/-- What a column word carries into the status (R98): nothing, SAT, LOWCONF or FALLBACK. -/
inductive ColFlag where
  | clean | sat | lowconf | fallback
  deriving DecidableEq, Repr

/-- The status with one column's flag at result column `col`. -/
def VecStat.flag (s : VecStat) (col : Nat) (f : ColFlag) : VecStat :=
  match f with
  | .clean => s
  | .sat => { s with sat := true, colmask := s.colmask ||| 2 ^ col }
  | .lowconf => { s with lowconf := true, colmask := s.colmask ||| 2 ^ col }
  | .fallback => { s with fallback := true, colmask := s.colmask ||| 2 ^ col }

/-- The earliest start of what contributed. -/
def VecStat.seen (s : VecStat) (ts : Nat) : VecStat :=
  { s with ts := some (match s.ts with | none => ts | some t => min t ts) }

/-- Conversion `c` of tile `t` contributed, with its extra readings. -/
def VecStat.tile (s : VecStat) (t : Nat) (c : Conv) (extra : Nat) : VecStat :=
  { s.seen c.ts with
    tileConv := true, allQuiet := s.allQuiet && c.quiet, stale := s.stale || c.stale
    reread := min 15 (s.reread + extra), tiles := s.tiles ||| 2 ^ t
    starts := tset s.starts c.ptile (max c.ts (tget s.starts c.ptile 0))
    ends := tset s.ends c.ptile (max c.close (tget s.ends c.ptile 0)) }

/-- Result vector that row `row` of an area belongs to. -/
def Area.vecOf (a : Area) (row : Nat) : Nat := if a.cplx then row / 2 else row

/-- Column values added to row `row`, each at its column (R94). Sums are exact: beyond 32 bits a column is neither wrapped nor
saturated (DESIGN CHOICE, log entry 219). -/
def Area.addRow (a : Area) (row : Nat) (cols : List (Nat × Int)) : Area :=
  let r := cols.foldl (fun r c => tset r c.1 (tget r c.1 0 + c.2)) (tget a.rows row [])
  { a with rows := tset a.rows row r }

/-- The status of vector `v` changed by `f`. -/
def Area.status (a : Area) (v : Nat) (f : VecStat → VecStat) : Area :=
  { a with vst := tset a.vst v (f (tget a.vst v {})) }

/-- The area with unique number `aid` changed by `f`; nothing where it has been discarded. -/
def Dev.modArea (d : Dev) (e aid : Nat) (f : Area → Area) : Dev :=
  let x := d.eng e
  match x.areaOf aid with
  | some (k, a) => d.setEng e { x with areas := tset x.areas k (f a) }
  | none => d

/-! ### Sparse scatter (R170, R176) -/

def spPresent (ix : List Byte) (rg lg : Nat) : Bool := (getLe ix 0 8).testBit (8 * rg + lg)
def spCi (ix : List Byte) (lg : Nat) : Nat := getLe ix (8 + 2 * lg) 2
def spOb (ix : List Byte) (rg : Nat) : Nat := getLe ix (24 + 2 * rg) 2
def spNblk (ix : List Byte) : Nat := getLe ix 40 1
/-- Line group `lg` holds a present block. -/
def spLine (ix : List Byte) (lg : Nat) : Bool := (upTo 8).any (fun rg => spPresent ix rg lg)
/-- Output blocks of the row groups in use. -/
def spObs (ix : List Byte) : List Nat := ((upTo 8).map (spOb ix)).filter (· != 0xFFFF)
/-- m: the largest number of row groups that share an output block. -/
def spShare (ix : List Byte) : Nat :=
  (spObs ix).foldl (fun m o => max m ((spObs ix).filter (· = o)).length) 1

/-- Where column `i`'s word of vector `v` goes: area row and result column; none where it is discarded. -/
def placeCol (sparse : Option (List Byte)) (arow nvec v i : Nat) : Option (Nat × Nat) :=
  match sparse with
  | none => some (arow + v, i)
  | some ix =>
    let ob := spOb ix (i / 8)
    if ob = 0xFFFF then none else some (arow + v + nvec * (ob / 8), 8 * (ob % 8) + i % 8)

/-- Real column words of vector `v` into an area; `upd` is what the contributor leaves in the status. -/
def Area.addReal (a : Area) (sparse : Option (List Byte)) (arow nvec v : Nat)
    (cols : List (Nat × Int × ColFlag)) (upd : VecStat → VecStat) : Area :=
  let placed := cols.filterMap (fun c =>
    (placeCol sparse arow nvec v c.1).map (fun rc => (rc.1, rc.2, c.2.1, c.2.2)))
  let rows := (placed.map (·.1)).eraseDups
  let a := rows.foldl (fun a r => a.status (a.vecOf r) upd) a
  placed.foldl (fun a c =>
    (a.addRow c.1 [(c.2.1, c.2.2.1)]).status (a.vecOf c.1) (·.flag c.2.1 c.2.2.2)) a

/-- Column words of component `comp` of complex vector `v` (R59, R94): k1 into both parts, k2 into the imaginary
part, k3 subtracted from the real part. -/
def Area.addComplex (a : Area) (arow comp v : Nat) (cols : List (Nat × Int × ColFlag))
    (upd : VecStat → VecStat) : Area :=
  let re := arow + 2 * v
  let vals := cols.map (fun c => (c.1, c.2.1))
  let a := if comp = 0 then (a.addRow re vals).addRow (re + 1) vals
    else if comp = 1 then a.addRow (re + 1) vals
    else a.addRow re (vals.map (fun c => (c.1, -c.2)))
  a.status (a.vecOf re) (fun s => cols.foldl (fun s c => s.flag c.1 c.2.2) (upd s))

/-! ### Delivery -/

/-- Bytes per column of an output format (R96). -/
def ofmtSize (o : Nat) : Nat := [4, 1, 1, 1, 2, 2, 4, 2, 4].getD o 0
def ofmtCplx (o : Nat) : Bool := o = 7 || o = 8

/-- y = acc × SCALE + BIAS in FP32, fused (R96). -/
def scaleY (acc : Int) (scale bias : Nat) : FV :=
  fFP32.round (((FV.ofInt acc).mul (fFP32.decode scale)).add (fFP32.decode bias))

/-- An integer element of `n` bytes, with the count of saturations. -/
def outInt (n : Nat) (r : Int × Bool) : List Byte × Nat := (leBytes n (unsx (8 * n) r.1), b2n r.2)

/-- An integer saturated to `n` bytes without passing through FP32. -/
def outDirect (n : Nat) (acc : Int) : List Byte × Nat :=
  let hi : Int := ((2 ^ (8 * n - 1) : Nat) : Int) - 1
  outInt n (clampInt (-hi - 1) hi acc, decide (acc < -hi - 1 ∨ hi < acc))

/-- One part of one column in format `o` from value `y`. -/
def outPart (o : Nat) (y : FV) : List Byte × Nat :=
  let fl (f : FFmt) (n : Nat) : List Byte × Nat := (leBytes n (f.deliver y).1, b2n (f.deliver y).2)
  if o = 0 then outInt 4 (intDeliver 32 y) else if o = 1 || o = 7 then outInt 1 (intDeliver 8 y)
  else if o = 2 then fl fE4M3 1 else if o = 3 then fl fE5M2 1 else if o = 4 then fl fBF16 2
  else if o = 5 then fl fFP16 2 else if o = 6 then fl fFP32 4 else outInt 2 (intDeliver 16 y)

/-- One column (both parts where complex); `tab` is its 16-byte table entry, none for identity; and how many of its parts are
saturated: each part of a complex column counts by itself, and the column's value enters the fused operation exactly (R96;
DESIGN CHOICE, log entry 218). -/
def outCol (o : Nat) (tab : Option (List Byte)) (re im : Int) : List Byte × Nat :=
  match tab with
  | none =>
    let part (v : Int) : List Byte × Nat :=
      if o = 0 then outDirect 4 v else if o = 8 then outDirect 2 v
      else outPart o (fFP32.round (FV.ofInt v))
    if ofmtCplx o then ((part re).1 ++ (part im).1, (part re).2 + (part im).2) else part re
  | some t =>
    let r := outPart o (scaleY re (getLe t 0 4) (getLe t 4 4))
    if ofmtCplx o then
      let i := outPart o (scaleY im (getLe t 0 4) (getLe t 8 4))
      (r.1 ++ i.1, r.2 + i.2)
    else r

/-- The 64 columns of result vector `v` of area `a`, and how many elements saturated or were clamped. -/
def Area.outVec (a : Area) (o : Nat) (table : Option (List Byte)) (v : Nat) : List Byte × Nat :=
  let re := tget a.rows (if a.cplx then 2 * v else v) []
  let im := if a.cplx then tget a.rows (2 * v + 1) [] else []
  (upTo 64).foldl (fun acc i =>
    let c := outCol o (table.map (fun t => slice t (16 * i) 16)) (tget re i 0) (tget im i 0)
    (acc.1 ++ c.1, acc.2 + c.2)) ([], 0)

/-- Word 12…15 of the status (R97). -/
def VecStat.flags (s : VecStat) (e : Nat) (late : Bool) : Nat :=
  b2n s.sat + 2 * b2n s.lowconf + 4 * b2n s.fallback + 8 * b2n s.stale + 16 * b2n late
    + 32 * b2n (s.tileConv && s.allQuiet) + 256 * s.reread + 2 ^ 16 * e + 2 ^ 24 * s.tiles

/-- TS of a vector: the earliest contribution, else the issue instant of the first task word that targeted it
(R97, R181); none where no task word did. -/
def Area.tsOf (a : Area) (v : Nat) : Option Nat :=
  match (tget a.vst v {}).ts with
  | some t => some t
  | none => (a.targets.find? (fun t => t.1 ≤ v && v < t.2.1)).map (·.2.2)

/-- One vector delivered (R107): its status, then its columns; SEQ, LATE and the counters with it. A vector
that no task word targeted has a TS the manual does not give. -/
def Dev.deliverVec (d : Dev) (e : Nat) (a : Area) (w : Tw) (table : Option (List Byte)) (v : Nat) : Dev :=
  let x := d.eng e
  let late := d.isLate e
  let (ts, d) := match a.tsOf v with
    | some t => (t, d)
    | none => let (n, d) := d.fresh; (Config.freeNat n % 2 ^ 64, d)
  let s := tget a.vst v {}
  let (cols, sat) := a.outVec (acOfmt w) table v
  let rec' := leBytes 8 ts ++ leBytes 4 x.seq ++ leBytes 4 (s.flags e late) ++ leBytes 8 s.colmask ++ cols
  let d := d.wrBytes (sramBase e + acDaddr w + v * acDstride w) rec'
  let d := d.modEng e (fun x => { x with seq := (x.seq + 1) % 2 ^ 32 })
  let d := d.bump .ENG_CNT_OUTSAT e 0 sat
  if late then d.bump .TL_CNT_LATE e else d

/-- Something before task word `num` still contributes to area `aid` (R115). -/
def Engine.areaBusy (x : Engine) (aid num : Nat) : Bool :=
  let ops (l : List TileOp) := l.any (fun o => o.aid = aid && o.num < num)
  ops x.issueq
    || x.slots.any (fun s => s.2.convs.any (fun c => c.2.aid = aid && c.2.num < num))
    || x.macq.any (fun j => match j.piece with
      | .rest o => o.aid = aid && o.num < num
      | .range o _ => o.aid = aid && o.num < num
      | .sens os => ops os
      | .dmm _ a _ => a = aid && j.num < num
      | _ => false)

/-- The delivery at the head of the queue, carried out whole once its contributions are in (R96, R107, R153). -/
def Dev.accDelivery (d : Dev) (e : Nat) : Dev :=
  let x := d.eng e
  match x.delq with
  | [] => d
  | q :: qs =>
    if x.areaBusy q.aid q.num then d
    else
      match x.areaOf q.aid with
      | none => (d.setEng e { x with delq := qs }).endLive e q.num .deliver
      | some (k, a) =>
        let table := if acStab q.word = 0 then none else some (d.sram e (acStab q.word) 1024)
        let vs := (upTo a.nvec).filter (fun v =>
          !acImask q.word || activeVec q.mask (acIgrp q.word) v)
        let d := vs.foldl (fun d v => d.deliverVec e a q.word table v) d
        let d := d.modEng e (fun x => { x with
          delq := qs
          areas := if a.freeing && !(qs.any (·.aid = q.aid)) then tdrop x.areas k else x.areas })
        d.endLive e q.num .deliver

/-! ### Areas -/

def accRows : Nat := 8192

/-- Rows from `b` for `n` rows are free of every area. -/
def Engine.rowsFree (x : Engine) (b n : Nat) : Bool :=
  b + n ≤ accRows && x.areas.all (fun a => a.2.base + a.2.nrows ≤ b || b + n ≤ a.2.base)

/-- The lowest run of `n` free rows (R106): it begins at row 0 or right after some area. -/
def Engine.findRows (x : Engine) (n : Nat) : Option Nat :=
  let starts := (0 :: x.areas.map (fun a => a.2.base + a.2.nrows)).filter (fun b => x.rowsFree b n)
  match starts with
  | [] => none
  | b :: bs => some (bs.foldl min b)

/-- The areas that are open: not waiting for a delivery to free them. -/
def Engine.openAreas (x : Engine) : Tbl Area := x.areas.filter (fun a => !a.2.freeing)

/-- Rows that are free. -/
def Engine.freeRows (x : Engine) : Nat := accRows - x.areas.foldl (fun n a => n + a.2.nrows) 0

end Sys2Proof.Machine
end

