-- ==== Sys2Proof/Machine/Cache.lean ====
section
/-!
DEFINITION. The hub cache and the requests that reach the memory's Tollgates (R17, R193, R194, R198–R200, R213, R256).
-/
namespace Sys2Proof.Machine

/-- Memory channel of a device address (R193). -/
def channelOf (a : Nat) : Nat := fld a 8 4 ^^^ fld a 16 4 ^^^ fld a 24 4 ^^^ fld a 32 4
/-- Hub-cache bank of a device address (R198). -/
def bankOf (a : Nat) : Nat := fld a 7 5 ^^^ fld a 14 5 ^^^ fld a 21 5 ^^^ fld a 28 5

/-- FREEZE of Tollgate `n` (R269). -/
def Dev.tgFrozen (d : Dev) (n : Nat) : Bool := d.rf .TG_CTRL 0 1 n = 1

/-- Requester `who` presents a request at Tollgate `n`, for memory at `mem` where it is such a request. -/
def Dev.present (d : Dev) (n who : Nat) (mem : Option (Nat × Bool)) : Dev :=
  let t := d.tg n
  d.setTg n { t with presented := t.presented ++ [{ who, age := t.cycle + 1, mem }] }

/-- A block is read or written at its memory channel (R194). -/
def Dev.channelRequest (d : Dev) (who block : Nat) (write : Bool) : Dev :=
  d.present (channelOf (256 * block)) who (some (256 * block, write))

/-- Bytes of the stream pool (R200, R217). -/
def Dev.poolSize (d : Dev) : Nat :=
  let p := d.rf .STRM_CFG 16 8
  (if 8 ≤ p && p ≤ 64 then p else 16) * 2 ^ 20

/-- Ways of set `key` that are left beside the pool's pinned lines (R200): the pool takes a way of every set for each whole
12 MiB, and one more of as many of the first sets of each pair of banks as the rest fills (log entry 169). -/
def Dev.cacheWays (d : Dev) (key : Nat) : Nat :=
  let p := d.poolSize / 2 ^ 20
  16 - p / 12 - b2n (decide (key % 3072 < p % 12 * 256))

/-- Insertion priority of requester `who` (R199): a stream context's CACHE field, NORMAL for every other. -/
def Dev.prioOf (d : Dev) (who : Nat) : Nat := if who < 0x120 then (d.ctx who).desc.cache else 0

/-- The set that holds a block, among those of its pair of banks; the manual does not say which (R198). -/
def setKey (block : Nat) : Nat := bankOf (256 * block) / 2 * 3072 + Config.cacheSet block % 3072

/-- The block a full set evicts (R199): the least recently used that is not KEEP, else the least recently used (log entry
194). -/
def victimOf (l : List CLine) : Option CLine :=
  match l.reverse.find? (·.prio != 2) with
  | some v => some v
  | none => l.getLast?

/-- Room for one more block in a set: a dirty victim is written back by requester 0x146 (R198). -/
def Dev.makeRoom (d : Dev) (ways : Nat) (l : List CLine) : List CLine × Dev :=
  if l.length < ways then (l, d)
  else match victimOf l with
    | none => (l, d)
    | some v => (l.erase v, if v.dirty then d.channelRequest 0x146 v.block true else d)

/-- A set brought down to `ways` blocks, its victims written back where dirty; `fuel` bounds them. -/
def Dev.trimSet (d : Dev) (ways : Nat) : Nat → List CLine → List CLine × Dev
  | 0, l => (l, d)
  | fuel + 1, l =>
    let (l, d) := d.makeRoom (ways + 1) l
    d.trimSet ways fuel l

/-- The pool has been given another size: the sets give up the ways that it takes (R200). -/
def Dev.trimCache (d : Dev) : Dev :=
  d.str.cache.foldl (fun d s =>
    let (l, d) := d.trimSet (d.cacheWays s.1) s.2.length s.2
    { d with str := { d.str with cache := tset d.str.cache s.1 l } }) d

/-- One block passes through the hub cache for requester `who`: two line requests at its banks; a miss is filled from the
memory channel unless a write covers the whole block (`whole`), and takes a place by its priority (R194, R198, R199). -/
def Dev.cacheBlock (d : Dev) (who block : Nat) (write whole : Bool) : Dev :=
  let a := 256 * block
  let d := (d.present (16 + bankOf a) who (some (a, write))).present (16 + bankOf (a + 128)) who (some (a + 128, write))
  let key := setKey block
  let l := tget d.str.cache key []
  match l.find? (·.block = block) with
  | some x =>
    { d with str := { d.str with cache := tset d.str.cache key ({ x with dirty := x.dirty || write } :: l.erase x) } }
  | none =>
    let d := if write && whole then d else d.channelRequest who block false
    let (l, d) := d.makeRoom (d.cacheWays key) l
    let x : CLine := { block, dirty := write, prio := d.prioOf who }
    { d with str := { d.str with cache := tset d.str.cache key (if x.prio = 1 then l ++ [x] else x :: l) } }

/-- The device with the Tollgates' requests and the cache's contents as in `x`. -/
def Dev.withHub (d x : Dev) : Dev := { d with tgs := x.tgs, str := { d.str with cache := x.str.cache } }

/-- An access to `n` bytes from `a` passes through the hub cache where it touches DRAM (R17), from its block `skip` on; it
changes nothing but the Tollgates' requests and the cache's contents. -/
def Dev.hubAccess (d : Dev) (who a n : Nat) (write : Bool) (skip : Nat := 0) : Dev :=
  let n := min n (dramEnd - a)
  d.withHub ((upTo ((if n = 0 then 0 else (a % 256 + n + 255) / 256) - skip)).foldl (fun d i =>
    let b := blockOf a + skip + i
    d.cacheBlock who b write (a ≤ 256 * b && 256 * b + 256 ≤ a + n)) d)

/-- A read, and a write, of device memory through the hub cache. -/
def Dev.hubRead (d : Dev) (who a n : Nat) : List Byte × Dev := (d.hubAccess who a n false).devRead who a n
def Dev.hubWrite (d : Dev) (who a : Nat) (bs : List Byte) : Dev :=
  (d.hubAccess who a bs.length true).devWrite who a bs

/-- The cache's copy of block `block`, if it holds it. -/
def Dev.cached (d : Dev) (block : Nat) : Option CLine := (tget d.str.cache (setKey block) []).find? (·.block = block)

/-- The block leaves the cache. -/
def Dev.uncache (d : Dev) (block : Nat) : Dev :=
  { d with str := { d.str with
      cache := tset d.str.cache (setKey block) ((tget d.str.cache (setKey block) []).filter (·.block != block)) } }

/-- The requester of a TLP (R257): the host's own accesses, or the CP's interrupts and copies; none where it is no TLP. -/
def Output.tlpOf : Output → Option Nat
  | .bar2Data .. => some 0x140
  | .atomicData .. => some 0x140
  | .msix .. => some 0x145
  | .hostWrite .. => some 0x145
  | _ => none

/-- The function whose access an output completes. -/
def Output.accessOf : Output → Option Nat
  | .bar2Data fn .. => some fn
  | .atomicData fn .. => some fn
  | _ => none

/-- The TLPs of a command wait at Tollgate 52, in the order in which they arose (R256; log entry 223). -/
def Dev.sendTlps (d : Dev) : Dev :=
  let new := d.out.reverse.filterMap (fun o => o.tlpOf.map (fun w => (w, o)))
  if new = [] then d
  else
    let d : Dev := { d with
      out := d.out.filter (fun o => o.tlpOf.isNone), ports := { d.ports with tlps := d.ports.tlps ++ new } }
    new.foldl (fun d t => d.present 52 t.1 none) d

/-- A grant of Tollgate 52 to requester `who`: its oldest TLP leaves. -/
def Dev.admitTlp (d : Dev) (who : Nat) : Dev :=
  match d.ports.tlps.find? (fun t => t.1 = who) with
  | some t => Dev.emit { d with ports := { d.ports with tlps := d.ports.tlps.erase t } } (.tlp t.2)
  | none => d

/-- A grant of Tollgate 53 to context `who` admits its next frame (R395). -/
def Dev.admitFrame (d : Dev) (who : Nat) : Dev :=
  match d.ports.outq.findIdx? (fun f => f.ctx = who && !f.granted) with
  | some i => { d with ports := { d.ports with outq := d.ports.outq.modify i (fun f => { f with granted := true }) } }
  | none => d

end Sys2Proof.Machine
end

