-- ==== Sys2Proof/Machine/PeerLink.lean ====
section
/-!
DEFINITION. Frames of the peer links (R396–R401): headers, routing of global addresses, and the transfers this device
has sent.
-/
namespace Sys2Proof.Machine

/-- CRC-32 of a byte list (IEEE 802.3, reflected; log entry 22). -/
def crc32 (bs : List Byte) : Nat :=
  let step (c : Nat) : Nat := if c % 2 = 1 then (c / 2) ^^^ 0xEDB88320 else c / 2
  let c := bs.foldl (fun c b => step (step (step (step (step (step (step (step (c ^^^ b.toNat)))))))))
    0xFFFFFFFF
  c ^^^ 0xFFFFFFFF

/-- Bytes 0–59 of a header (R399). -/
def hdrBody (h : PHdr) : List Byte :=
  padTo 60 (leBytes 1 (h.typ % 16) ++ leBytes 1 (h.src % 4 + 4 * (h.dst % 4) + 16 * b2n h.poison)
    ++ leBytes 2 h.tag ++ leBytes 4 h.len ++ leBytes 8 h.addr ++ leBytes 8 h.ts ++ leBytes 2 (h.req % 512)
    ++ leBytes 1 h.members ++ zeros 1 ++ leBytes 1 h.status ++ zeros 1 ++ leBytes 2 h.retry)

/-- The 64 bytes of a header, with HCHK. -/
def hdrBytes (h : PHdr) : List Byte := hdrBody h ++ leBytes 4 (crc32 (hdrBody h))

def Dev.peer (d : Dev) (p : Nat) : Peer := tget d.peers.ports p {}
def Dev.setPeer (d : Dev) (p : Nat) (x : Peer) : Dev :=
  { d with peers := { d.peers with ports := tset d.peers.ports p x } }

/-- The lowest-numbered port in UP whose partner is `dev` (R398). -/
def Dev.portTo (d : Dev) (dev : Nat) : Option Nat :=
  (upTo 4).find? (fun p => (d.peer p).st = .up && (d.peer p).pdev = some dev)

/-- A header sent by this device now. -/
def Dev.hdr (d : Dev) (typ dst tag len addr req : Nat) : PHdr :=
  { typ, src := d.ownDev, dst, poison := false, tag, len, addr, ts := d.time, req, members := 0, status := 0, retry := 0 }

/-- A frame leaves a port. -/
def Dev.sendFrame (d : Dev) (port : Nat) (h : PHdr) (payload : List Byte) : Dev :=
  d.emit (.peerFrame port h.typ (hdrBytes h) payload)

/-- The failure of a transfer (R459 PEER_FAIL). -/
def Dev.peerFail (d : Dev) (port req typ addr : Nat) : Dev :=
  d.logNow (srcPeer port) 0x0904 [(2, req), (1, typ), (8, addr)]

/-- A transfer for a global address presented at the Tollgate of the port that leads to its device (R256, R398); with no port
it fails at once, and `fail` is what its requester sees. -/
def Dev.sendXfer (d : Dev) (req typ addr len : Nat) (data : List Byte) (for_ : XferFor) (fail : Dev → Dev) : Dev :=
  match d.portTo (globalDev addr) with
  | none => fail (d.peerFail 0 req typ addr)
  | some p =>
    let tag := d.peers.nextTag
    let x : Xfer := { tag, port := p, req, dev := globalDev addr, typ, addr, len, data, for_ }
    let d := { d with peers := { d.peers with nextTag := (tag + 1) % 2 ^ 16, xfers := d.peers.xfers ++ [x] } }
    d.present (48 + p) req none

/-- A FORK of source `n` for the members `mask` on device `dev`, presented as a transfer is (R256, R402); ADDR names the
context of the first of them, `k`. With no port it is lost: the members are dropped (R463). -/
def Dev.sendFork (d : Dev) (n dev mask k : Nat) (poison : Bool) (data : List Byte) : Dev :=
  match d.portTo dev with
  | none => d
  | some p =>
    let tag := d.peers.nextTag
    let x : Xfer := { tag, port := p, req := n, dev, typ := 5, addr := k, len := data.length, data
                      for_ := .fork mask poison }
    let d := { d with peers := { d.peers with nextTag := (tag + 1) % 2 ^ 16, xfers := d.peers.xfers ++ [x] } }
    d.present (48 + p) n none

/-- A transfer's frame sent, or sent again (R399). -/
def Dev.sendAgain (d : Dev) (t : Xfer) : Dev :=
  let h := d.hdr t.typ t.dev t.tag t.len t.addr t.req
  d.sendFrame t.port (match t.for_ with
    | .fork mask poison => { h with members := mask, poison }
    | _ => h) t.data

/-- Transfer `t` put in another state. -/
def Dev.setXfer (d : Dev) (t u : Xfer) : Dev :=
  { d with peers := { d.peers with xfers := d.peers.xfers.map (fun x => if x = t then u else x) } }

/-- A transfer of the same requester to the same device, issued before `t`, has still to be performed: it waits for its
Tollgate, has been refused, or is lost with its link (R400). -/
def Dev.behind (d : Dev) (t : Xfer) : Bool :=
  (d.peers.xfers.takeWhile (· != t)).any (fun u =>
    u.req = t.req && u.dev = t.dev && (!u.sent || u.held || u.retryAt.isSome || (u.since.isSome && (d.peer u.port).st != .up)))

/-- An admitted transfer that has not left may leave: its port is UP, its data are at hand, and none goes before it. -/
def Dev.mayLeave (d : Dev) (t : Xfer) : Bool := (d.peer t.port).st = .up && t.spill.isNone && !d.behind t

/-- The pool lines of a WRITE's transfer are free as the peer link accepts its bytes (R215). -/
def Dev.freeLines (d : Dev) (t : Xfer) : Dev :=
  match t.typ, t.for_ with
  | 0, .stream n arm _ _ =>
    if (d.ctx n).armed = arm then d.setCtx n { d.ctx n with pool := (d.ctx n).pool - t.len } else d
  | _, _ => d

/-- An admitted transfer leaves. A FORK has no completion and is gone with that. -/
def Dev.leave (d : Dev) (t : Xfer) : Dev :=
  let d := (d.sendAgain t).freeLines t
  if t.typ = 5 then { d with peers := { d.peers with xfers := d.peers.xfers.erase t } } else d.setXfer t { t with held := false }

/-- The admitted transfers that may leave now do, in issue order. -/
def Dev.releaseHeld (d : Dev) : Dev :=
  (d.peers.xfers.filter (·.held)).foldl (fun d t => if d.mayLeave t then d.leave t else d) d

/-- A grant of the Tollgate of port `p` to requester `who`: its oldest transfer over that port is admitted (R256), and leaves
once those before it have (R400; log entry 190). -/
def Dev.admitXfer (d : Dev) (p who : Nat) : Dev :=
  match d.peers.xfers.find? (fun t => t.port = p && t.req = who && !t.sent) with
  | some t => (d.setXfer t { t with sent := true, held := true }).releaseHeld
  | none => d

/-- A global address is served by this device (R29, R398). -/
def Dev.isLocal (d : Dev) (a : Nat) : Bool := a < 2 ^ 41 && globalDev a = d.ownDev

/-- The device address of a global address; one that another device serves lies outside the map. -/
def Dev.localAddr (d : Dev) (a : Nat) : Nat := if d.isLocal a then globalLocal a else a + 2 ^ 64

end Sys2Proof.Machine
end

