-- ==== Sys2Proof/Machine/Weights.lean ====
section
/-!
DEFINITION. Weights: their formats, the digit planes and weight sets of LOADW (R138–R140, R170–R173), the weight
shadow with its column offsets (R41, R42), and reloads (R39, R40).
-/
namespace Sys2Proof.Machine

/-! ### Formats (R16) -/

/-- The signed `n`-byte numbers of a byte list. -/
def sInts (n : Nat) (bs : List Byte) : List Int :=
  (upTo (bs.length / n)).map (fun i => sx (8 * n) (getLe bs (n * i) n))

/-- The INT4 numbers of a byte list, the lower nibble first. -/
def nibbles (bs : List Byte) : List Int := bs.flatMap (fun b => [sx 4 b.toNat, sx 4 (b.toNat / 16)])

/-- Consecutive pairs. -/
def pairs : List Int → List (Int × Int)
  | a :: b :: l => (a, b) :: pairs l
  | _ => []

/-- Pieces of `n`; `fuel` bounds their number. -/
def chunk {α : Type} (n : Nat) : Nat → List α → List (List α)
  | 0, _ => []
  | fuel + 1, l => if l.isEmpty then [] else l.take n :: chunk n fuel (l.drop n)

/-- Weights of a byte list in format `f` (R138); the imaginary part of a real one is 0. -/
def weightElems (f : Nat) (bs : List Byte) : List (Int × Int) :=
  if f = 1 then (nibbles bs).map (·, 0)
  else if f = 0 || f = 2 then (sInts 1 bs).map (·, 0)
  else if f = 3 then (sInts 2 bs).map (·, 0)
  else if f = 4 then pairs (sInts 1 bs)
  else pairs (sInts 2 bs)

/-! ### Shadow, offsets and trim -/

/-- Row `i` of a tile image; [] stands for level 0 throughout. -/
def Levels.row (m : Levels) (i : Nat) : List Int := tget m i []

/-- The image with the rows of `rows` replaced. -/
def Levels.put (m rows : Levels) : Levels :=
  rows.foldl (fun m r => if r.2.all (· = 0) then tdrop m r.1 else tset m r.1 r.2) m

/-- All 64 rows of an image, listed. -/
def Levels.all (m : Levels) : Levels := (upTo 64).map (fun i => (i, Levels.row m i))

/-- A factory weight curve (R75): from mid scale at level 0, the code rises with the level by free steps (log entry 200). -/
def factoryWeightCurve (p : Nat) : List (Int × Int) :=
  let rise (n off : Nat) : Nat := ((upTo n).map (fun k => Config.factoryWeightStep p (off + k))).foldl (· + ·) 0
  let up (k : Nat) : Int := (min 32767 (rise (k - 15) 15) : Nat)
  let down (k : Nat) : Int := (min 32767 (rise (15 - k) k) : Nat)
  (upTo 31).map (fun (k : Nat) => (64 * ((k : Int) - 15), if 15 ≤ k then up k else -down k))

/-- A factory modulator curve (R75): strictly monotonic drive codes in 0…4,080, in either direction. -/
def factoryModCurve (p j : Nat) : List (Int × Int) :=
  let y (k : Nat) : Nat := Config.factoryModStep p j 0 % 240
    + ((upTo k).map (fun m => 1 + Config.factoryModStep p j (m + 2) % 255)).foldl (· + ·) 0
  let code (k : Nat) : Int := if Config.factoryModStep p j 1 % 2 = 0 then (y k : Int) else 4080 - (y k : Int)
  (upTo 16).map (fun (k : Nat) => (64 * (k : Int), code k))

/-- The weight curve in force on a physical tile: installed, else factory (R73). -/
def Dev.weightCurve (d : Dev) (p : Nat) : List (Int × Int) :=
  (tfind (d.pt p).curves 64).getD (factoryWeightCurve p)

/-- The drive code of line `j`'s modulator at a PAM16 level (R35, R76). -/
def Dev.driveCode (d : Dev) (p j level : Nat) : Int :=
  curveCode ((tfind (d.pt p).curves j).getD (factoryModCurve p j)) 0 255 (level : Int)

/-- The input modulators take the drive codes of these levels. -/
def Dev.driveLevels (d : Dev) (p : Nat) (lev : List Nat) : Dev :=
  let codes := (upTo 64).map (fun j => d.driveCode p j (lev.getD j 0))
  d.modPt p (fun x => { x with drv := codes })

/-- Weight and modulator curves that meet R75. -/
def curvePointsOk (weight : Bool) (pts : List (Int × Int)) : Bool :=
  let pairs := pts.zip (pts.drop 1)
  2 ≤ pts.length && pts.length ≤ 32 && pairs.all (fun q => q.1.1 < q.2.1)
    && (match pts.head?, pts.getLast? with
      | some a, some b => (if weight then decide (a.1 ≤ -960) else decide (a.1 ≤ 0)) && decide (960 ≤ b.1)
      | _, _ => false)
    && (if weight then pairs.all (fun q => q.1.2 ≤ q.2.2) && curveCode pts (-128) 127 0 = 0
      else (pairs.all (fun q => q.1.2 < q.2.2) || pairs.all (fun q => q.2.2 < q.1.2))
        && pts.all (fun q => 0 ≤ q.2 && q.2 ≤ 4080))

/-- Trim codes of the rows applied to a physical tile (R37, R39, R76). -/
def Dev.applyTrim (d : Dev) (p : Nat) (rows : Levels) : Dev :=
  let pts := d.weightCurve p
  d.modPt p (fun x => { x with
    lev := rows.foldl (fun m r => tset m r.1 r.2) x.lev
    trim := rows.foldl (fun m r =>
      tset m r.1 ((upTo 64).map (fun j => curveCode pts (-128) 127 (r.2.getD j 0)))) x.trim })

/-- Shadow and column offsets of the written rows (R41, R42). -/
def Slot.take (s : Slot) (rows : Levels) : Slot :=
  { s with
    shadow := Levels.put s.shadow rows
    ofs := rows.foldl (fun m r => tset m r.1 (ofsOf r.2, sigOf r.2)) s.ofs }

/-- Rows taken by logical tile `t` of engine `e` and applied to physical tile `p`. -/
def Dev.takeRows (d : Dev) (e t p : Nat) (rows : Levels) : Dev :=
  (d.modSlot e t (·.take rows)).applyTrim p rows

/-! ### Tile states -/

/-- The state TILE_STATUS shows (R62). A conversion whose windows are done and whose columns wait on the MAC array is in flight:
the tile is ACTIVE, and a pending RATE waits for it (R64; DESIGN CHOICE, log entry 214). -/
def Slot.state (s : Slot) : TileState :=
  match s.st with
  | .idle => if s.reload.isSome then .reloading else if s.convs.isEmpty then .idle else .active
  | x => x

/-- Component and digit tile operation LOADW `o` loads into its tile (R140). -/
def loadDigit (o : TileOp) : Nat × Nat :=
  if ldComplex o.word then (o.slot % 2, ldDw o.word - 1)
  else if ldSpread o.word then (0, posIn (ldTmask o.word) o.slot)
  else (0, ldDw o.word - 1)

/-- Component and digit row of the set in its planes. -/
def Dev.planeRow (d : Dev) (e planes dw c p i : Nat) : List Int :=
  sInts 1 (d.sram e (planes + 4096 * (c * dw + p) + 64 * i) 64)

/-- The 64 rows of component `c`, digit `p` of a set: from its planes, else the shadow (R139). -/
def Dev.setRows (d : Dev) (e t : Nat) (w : WSet) (c p : Nat) : Levels :=
  match w.planes with
  | some a => (upTo 64).map (fun i => (i, d.planeRow e a w.dw c p i))
  | none => Levels.all (d.slot e t).shadow

/-! ### Forming a set -/

/-- Bytes of the source of LOADW `w` with index entry `ix`. -/
def loadBytes (w : Tw) (ix : Option (List Byte)) : Nat :=
  match ix with
  | some ix => spNblk ix * (ldRowBytes w)
  | none => ldRowBytes w * ldRows w

/-- Bytes of the source of LOADW `w` from `off`: at WADDR, or in the buffer of its stream context from the first
byte that has not been credited (log entry 24). -/
def Dev.loadLive (d : Dev) (e : Nat) (w : Tw) (off n : Nat) : List Byte :=
  if ldSrc w then
    let s := (d.ctx (8 * e + ldCtx w)).desc
    if s.ring then
      let k := d.rdLe (sramBase e + s.credit) 8
      (upTo n).map (fun i => d.rd (sramBase e + s.buf + (k + off + i) % s.bufsz))
    else d.sram e (s.buf + off) n
  else d.sram e (ldWaddr w + off) n

/-- Bytes of the source of LOADW `num`, of task word `w`, from `off`: those taken from its context, if they have been. -/
def Dev.loadSource (d : Dev) (e num : Nat) (w : Tw) (off n : Nat) : List Byte :=
  match (tget (d.eng e).work num {}).src with
  | some b => slice b off n
  | none => d.loadLive e w off n

/-- The block of the packed data that stands at PRESENT bit `b`, counted among the present ones. -/
def packedIndex (ix : List Byte) (b : Nat) : Nat :=
  (upTo b).foldl (fun n i => n + b2n ((getLe ix 0 8).testBit i)) 0

/-- The source as rows of weights: the rows of a dense load, or the full image of a sparse one (R172, R173). -/
def Dev.loadRows (d : Dev) (e num : Nat) (w : Tw) (ix : Option (List Byte)) : List (Nat × List (Int × Int)) :=
  match ix with
  | none => (upTo (ldRows w)).map (fun k =>
      (ldRow0 w + k, weightElems (ldFmt w) (d.loadSource e num w (k * ldRowBytes w) (ldRowBytes w))))
  | some ix =>
    (upTo 64).map (fun i =>
      (i, (upTo 8).flatMap (fun lg =>
        let b := 8 * (i / 8) + lg
        if (getLe ix 0 8).testBit b then
          weightElems (ldFmt w)
            (d.loadSource e num w (packedIndex ix b * ldRowBytes w + i % 8 * (ldRowBytes w / 8)) (ldRowBytes w / 8))
        else List.replicate 8 (0, 0))))

/-- R72: −128 (CI8) and −32,768 (CI16) become −127 and −32,767. -/
def fixPart (w : Tw) (x : Int) : Int :=
  if ldFmt w = 4 && x = -128 then -127 else if ldFmt w = 5 && x = -32768 then -32767 else x

/-- Components of a weight: itself, or A + B, A and B (R59). -/
def weightComps (w : Tw) (x : Int × Int) : List Int :=
  if ldComplex w then
    let a := fixPart w x.1
    let b := fixPart w x.2
    [a + b, a, b]
  else [x.1]

/-- A source weight passes the range check (R67, R72, R138). -/
def weightOk (w : Tw) (x : Int × Int) : Bool :=
  (weightComps w x).all (fun m => weightInRange m (ldDw w)) && (ldFmt w != 0 || weightInRange x.1 1)

/-- Rows of component `c`, digit `p` formed from source rows; with DW > 1 all 64 rows (R140). -/
def formRows (w : Tw) (src : List (Nat × List (Int × Int))) (c p : Nat) : Levels :=
  let dig (r : List (Int × Int)) : List Int :=
    r.map (fun x => weightDigit ((weightComps w x).getD c 0) (ldDw w) p)
  if 1 < ldDw w then
    (upTo 64).map (fun i => (i, ((tfind src i).map dig).getD (List.replicate 64 0)))
  else src.map (fun r => (r.1, dig r.2))

/-- Rows of component `c` that a partial DW = 1 load leaves: what the tiles hold (R139). -/
def Dev.keptRow (d : Dev) (e : Nat) (w : Tw) (c i : Nat) : List Int :=
  let lo := ((upTo 4).find? (bit (ldTmask w))).getD 0
  let row (t : Nat) : List Int := Levels.row (d.slot e t).shadow i
  let full (l : List Int) : List Int := (upTo 64).map (fun j => l.getD j 0)
  if c = 0 then full (row lo) else if c = 1 then full (row (lo + 1))
  else (upTo 64).map (fun j => (row lo).getD j 0 - (row (lo + 1)).getD j 0)

/-- The digit planes of LOADW `w` written to engine SRAM (R139). -/
def Dev.writePlanes (d : Dev) (e : Nat) (w : Tw) (src : List (Nat × List (Int × Int))) : Dev :=
  let comps := if ldComplex w then 3 else 1
  (upTo comps).foldl (fun d c =>
    (upTo (ldDw w)).foldl (fun d p =>
      let rows := formRows w src c p
      (upTo 64).foldl (fun d i =>
        let r := (tfind rows i).getD (d.keptRow e w c i)
        d.wrBytes (sramBase e + ldPlanes w + 4096 * (c * ldDw w + p) + 64 * i)
          (r.map (fun x => BitVec.ofNat 8 (unsx 8 x)))) d) d) d

/-- Task word `num`'s work in unit `u` ends without completing. -/
def Engine.dropLive (x : Engine) (num : Nat) : Engine := { x with live := x.live.filter (·.1 != num) }

/-- The tiles of discarded LOADW `n` go back to the sets they had before its decode. -/
def Engine.restoreSets (x : Engine) (n : Nat) : Engine :=
  { x with slots := (tget x.work n {}).prev.foldl (fun m p =>
      tset m p.1 { tget m p.1 ({} : Slot) with wset := p.2 }) x.slots }

/-- A LOADW fails: it and every later tile operation on its tiles are discarded, the tiles keep their set
(R132, R139, R145). What its plane area then holds is free (log entry 159). -/
def Dev.loadFails (d : Dev) (e : Nat) (o : TileOp) : Dev :=
  let uses (n : Nat) (t : Nat) : Bool := o.num ≤ n && bit (ldTmask o.word) t
  let d := d.taskError e errWrange 1 o.addr
  -- The plane area holds undefined contents (R139).
  let (k, d) := d.fresh
  let d := if ldUsesPlanes o.word then
      d.wrBytes (sramBase e + ldPlanes o.word) ((upTo (4096 * ((if ldComplex o.word then 3 else 1) * ldDw o.word))).map
        (fun i => BitVec.ofNat 8 (Config.openResult 1 [k, i])))
    else d
  let x := d.eng e
  let gone := (x.issueq.filter (fun p => uses p.num p.slot)).map (·.num)
  let onMac := (x.macq.filter (fun j => match j.piece with
    | .sens os => os.any (fun p => uses p.num p.slot)
    | .rest p => uses p.num p.slot
    | .range p _ => uses p.num p.slot
    | _ => false)).map (·.num)
  let nums := (gone ++ onMac).eraseDups
  let loads := ((x.issueq.filter (fun p => nums.contains p.num && p.op = 1)).map (·.num)).eraseDups
  let x := loads.reverse.foldl Engine.restoreSets x
  let x := { x with
    issueq := x.issueq.filter (fun p => !(nums.contains p.num))
    macq := x.macq.filter (fun j => !(nums.contains j.num)) }
  d.setEng e (nums.foldl (fun x n => x.dropLive n) x)

/-- LOADW `o` forms its set: range check, planes, and the rows each of its tiles takes (R139). -/
def Dev.loadForm (d : Dev) (e : Nat) (o : TileOp) : Dev :=
  let w := o.word
  let ix := o.wset.bind (·.sparse)
  let src := d.loadRows e o.num w ix
  if src.any (fun r => r.2.any (fun x => !weightOk w x)) then d.loadFails e o
  else
    let fixes := if ldComplex w then
      src.foldl (fun n r => r.2.foldl (fun n x => n + b2n (fixPart w x.1 != x.1) + b2n (fixPart w x.2 != x.2)) n) 0
      else 0
    let d := d.bump .ENG_CNT_RANGEFIX e 0 fixes
    let d := if ldUsesPlanes w then d.writePlanes e w src else d
    d.modEng e (fun x => { x with
      issueq := x.issueq.map (fun p =>
        if p.num = o.num then { p with rows := formRows w src (loadDigit p).1 (loadDigit p).2 } else p)
      work := tset x.work o.num { tget x.work o.num {} with formed := true } })

/-- The rows a formed LOADW writes on a tile: a sparse DW = 1 load writes the rows of used row groups and
those that held a non-zero level (R173). -/
def loadWrites (s : Slot) (o : TileOp) : Levels :=
  match o.wset.bind (·.sparse) with
  | some ix =>
    if ldDw o.word = 1 then
      o.rows.filter (fun r => spOb ix (r.1 / 8) != 0xFFFF || !(Levels.row s.shadow r.1).isEmpty)
    else o.rows
  | none => o.rows

/-- The source bytes of a LOADW have arrived: at once from SRAM, from a context once it has placed them. -/
def Dev.loadArrived (d : Dev) (e : Nat) (o : TileOp) : Bool :=
  let c := d.ctx (8 * e + ldCtx o.word)
  let have_ := if c.desc.ring then c.placed - d.rdLe (sramBase e + c.desc.credit) 8 else c.prog * c.desc.esize
  !ldSrc o.word || (tget (d.eng e).work o.num {}).src.isSome || loadBytes o.word (o.wset.bind (·.sparse)) ≤ have_

/-- The pass of context `n` ends: the rows that the LOADW next in turn takes from its buffer are taken, if all have arrived
(R140). -/
def Dev.takeSource (d : Dev) (n : Nat) : Dev :=
  let e := n / 8
  let x := d.eng e
  match x.issueq.find? (fun o => o.op = 1 && ldSrc o.word && ldCtx o.word = n % 8 && !(tget x.work o.num {}).formed) with
  | some o =>
    let k := tget x.work o.num {}
    if n < 256 && k.src.isNone && d.loadArrived e o then
      d.setEng e { x with work := tset x.work o.num { k with
        src := some (d.loadLive e o.word 0 (loadBytes o.word (o.wset.bind (·.sparse)))) } }
    else d
  | none => d

end Sys2Proof.Machine
end

