-- ==== Sys2Proof/Machine/Streams.lean ====
section
/-!
DEFINITION. Stream contexts (chapter 7): descriptors and arming (R202–R206, R217), the words shared with the task lists
(R207), reading ahead and placing (R213–R215), gates (R208), passes and re-arm (R211), fork multicast (R219–R222),
the pool's watchdog (R218), and DRAM errors (R195–R197).
-/
namespace Sys2Proof.Machine

/-! ### Descriptors (R204–R206) -/

/-- The fields of a 96-byte descriptor. -/
def Desc.ofBytes (b : List Byte) : Desc :=
  let f (byte lo len : Nat) : Nat := fld (getLe b byte 4) lo len
  let nd := f 1 0 3 + 1
  { kind := f 0 0 4, persist := f 0 4 1 = 1, ring := f 0 5 1 = 1, cache := f 0 6 2, ndim := nd
    gateEn := f 1 3 1 = 1, esize := f 2 0 16, gate := f 4 0 5, resv := f 5 0 8, slack := f 6 0 4
    ct := f 6 4 3, forkn := f 7 0 4, base := getLe b 8 8
    counts := (upTo nd).map (fun i => getLe b (16 + 8 * i) 4)
    strides := (upTo nd).map (fun i => sx 32 (getLe b (20 + 8 * i) 4))
    buf := getLe b 56 4, bufsz := getLe b 60 4, prog := getLe b 64 4, credit := getLe b 68 4
    gaprec := getLe b 72 4
    members := (upTo (f 7 0 4)).map (fun m =>
      let w := getLe b (80 + 2 * m) 2
      (w / 2 ^ 14, 8 * fld w 9 5 + fld w 6 3)) }

/-- Elements of a pass (R206). -/
def Desc.total (s : Desc) : Nat := s.counts.foldl (· * ·) 1

/-- Sum of the dimensions' distances for element `i`, dimension 0 fastest. -/
def patDist : List Nat → List Int → Nat → Int
  | c :: cs, s :: ss, i => (i % c : Nat) * s + patDist cs ss (i / c)
  | _, _, _ => 0

/-- Address of element `i` of a pass (R206). -/
def Desc.addr (s : Desc) (i : Nat) : Nat := unsx 64 ((s.base : Int) + patDist s.counts s.strides i)

/-- Lowest and highest element address of the pattern, as integers. -/
def Desc.hull (s : Desc) : Int × Int :=
  (s.counts.zip s.strides).foldl (fun (h : Int × Int) p =>
    let x := ((p.1 : Int) - 1) * p.2
    (h.1 + min 0 x, h.2 + max 0 x)) ((s.base : Int), (s.base : Int))

/-- The pattern reaches a reserved device address (R205). Consecutive elements lie less than 2^31 apart in some
order, so a pattern whose ends lie on two sides of a reserved range also has an element within it. -/
def Desc.reachesReserved (s : Desc) : Bool :=
  let (lo, hi) := s.hull
  lo < 0 || (2 ^ 41 : Nat) ≤ hi || lo.toNat / 2 ^ 39 != hi.toNat / 2 ^ 39
    || !usableRange (lo.toNat % 2 ^ 39) (hi.toNat - lo.toNat + s.esize)

/-- Bytes of a fronthaul pass buffer: the distance between two of them (log entry 23). -/
def Desc.passBytes (s : Desc) : Nat := (s.strides.getD 0 0).natAbs

/-- The engine SRAM areas a context names: buffer, progress, credit and gap record. -/
def Desc.areas (s : Desc) : List (Nat × Nat) :=
  [(s.buf, s.bufsz), (s.prog, 8)] ++ (if s.ring then [(s.credit, 8)] else [])
    ++ (if s.kind = 2 then [(s.gaprec, 32)] else [])

/-- Two of the areas overlap. -/
def overlapping : List (Nat × Nat) → Bool
  | [] => false
  | a :: as => as.any (fun b => a.1 < b.1 + b.2 && b.1 < a.1 + a.2) || overlapping as

/-- Byte offset in its descriptor of the first field that breaks R204 or R205 for context `n`. The records of a pass
buffer are structures of 8 bytes or more (R11; log entry 193). -/
def Dev.descFault (d : Dev) (n : Nat) (b : List Byte) : Option Nat :=
  let s := Desc.ofBytes b
  let f (byte lo len : Nat) : Nat := fld (getLe b byte 4) lo len
  let fh := 256 ≤ n
  let forks := 0 < s.forkn
  let area (at_ : Nat) : Bool := s.areas.any (fun a => a.1 = at_ && 0x800000 < a.1 + a.2)
  let dims : List (Bool × Nat) := (upTo 5).flatMap (fun i =>
    let at_ := 16 + 8 * i
    [(if s.kind = 2 || s.ndim ≤ i then getLe b at_ 4 != 0 else s.counts.getD i 1 = 0, at_),
     ((s.kind = 2 || s.ndim ≤ i) && getLe b (at_ + 4) 4 != 0, at_ + 4),
     (fh && i = 0 && s.strides.getD 0 0 % 8 != 0, at_ + 4)])
  let sram : List (Bool × Nat) :=
    if fh then (upTo 20).map (fun i => (getLe b (56 + i) 1 != 0, 56 + i))
    else
      [(s.buf % 64 != 0 || area s.buf, 56),
       (s.bufsz % 64 != 0 || s.bufsz % max 1 s.esize != 0 || (!s.ring && s.kind != 2 && s.bufsz < s.total * s.esize), 60),
       (s.prog % 8 != 0 || area s.prog, 64),
       (s.credit % 8 != 0 || (!s.ring && s.credit != 0) || (s.ring && area s.credit), 68),
       (s.kind = 2 && (s.gaprec % 32 != 0 || area s.gaprec), 72), (overlapping s.areas, 56)]
  let members : List (Bool × Nat) := (upTo 8).map (fun m =>
    let w := getLe b (80 + 2 * m) 2
    (if s.forkn ≤ m then w != 0 else fld w 0 6 != 0 || s.members.getD m (0, 0) == (d.ownDev, n), 80 + 2 * m))
  let head : List (Bool × Nat) :=
    [(4 < s.kind || (fh != decide (3 ≤ s.kind)) || s.cache = 3, 0),
     (5 < s.ndim || f 1 4 4 != 0 || (s.gateEn && s.kind != 0), 1),
     (s.esize = 0 || 8192 < s.esize || (fh && s.esize % 64 != 0), 2), (f 4 5 3 != 0, 4), (s.resv = 0, 5),
     ((forks && s.slack = 0) || f 6 7 1 != 0, 6),
     (8 < s.forkn || (forks && s.kind != 0 && s.kind != 3) || f 7 4 4 != 0, 7),
     (if s.kind = 2 then getLe b 8 8 != 0 else s.reachesReserved || (fh && s.base % 8 != 0), 8)]
  ((head ++ dims ++ sram ++ [(getLe b 76 4 != 0, 76)] ++ members).find? (fun (x : Bool × Nat) => x.1)).map (fun (x : Bool × Nat) => x.2)

/-- A descriptor for context `n` that breaks R204 or R205. -/
def Dev.descBad (d : Dev) (n : Nat) (b : List Byte) : Bool := (d.descFault n b).isSome

/-! ### The pool (R200, R213, R217) -/

/-- Contexts that are armed: all that are not IDLE. -/
def Dev.armedCtxs (d : Dev) : Tbl Ctx := d.str.ctxs.filter (fun c => c.2.st != .idle)

/-- Pool bytes owned as reserves (R217). -/
def Dev.poolReserved (d : Dev) : Nat := d.armedCtxs.foldl (fun n c => n + c.2.desc.resv * 4096) 0

/-- Bytes of the shared part not in use. -/
def Dev.sharedFree (d : Dev) : Nat :=
  d.poolSize - d.poolReserved - d.armedCtxs.foldl (fun n c => n + (c.2.pool - c.2.desc.resv * 4096)) 0

/-- The reserve of a full arm of `n` would leave less than 1 MiB unreserved (R217). -/
def Dev.reserveShort (d : Dev) (n resv : Nat) : Bool :=
  let others := (d.armedCtxs.filter (·.1 != n)).foldl (fun s c => s + c.2.desc.resv * 4096) 0
  d.poolSize < others + resv * 4096 + 2 ^ 20

/-! ### The words of R207 -/

/-- SRAM base of an engine context. -/
def ctxSram (n : Nat) : Nat := sramBase (n / 8)

/-- PROG written; a fronthaul context has no progress word in SRAM. -/
def Dev.writeProg (d : Dev) (n : Nat) : Dev :=
  let c := d.ctx n
  if 256 ≤ n then d else d.wrLe (ctxSram n + c.desc.prog) 8 c.prog

/-- Source of a context's log entries (R459). -/
def srcCtx (n : Nat) : Nat := if n < 256 then srcEngine (n / 8) else srcPackage

/-- The transfers of context `n` whose data the watchdog has spilled are given up with it. -/
def Dev.dropSpilled (d : Dev) (n : Nat) : Dev :=
  { d with peers := { d.peers with xfers := d.peers.xfers.filter (fun t => t.spill.isNone || (match t.for_ with
      | .stream k _ _ _ => k != n
      | _ => true)) } }

/-- A context enters FAULT (R212): 0 poison, 1 credit, 2 transfer, 3 spill area full. -/
def Dev.streamFault (d : Dev) (n reason addr : Nat) : Dev :=
  let c := d.ctx n
  let d := (d.dropSpilled n).setCtx n { c with st := .fault, issueTs := [], arrived := [], fin := [], spillArr := [] }
  let d := d.logNow (srcCtx n) 0x0301 [(2, n), (1, reason), (8, addr)]
  d.event c.mbx 8 (srcCtx n) [(2, n), (1, reason), (8, addr)] d.time

/-- CREDIT as the context reads it now: none where it is impossible. -/
def Dev.creditOf (d : Dev) (n : Nat) : Option Nat :=
  let c := d.ctx n
  let k := d.rdLe (ctxSram n + c.desc.credit) 8
  if k < c.creditSeen || (c.desc.kind != 1 && c.placed < k) then none else some k

/-- Free bytes of the buffer of a READ or FORK_RX, or bytes ready in that of a WRITE (R206, R207). -/
def Dev.space (d : Dev) (n : Nat) : Option Nat :=
  let c := d.ctx n
  if c.desc.ring then
    (d.creditOf n).map (fun k => if c.desc.kind = 1 then k - c.placed else c.desc.bufsz - (c.placed - k))
  else some (if c.desc.kind = 1 then c.desc.total * c.desc.esize - c.prog * c.desc.esize
    else c.desc.bufsz - c.prog * c.desc.esize)

/-- CREDIT has been read: the largest value seen so far. -/
def Dev.noteCredit (d : Dev) (n : Nat) : Dev :=
  let c := d.ctx n
  match c.desc.ring, d.creditOf n with
  | true, some k => d.setCtx n { c with creditSeen := k }
  | _, _ => d

/-- Where in the buffer the next element is placed or taken. -/
def Ctx.at (c : Ctx) : Nat :=
  c.desc.buf + (if c.desc.ring then c.placed % c.desc.bufsz else c.prog * c.desc.esize)

/-! ### Fork multicast (R219–R222) -/

/-- Elements still owed to some joined member; the others are let go, and with them a READ's pool lines. -/
def Ctx.prune (c : Ctx) : Ctx :=
  let joined := c.members.filter (·.joined)
  let keep := c.elems.filter (fun e => joined.any (fun m => m.next ≤ e.no))
  let gone := (c.elems.filter (fun e => !(joined.any (fun m => m.next ≤ e.no)))).foldl
    (fun n (e : Elem) => if e.spill.isSome then n else n + e.len) 0
  { c with elems := keep, pool := if c.desc.kind = 0 then c.pool - gone else c.pool }

/-- The batch for peer device `dev` sent as one FORK (R402). -/
def Dev.flushBatch (d : Dev) (n dev : Nat) : Dev :=
  let c := d.ctx n
  match tfind c.batches dev with
  | some b =>
    let first := ((upTo 8).find? (fun m => bit b.mask m)).getD 0
    (d.setCtx n { c with batches := tdrop c.batches dev }).sendFork n dev b.mask ((c.desc.members.getD first (0, 0)).2)
      b.poison b.data
  | none => d

/-- An element for the members `mask` added to the batch for their peer device (R402). The members of one batch take all of
it, so the batch of another set of members is sent first; a poisoned element travels by itself (log entry 187). -/
def Dev.addBatch (d : Dev) (n dev mask : Nat) (poison : Bool) (bs : List Byte) : Dev :=
  let d := match tfind (d.ctx n).batches dev with
    | some b => if b.mask != mask || b.poison || poison || 65536 < b.data.length + bs.length then d.flushBatch n dev else d
    | none => d
  let c := d.ctx n
  let b := (tfind c.batches dev).getD { mask, poison, data := [], first := d.time }
  let d := d.setCtx n { c with batches := tset c.batches dev { b with data := b.data ++ bs } }
  if b.data.length + bs.length = 65536 then d.flushBatch n dev else d

/-- FORK_FLUSH: a batch leaves FLUSH after its first element (R402); FLUSH 0 acts as 1. -/
def Dev.forkFlush (d : Dev) (n dev : Nat) : Dev :=
  match tfind (d.ctx n).batches dev with
  | some b =>
    if b.first * 10000 + max 1 (d.rf .PRT_PEER_CFG 0 16) * 1966080 ≤ d.time * 10000 then d.flushBatch n dev else d
  | none => d

/-- An element written into the ring of FORK_RX context `k` of this device. -/
def Dev.placeFork (d : Dev) (k : Nat) (bs : List Byte) (counts : Bool) : Dev :=
  let c := d.ctx k
  let d := d.wrBytes (ctxSram k + c.at) (bs.take c.desc.esize)
  let d := d.setCtx k { c with
    placed := c.placed + c.desc.esize, prog := c.prog + b2n counts, st := .active }
  if counts then d.writeProg k else d

/-- A Tollgate of the hub cache or of a memory channel that `len` bytes at `a` pass stands frozen (R222). -/
def Dev.memFrozen (d : Dev) (a len : Nat) : Bool :=
  (upTo ((a % 256 + len + 255) / 256)).any (fun i =>
    let b := 256 * (blockOf a + i)
    d.tgFrozen (16 + bankOf b) || d.tgFrozen (16 + bankOf (b + 128)) || d.tgFrozen (channelOf b))

/-- The way of element `e` to a member on device `dev` is stopped by a freeze (R222): at the peer port, or at the memory that
a catch-up read passes. -/
def Dev.pathFrozen (d : Dev) (dev : Nat) (e : Elem) : Bool :=
  if dev = d.ownDev then e.data = [] && e.spill.isNone && d.memFrozen e.addr e.len
  else match d.portTo dev with
    | some p => d.tgFrozen (48 + p)
    | none => false

/-- The bytes of an element for requester `who`, whether they are poisoned, and the device once they are read: held by the
source, from the spill area, or by a catch-up read from the pass buffer (R218, R219). -/
def Dev.elemRead (d : Dev) (n who : Nat) (e : Elem) : List Byte × Bool × Dev :=
  let from_ (who a : Nat) : List Byte × Bool × Dev :=
    let (bs, d) := d.hubRead who a e.len
    (bs, d.poisoned a e.len, d)
  match e.spill with
  | some a => from_ n a
  | none => if e.data = [] then from_ who e.addr else (e.data, e.poison, d)

/-- A context to which what it has requested may still come: one that moves elements, or is spilled (R218). -/
def Ctx.receives (c : Ctx) : Bool :=
  c.st = .active || c.st = .waitSpace || c.st = .waitPool || c.st = .waitGate || c.st = .spilled

/-- A context that moves elements. -/
def Ctx.moves (c : Ctx) : Bool :=
  c.st = .active || c.st = .waitSpace || c.st = .waitPool || c.st = .waitGate

/-- One element offered to member `m` of source `n` on this device: delivered if it is the member's next, there is space,
no freeze stops it and the member is not stopped (R212). A member whose catch-up read finds poison enters FAULT (R196). -/
def Dev.offer (d : Dev) (n m : Nat) (e : Elem) : Dev :=
  let c := d.ctx n
  let x := c.members.getD m {}
  let (dev, k) := c.desc.members.getD m (0, 0)
  if dev != d.ownDev || !x.joined || !(d.ctx k).moves || e.no != x.next || d.pathFrozen dev e then d
  else
    let d := d.noteCredit k
    match d.space k with
    | none => d.streamFault k 1 (ctxSram k + (d.ctx k).desc.credit)
    | some free =>
      if free < (d.ctx k).desc.esize then d.setCtx k { d.ctx k with st := .waitSpace }
      else
        let (bs, poison, d) := d.elemRead n k e
        if (d.ctx k).st = .fault then d
        else if poison then d.streamFault k 0 e.addr
        else
          let d := d.placeFork k bs (e.pass = c.passNo)
          d.setCtx n { d.ctx n with members := c.members.set m { x with next := e.no + 1 } }

/-- One element offered to the members of source `n` on peer device `dev`: those whose next it is and that have space take it
together (R402). -/
def Dev.offerPeer (d : Dev) (n dev : Nat) (e : Elem) : Dev :=
  let c := d.ctx n
  let takes (m : Nat) : Bool :=
    let x := c.members.getD m {}
    (c.desc.members.getD m (0, 0)).1 = dev && x.joined && e.no = x.next && e.len ≤ x.space
  let ms := (upTo c.members.length).filter takes
  if ms = [] || d.pathFrozen dev e then d
  else
    let (bs, poison, d) := d.elemRead n n e
    let d := d.setCtx n { d.ctx n with members := ms.foldl (fun l m =>
      let x := l.getD m {}
      l.set m { x with next := e.no + 1, space := x.space - e.len, emptied := false }) c.members }
    d.addBatch n dev (ms.foldl (fun a m => a + 2 ^ m) 0) poison bs

/-- Every element a source holds offered in order to every member (R219): not while it is spilled (R218), and up to one that
is poisoned, at which the source enters FAULT once those before it are delivered (R196). -/
def Dev.feed (d : Dev) (n : Nat) : Dev :=
  if (d.ctx n).st = .spilled then d
  else
    let d := ((d.ctx n).elems.takeWhile (fun e => !e.poison)).foldl (fun d e =>
      let d := (upTo (d.ctx n).members.length).foldl (fun d m => d.offer n m e) d
      ((upTo 4).filter (· != d.ownDev)).foldl (fun d dev => d.offerPeer n dev e) d) d
    let d := d.setCtx n (d.ctx n).prune
    match (d.ctx n).elems with
    | e :: _ => if e.poison && (d.ctx n).st != .fault then d.streamFault n 0 e.addr else d
    | [] => d

/-- The pass buffer of source `n` lies in this device's memory, where its members find what they have not taken at once. -/
def Ctx.keepsLocal (d : Dev) (c : Ctx) : Bool := c.desc.kind = 3 && d.isLocal c.desc.base

/-- A new element of source `n`: held for its joined members, missed by the dropped ones. Members of an FH_IN source that
lack space now take it later from the pass buffer (R219). -/
def Dev.forkPush (d : Dev) (n ts addr len : Nat) (data : List Byte) : Dev :=
  let c := d.ctx n
  if c.members = [] then d
  else
    let e : Elem := { no := c.elemCount, ts, addr, len, data, pass := c.passNo }
    let d := (d.setCtx n { c with
      elems := c.elems ++ [e], elemCount := c.elemCount + 1
      members := c.members.map (fun m =>
        if m.dropped then { m with missed := m.missed + 1, gapLast := ts } else m) }).feed n
    if Ctx.keepsLocal d c then
      d.setCtx n { d.ctx n with elems := (d.ctx n).elems.map (fun e => { e with data := [] }) }
    else d

/-- The FORK event of a drop or a rejoin (R430). -/
def Dev.forkEvent (d : Dev) (n m kind cause tsFirst : Nat) : Dev :=
  let c := d.ctx n
  let (dev, k) := c.desc.members.getD m (0, 0)
  d.event c.mbx 7 (srcCtx n) [(2, n), (2, k), (1, dev), (1, kind), (1, cause), (8, tsFirst)] d.time

/-- The gap record of a member of this device (R221). -/
def Dev.gapRecord (d : Dev) (n k tsFirst tsLast missed cause : Nat) : Dev :=
  d.wrBytes (ctxSram k + (d.ctx k).desc.gaprec)
    (leBytes 8 tsFirst ++ leBytes 8 tsLast ++ leBytes 4 missed ++ leBytes 2 n ++ leBytes 1 cause ++ zeros 9)

/-- Member `m` of source `n` is dropped (R220, R221). -/
def Dev.dropMember (d : Dev) (n m cause : Nat) : Dev :=
  let c := d.ctx n
  let x := c.members.getD m {}
  let (dev, k) := c.desc.members.getD m (0, 0)
  let lost := c.elems.filter (fun e => x.next ≤ e.no)
  let tsFirst := (lost.head?.map (·.ts)).getD (c.issueTs.headD d.time)
  let tsLast := (lost.getLast?.map (·.ts)).getD tsFirst
  let d := d.setCtx n ({ c with members := c.members.set m { x with
    joined := false, dropped := true, gapFirst := tsFirst, gapLast := tsLast, missed := lost.length
    gapCause := cause, heard := false, emptied := false } } : Ctx).prune
  -- A member in FAULT leaves it by a full arm only (R212).
  let d := if dev = d.ownDev then
      (if (d.ctx k).st = .fault then d else d.setCtx k { d.ctx k with st := .dropped }).gapRecord n k tsFirst (2 ^ 64 - 1) 0
        cause
    else d
  let d := (d.bump .STRM_CNT_GAP).logNow (srcCtx n) 0x0303 [(2, n), (2, k), (1, cause)]
  d.forkEvent n m 0 cause tsFirst

/-- A member joins or rejoins at a pass start of its source, or counts its new pass (R219, R221). -/
def Dev.memberPass (d : Dev) (n m : Nat) : Dev :=
  let c := d.ctx n
  let x := c.members.getD m {}
  let (dev, k) := c.desc.members.getD m (0, 0)
  let r := d.ctx k
  let zero (d : Dev) (st : CtxState) : Dev :=
    -- A re-arm of the member that is held takes effect at its pass start (R159); its BASE is unused.
    (d.setCtx k { d.ctx k with prog := 0, joined := true, rearm := none, st }).writeProg k
  if dev = d.ownDev then
    if x.joined then
      let st := (d.ctx k).st
      -- A member stopped in FAULT stays so until a full arm (R212).
      if st = .fault then d else zero d (if st = .passEnd then .active else st)
    else if x.dropped then
      if r.st = .dropped && r.desc.kind = 2 && d.space k = some r.desc.bufsz then
        let d := d.setCtx n { c with members := c.members.set m { joined := true, next := c.elemCount } }
        let d := (zero d .active).gapRecord n k x.gapFirst x.gapLast x.missed x.gapCause
        d.forkEvent n m 1 x.gapCause x.gapFirst
      else d
    else if r.desc.kind = 2 && r.desc.persist && r.st = .active && !r.joined then
      zero (d.setCtx n { c with members := c.members.set m { joined := true, next := c.elemCount } }) .active
    else d
  else if x.joined then d
  else if x.heard && (!x.dropped || x.emptied) then
    let d := d.setCtx n { c with
      members := c.members.set m { x with joined := true, dropped := false, next := c.elemCount } }
    if x.dropped then d.forkEvent n m 1 x.gapCause x.gapFirst else d
  else d

/-- A pass of a context begins: its members join, rejoin or start their pass. -/
def Dev.beginPass (d : Dev) (n : Nat) : Dev :=
  let d := d.setCtx n { d.ctx n with passNo := (d.ctx n).passNo + 1 }
  (upTo (d.ctx n).members.length).foldl (fun d m => d.memberPass n m) d

/-- The sources and member numbers that name context `k` of this device. -/
def Dev.sourcesOf (d : Dev) (k : Nat) : List (Nat × Nat) :=
  d.str.ctxs.flatMap (fun c =>
    ((upTo c.2.members.length).filter (fun m => c.2.desc.members.getD m (0, 0) = (d.ownDev, k))).map
      (fun m => (c.1, m)))

/-- Context `k` starts afresh for its fork sources: no source counts it until its next pass start. -/
def Dev.unlinkMember (d : Dev) (k : Nat) : Dev :=
  (d.sourcesOf k).foldl (fun d s =>
    let c := d.ctx s.1
    d.setCtx s.1 ({ c with members := c.members.set s.2 {} } : Ctx).prune) d

/-- A fork source that ends leaves its members of this device. -/
def Dev.unlinkSource (d : Dev) (n : Nat) : Dev :=
  (d.ctx n).desc.members.foldl (fun d m =>
    if m.1 = d.ownDev && (d.ctx m.2).joined then d.setCtx m.2 { d.ctx m.2 with joined := false } else d) d

/-! ### Arming (R203, R211, R212) -/

/-- A full arm is accepted (R212). -/
def Ctx.takesArm (c : Ctx) : Bool := c.st = .idle || c.st = .passEnd || c.st = .dropped || c.st = .fault

/-- A re-arm is accepted (R159, R211). The rules name no re-arm of a persistent context in FAULT; it is refused (log entry
170). -/
def Ctx.takesRearm (c : Ctx) : Bool :=
  c.st != .idle && c.st != .fault && c.desc.persist && c.desc.kind != 3 && c.rearm.isNone

/-- A full arm of context `n`, its conditions met, by the mailbox `mbx` (R203, R206). -/
def Dev.armCtx (d : Dev) (n : Nat) (b : List Byte) (mbx : Nat) : Dev :=
  let s := Desc.ofBytes b
  let d := (d.unlinkMember n).unlinkSource n
  let c : Ctx := { st := .active, desc := s, mbx, armed := d.str.nextArm
                   members := List.replicate s.forkn {}, firstPass := d.nextBoundary s.ct d.time }
  let d := { d.setCtx n c with str := { (d.setCtx n c).str with nextArm := d.str.nextArm + 1 } }
  if s.kind ≤ 1 then (d.writeProg n).beginPass n else if s.kind = 2 then d.writeProg n else d

/-- A re-arm takes effect (R211): PROG is 0 before any element of the new pass moves. -/
def Dev.rearmNow (d : Dev) (n base : Nat) : Dev :=
  let c := d.ctx n
  let d := d.setCtx n { c with
    st := .active, desc := { c.desc with base }, issued := 0, prog := 0, rearm := none, issueTs := []
    arrived := [], fin := [] }
  if 256 ≤ n then d else (d.writeProg n).beginPass n

/-- A re-arm: at once in PASS_END, held otherwise (R159, R211). -/
def Dev.rearm (d : Dev) (n base : Nat) : Dev :=
  if (d.ctx n).st = .passEnd then d.rearmNow n base else d.setCtx n { d.ctx n with rearm := some base }

/-- A context enters IDLE and releases its reserve; members of a fork source that ends are dropped by R220. -/
def Dev.idleCtx (d : Dev) (n : Nat) : Dev := ((d.dropSpilled n).unlinkSource n).setCtx n {}

/-- STRM_DISARM (R426): the context stops after the element in flight and enters IDLE. Joined members of a fork
source are dropped, and a member is no longer counted by its source. -/
def Dev.disarm (d : Dev) (n : Nat) : Dev :=
  let d := (upTo (d.ctx n).members.length).foldl
    (fun d m => if ((d.ctx n).members.getD m {}).joined then d.dropMember n m 0 else d) d
  (d.unlinkMember n).idleCtx n

/-! ### Gates (R208) -/

/-- The address ranges that fronthaul context `g` opens to a gated READ (R208): the present pass buffer up to the frontier,
and the pass buffers whose pass has ended and that have not been overwritten (log entry 171). -/
def Ctx.gateRanges (g : Ctx) : List (Nat × Nat) :=
  let at_ (i : Nat) : Nat := unsx 64 ((g.desc.base : Int) + i * g.desc.strides.getD 0 0)
  (match g.pass with
    | some k =>
      let i := (k % (g.desc.counts.getD 0 1 : Int)).toNat
      [(at_ i, at_ i + g.frontier)]
    | none => []) ++ g.ended.map (fun p => (at_ p.1, at_ p.1 + g.desc.passBytes))

/-- The bytes from `a` to before `z` lie in the ranges; each range is used at most once. -/
def covered : Nat → List (Nat × Nat) → Nat → Nat → Bool
  | 0, _, a, z => z ≤ a
  | fuel + 1, rs, a, z =>
    z ≤ a || (match rs.find? (fun r => r.1 ≤ a && a < r.2) with
      | some r => covered fuel (rs.erase r) r.2 z
      | none => false)

/-- Every one of `len` bytes at device address `a` lies in a pass buffer of `g` that has been written so far (R208). -/
def Dev.gateOpen (d : Dev) (g : Ctx) (a len : Nat) : Bool :=
  let rs := g.gateRanges.map (fun r => (d.localAddr r.1, d.localAddr r.1 + (r.2 - r.1)))
  covered rs.length rs a (a + len)

/-! ### READ contexts (R213, R214) -/

/-- What lies between a READ and its next element: `active` where it can be requested now. -/
def Dev.readWait (d : Dev) (n : Nat) : CtxState :=
  let c := d.ctx n
  let s := c.desc
  let resv := s.resv * 4096
  match d.space n with
  | none => .fault
  | some free =>
    if free < (c.issueTs.length + 1) * s.esize then .waitSpace
    else if s.gateEn && !(d.gateOpen (d.ctx (256 + s.gate)) (d.localAddr (s.addr c.issued)) s.esize) then .waitGate
    else if c.pool + s.esize ≤ resv then .active
    else if resv + 262144 < c.pool + s.esize then .waitSpace
    else if d.sharedFree < c.pool + s.esize - max resv c.pool then .waitPool
    else .active

/-- Blocks of element `i` that the run it continues has already requested (R213): its first one, where the element before it
lies just below it and ends in the same block. -/
def Desc.merged (s : Desc) (i : Nat) : Nat :=
  let a := s.addr i
  b2n (0 < i && s.addr (i - 1) + s.esize = a && a % 256 != 0)

/-- A READ requests its next element, or enters the state that says why it cannot. -/
def Dev.readIssue (d : Dev) (n : Nat) : Dev :=
  let d := d.noteCredit n
  let c := d.ctx n
  let s := c.desc
  if s.total ≤ c.issued then d
  else
    match d.readWait n with
    | .fault => d.streamFault n 1 (ctxSram n + s.credit)
    | .active =>
      let a := s.addr c.issued
      let d := d.setCtx n { c with
        issued := c.issued + 1, pool := c.pool + s.esize, issueTs := c.issueTs ++ [d.time], st := .active }
      if d.isLocal a then d.hubAccess n (globalLocal a) s.esize false (s.merged c.issued)
      else d.sendXfer n 1 a s.esize [] (.stream n c.armed c.issued 1) (fun d => d.streamFault n 2 a)
    | .waitSpace =>
      -- With data still in flight the context is moving elements; it waits once none is.
      d.setCtx n { c with st := if c.issueTs = [] then .waitSpace else .active }
    | st => d.setCtx n { c with st }

/-- The data of a READ's oldest outstanding element placed (R214): bytes, then PROG, then its fork members. -/
def Dev.placeRead (d : Dev) (n : Nat) (bs : List Byte) : Dev :=
  let c := d.ctx n
  let s := c.desc
  let ts := c.issueTs.headD d.time
  let d := d.wrBytes (ctxSram n + c.at) bs
  let d := d.setCtx n { c with
    prog := c.prog + 1, placed := c.placed + s.esize, issueTs := c.issueTs.drop 1
    pool := if c.members = [] then c.pool - s.esize else c.pool }
  (d.writeProg n).forkPush n ts (s.addr c.prog) s.esize bs

/-- The elements of a READ that have come and follow the prefix placed so far: placed in order, up to one that is poisoned
(R196, R214); `fuel` bounds them. -/
def Dev.placeArrived (d : Dev) (n : Nat) : Nat → Dev
  | 0 => d
  | fuel + 1 =>
    let c := d.ctx n
    match c.arrived.find? (·.1 = c.prog) with
    | none => d
    | some (i, poison, bs) =>
      if poison then d.streamFault n 0 (c.desc.addr i)
      else ((d.setCtx n { c with arrived := c.arrived.filter (·.1 != i) }).placeRead n bs).placeArrived n fuel

/-- The data of element `i` of a READ from a peer arrives: data come in any order and are placed in pattern order (R214),
by a spilled context once it has read its data back (R218). -/
def Dev.remoteArrive (d : Dev) (n i : Nat) (poison : Bool) (bs : List Byte) : Dev :=
  let c := d.ctx n
  let d := d.setCtx n { c with arrived := c.arrived ++ [(i, poison, bs)] }
  if c.st = .spilled then d else d.placeArrived n (c.arrived.length + 1)

/-- Data arrives for the oldest outstanding element of a READ from this device's memory: one that touches a poisoned
block puts the context in FAULT after every element before it (R196). -/
def Dev.readArrive (d : Dev) (n : Nat) : Dev :=
  let c := d.ctx n
  let a := c.desc.addr c.prog
  if c.issueTs = [] || !d.isLocal a then d
  else if d.poisoned (globalLocal a) c.desc.esize then d.streamFault n 0 (globalLocal a)
  else
    let (bs, d) := d.devRead n (globalLocal a) c.desc.esize
    d.placeRead n bs

/-! ### WRITE contexts (R214, R215) -/

/-- Bytes of element `i` steps ahead of the next one of a WRITE. -/
def Dev.writeElem (d : Dev) (n i : Nat) : List Byte :=
  let c := d.ctx n
  let s := c.desc
  let off := if s.ring then (c.placed + i * s.esize) % s.bufsz else (c.prog + i) * s.esize
  d.rdBytes (ctxSram n + s.buf + off) s.esize

/-- `k` elements of a WRITE are complete. -/
def Dev.writeDone (d : Dev) (n k : Nat) : Dev :=
  let c := d.ctx n
  (d.setCtx n { c with prog := c.prog + k }).writeProg n

/-- The completed runs that follow the prefix counted so far join it (R207); `fuel` bounds them. -/
def Dev.joinPrefix (d : Dev) (n : Nat) : Nat → Dev
  | 0 => d
  | fuel + 1 =>
    let c := d.ctx n
    match c.fin.find? (·.1 = c.prog) with
    | some (i, k) => ((d.setCtx n { c with fin := c.fin.filter (·.1 != i) }).writeDone n k).joinPrefix n fuel
    | none => d

/-- A transfer of elements `first`…`first + k − 1` of a WRITE to a peer is complete: PROG counts the completed prefix alone
(R207). -/
def Dev.writeFinish (d : Dev) (n first k : Nat) : Dev :=
  let c := d.ctx n
  (d.setCtx n { c with fin := c.fin ++ [(first, k)] }).joinPrefix n (c.fin.length + 1)

/-- What keeps a WRITE from taking `len` more bytes into the pool: nothing, or lines beyond its reserve (R215, R217). -/
def Dev.writeRoom (d : Dev) (n len : Nat) : Bool :=
  let c := d.ctx n
  let resv := c.desc.resv * 4096
  c.pool + len - max resv c.pool ≤ d.sharedFree

/-- One element of a WRITE to this device's memory becomes visible. -/
def Dev.writeLocal (d : Dev) (n : Nat) : Dev :=
  let d := d.noteCredit n
  let c := d.ctx n
  let s := c.desc
  if s.total ≤ c.prog then d
  else
    match d.space n with
    | none => d.streamFault n 1 (ctxSram n + s.credit)
    | some ready =>
      if ready < s.esize then d.setCtx n { c with st := .waitSpace }
      -- Its lines are taken and, once the hub cache has accepted the bytes, free again within the step (R215).
      else if !d.writeRoom n s.esize then d.setCtx n { c with st := .waitPool }
      else
        let a := s.addr c.prog
        let bs := d.writeElem n 0
        let d := d.setCtx n { c with
          placed := c.placed + s.esize, issued := c.issued + 1, st := .active }
        let d := d.hubWrite n (globalLocal a) bs
        d.writeDone n 1

/-- How many ready elements from the next on lie one after another, up to 64 KiB (R213, R215). -/
def runLength (s : Desc) (first ready : Nat) : Nat → Nat → Nat
  | 0, k => k
  | fuel + 1, k =>
    if first + k < s.total && (k + 1) * s.esize ≤ ready && (k + 1) * s.esize ≤ 65536
      && s.addr (first + k) = s.addr first + k * s.esize then runLength s first ready fuel (k + 1) else k

/-- A WRITE to another device collects a transfer of contiguous elements and sends it (R215). -/
def Dev.writeRemote (d : Dev) (n : Nat) : Dev :=
  let d := d.noteCredit n
  let c := d.ctx n
  let s := c.desc
  match d.space n with
  | none => d.streamFault n 1 (ctxSram n + s.credit)
  | some ready =>
    let k := runLength s c.issued ready 65536 0
    if s.total ≤ c.issued then d
    else if k = 0 then d.setCtx n { c with st := if c.prog = c.issued then .waitSpace else .active }
    else if !d.writeRoom n (k * s.esize) then d.setCtx n { c with st := .waitPool }
    else
      let off (i : Nat) : Nat := if s.ring then (c.placed + i * s.esize) % s.bufsz else (c.issued + i) * s.esize
      let bs := (upTo k).flatMap (fun i => d.rdBytes (ctxSram n + s.buf + off i) s.esize)
      let d := d.setCtx n { c with
        issued := c.issued + k, placed := c.placed + k * s.esize, pool := c.pool + k * s.esize, st := .active }
      d.sendXfer n 0 (s.addr c.issued) bs.length bs (.stream n c.armed c.issued k)
        (fun d => d.streamFault n 2 (s.addr c.issued))

/-! ### Passes (R211) -/

/-- Every element of the present pass of context `n` is complete, and every joined member has taken it; of an FH_OUT, its
pass buffer has been read and its records have joined the egress queue (R211, R394; log entry 196). -/
def Dev.passDone (d : Dev) (n : Nat) : Bool :=
  let c := d.ctx n
  if c.desc.kind ≤ 1 then c.desc.total ≤ c.prog && c.elems = []
  else c.desc.kind = 4 && c.issued = 1 && c.arrived = []
    && !d.peers.xfers.any (fun x => match x.for_ with
      | .fhOut k _ _ _ => k = n
      | _ => false)

/-- A pass ends: PASS_END if persistent, else IDLE with the reserve released. The members here of a source that keeps its
membership end their pass with it: they are in PASS_END until its next pass starts (R211, R219; log entry 210). -/
def Dev.endPass (d : Dev) (n : Nat) : Dev :=
  let c := d.ctx n
  let d := d.takeSource n
  let d := if c.desc.persist then (upTo c.members.length).foldl (fun d m =>
      let (dev, k) := c.desc.members.getD m (0, 0)
      if dev = d.ownDev && (c.members.getD m {}).joined && (d.ctx k).moves then
        (d.writeProg k).setCtx k { d.ctx k with st := .passEnd }
      else d) d
    else d
  if c.desc.persist then (d.writeProg n).setCtx n { c with st := .passEnd } else (d.writeProg n).idleCtx n

/-! ### Waiting contexts (R207, R218) -/

/-- The contexts that wait for pool lines, and the shared part has room for none of them (R218). -/
def Dev.poolStuck (d : Dev) : Bool :=
  let w := d.str.ctxs.filter (fun c => c.2.st = .waitPool)
  2 ≤ w.length && w.all (fun c =>
    d.sharedFree < c.2.pool + c.2.desc.esize - max (c.2.desc.resv * 4096) c.2.pool)

/-- The watchdog's span starts, goes on or ends. -/
def Dev.watchPool (d : Dev) : Dev :=
  { d with str := { d.str with
      wdogFrom := if d.poolStuck then some (d.str.wdogFrom.getD d.time) else none } }

/-- A waiting context looks again for space, data, lines or its gate; what it reads of CREDIT it remembers (R207). -/
def Dev.resumeCtx (d : Dev) (n : Nat) : Dev :=
  let c := d.ctx n
  if c.st = .waitSpace || c.st = .waitPool || c.st = .waitGate then
    let d := d.noteCredit n
    let c := d.ctx n
    if c.desc.kind = 0 then
      let d := if c.elems = [] then d else d.feed n
      match d.readWait n with
      | .fault => d.streamFault n 1 (ctxSram n + c.desc.credit)
      | st => d.setCtx n { d.ctx n with st }
    else if c.desc.kind = 1 then
      match d.space n with
      | none => d.streamFault n 1 (ctxSram n + c.desc.credit)
      | some ready =>
        if c.desc.esize ≤ ready && d.writeRoom n c.desc.esize then d.setCtx n { c with st := .active } else d
    else if c.desc.kind = 2 then (d.sourcesOf n).foldl (fun d s => d.feed s.1) d
    else d
  else d

/-! ### The watchdog's spill (R218) -/

def Dev.spillBase (d : Dev) : Nat := d.rf .STRM_SPILL_LO 20 12 * 2 ^ 20 + d.rf .STRM_SPILL_HI 0 7 * 2 ^ 32
def Dev.spillSize (d : Dev) : Nat := d.rf .STRM_SPILL_LO 8 12 * 2 ^ 20

/-- The context the watchdog spills: the most recently fully armed of those that hold lines beyond their reserve
and wait for space or lines. -/
def Dev.spillVictim (d : Dev) : Option Nat :=
  let cand := d.str.ctxs.filter (fun c =>
    c.2.desc.resv * 4096 < c.2.pool && (c.2.st = .waitSpace || c.2.st = .waitPool))
  (cand.foldl (fun (b : Option (Nat × Ctx)) c =>
    match b with
    | none => some c
    | some x => if x.2.armed < c.2.armed then some c else b) none).map (·.1)

/-- Parts of the spill area that hold data of context `n`: address and length. -/
def Dev.spilledOf (d : Dev) (n : Nat) : List (Nat × Nat) :=
  (d.ctx n).elems.filterMap (fun e => e.spill.map (fun a => (a, e.len))) ++ (d.ctx n).spillArr.map (·.2)
    ++ d.peers.xfers.filterMap (fun t => match t.for_ with
      | .stream k _ _ _ => if k = n then t.spill.map (fun a => (a, t.len)) else none
      | _ => none)

/-- Parts of the spill area in use. -/
def Dev.spilled (d : Dev) : List (Nat × Nat) :=
  d.str.ctxs.flatMap (fun c => d.spilledOf c.1)

/-- The lowest place of `len` bytes in the spill area that overlaps none of the parts `used`. -/
def Dev.spillSpot (d : Dev) (used : List (Nat × Nat)) (len : Nat) : Option Nat :=
  let free (a : Nat) : Bool :=
    a + len ≤ d.spillBase + d.spillSize && used.all (fun u => a + len ≤ u.1 || u.1 + u.2 ≤ a)
  match (d.spillBase :: used.map (fun u => u.1 + u.2)).filter free with
  | [] => none
  | a :: as => some (as.foldl min a)

/-- A transfer of context `n` that holds pool lines: a WRITE that has not left (R215). -/
def Dev.holdsLines (d : Dev) (n : Nat) (t : Xfer) : Bool :=
  (!t.sent || t.held) && (match t.typ, t.for_ with
    | 0, .stream k arm _ _ => k = n && (d.ctx n).armed = arm
    | _, _ => false)

/-- Places in the spill area for pieces of the given lengths, in order: none for those that the first `keep` bytes hold; no
plan where the area has no place for one. `sum` bytes are kept so far. -/
def Dev.spillPlan (d : Dev) (keep : Nat) : Nat → List (Nat × Nat) → List Nat → Option (List (Option Nat))
  | _, _, [] => some []
  | sum, used, l :: ls =>
    if sum + l ≤ keep then (d.spillPlan keep (sum + l) used ls).map (none :: ·)
    else (d.spillSpot used l).bind (fun a => (d.spillPlan keep sum ((a, l) :: used) ls).map (some a :: ·))

/-- Staged data beyond the reserve copied, in order, to the spill area as ordinary cached lines: elements kept for members,
elements of a READ that wait for earlier ones, transfers of a WRITE that have not left. None where the area is full. -/
def Dev.spillElems (d : Dev) (n : Nat) : Option Dev :=
  let c := d.ctx n
  let mine := d.peers.xfers.filter (d.holdsLines n)
  let lens := c.elems.map (·.len) ++ c.arrived.map (fun _ => c.desc.esize) ++ mine.map (·.len)
  let data := c.elems.map (·.data) ++ c.arrived.map (·.2.2) ++ mine.map (·.data)
  (d.spillPlan (c.desc.resv * 4096) 0 d.spilled lens).map (fun plan =>
    let d := (plan.zip data).foldl (fun (d : Dev) p => match p.1 with
      | some a => d.hubWrite n a p.2
      | none => d) d
    let arr := c.arrived.zip ((plan.drop c.elems.length).take c.arrived.length)
    let out := mine.zip (plan.drop (c.elems.length + c.arrived.length))
    let moved := (plan.zip lens).foldl (fun s p => if p.1.isSome then s + p.2 else s) 0
    let c : Ctx := { c with
      elems := (c.elems.zip plan).map (fun p => match p.2 with
        | some a => { p.1 with spill := some a, data := [] }
        | none => p.1)
      arrived := arr.map (fun p => if p.2.isSome then (p.1.1, p.1.2.1, []) else p.1)
      spillArr := arr.filterMap (fun p => p.2.map (fun a => (p.1.1, (a, c.desc.esize))))
      pool := c.pool - moved, st := .spilled, spillSt := c.st }
    let d := out.foldl (fun (d : Dev) p => match p.2 with
      | some a => d.setXfer p.1 { p.1 with spill := some a, data := [] }
      | none => d) d
    ({ d with str := { d.str with spillUsed := d.str.spillUsed + moved } } : Dev).setCtx n c)

/-- One act of the watchdog. The log names the spilled context and the lowest-numbered other that waits. -/
def Dev.spill (d : Dev) : Dev :=
  match d.spillVictim with
  | none => d
  | some n =>
    let other := ((d.str.ctxs.filter (fun x => x.1 != n && x.2.st = .waitPool)).map (·.1)).headD n
    match d.spillElems n with
    | none => d.streamFault n 3 d.spillBase
    | some d => (d.bump .STRM_CNT_SPILL).logNow (srcCtx n) 0x0302 [(2, n), (2, other)]

/-- A spilled context reads its data back before any new data and returns to its former state. A poisoned block among them
takes the context to FAULT in its turn (R196): at once for a WRITE, whose transfers it belongs to. -/
def Dev.readBack (d : Dev) (n : Nat) : Dev :=
  let c := d.ctx n
  let parts := d.spilledOf n
  let sz := parts.foldl (fun s p => s + p.2) 0
  let d := parts.foldl (fun (d : Dev) p => d.hubAccess n p.1 p.2 false) d
  let back := d.peers.xfers.filter (fun t => d.holdsLines n t && t.spill.isSome)
  let elems := c.elems.map (fun e => match e.spill with
    | some a => { e with data := d.rdBytes a e.len, spill := none, poison := d.poisoned a e.len }
    | none => e)
  let arrived := c.arrived.map (fun x => match tfind c.spillArr x.1 with
    | some (a, len) => (x.1, d.poisoned a len, d.rdBytes a len)
    | none => x)
  let bad := back.find? (fun t => d.poisoned (t.spill.getD 0) t.len)
  let d := back.foldl (fun (d : Dev) t =>
    d.setXfer t { t with data := d.rdBytes (t.spill.getD 0) t.len, spill := none }) d
  let d := d.setCtx n { c with elems, arrived, spillArr := [], pool := c.pool + sz, st := c.spillSt }
  let d : Dev := { d with str := { d.str with spillUsed := d.str.spillUsed - sz } }
  match bad with
  | some t => d.streamFault n 0 (t.spill.getD 0)
  | none => (d.placeArrived n arrived.length).releaseHeld

/-! ### DRAM (R193, R195–R197) -/

/-- A block read by `who` finds an uncorrectable error: poisoned, counted and logged (R195). -/
def Dev.dramUe (d : Dev) (a who : Nat) : Dev :=
  let b := blockOf a
  let d := { d with str := { d.str with poison := if b ∈ d.str.poison then d.str.poison else b :: d.str.poison } }
  (d.bump .STRM_CNT_UE).logNow (srcTg (channelOf a)) 0x0201 [(8, 256 * b), (2, who)]

/-- A block read corrects `sectors` sectors; the block is queued for write-back if the queue of 64 has room. -/
def Dev.dramCe (d : Dev) (a sectors : Nat) : Dev :=
  let b := blockOf a
  let d := { d with str := { d.str with
    writeBack := if b ∈ d.str.writeBack || 64 ≤ d.str.writeBack.length then d.str.writeBack
      else d.str.writeBack ++ [b] } }
  d.bump .STRM_CNT_CE 0 0 sectors

end Sys2Proof.Machine
end

