-- ==== Sys2Proof/Machine/Lists.lean ====
section
/-!
DEFINITION. The course of a task list: fetching (R125), labels and the searches for them (R130), EXIT targets reached
(R182), ROUTE sections (R155), and going on after a task word.
-/
namespace Sys2Proof.Machine

/-- The task word at device address `a`; one in a poisoned block is a value the manual leaves open. -/
def Dev.twAt (d : Dev) (a : Nat) : Tw :=
  if d.poisoned a 32 then BitVec.ofNat 256 (Config.openResult 0x100 [a])
  else BitVec.ofNat 256 (ofLe ((upTo 32).map (fun i => if isUsable (a + i) then d.rd (a + i) else 0xFF#8)))

/-- The word that the sequencer of engine `e` decodes next (R114): the first in its prefetch buffer, else the one that device
memory holds at the PC. -/
def Dev.nextWord (d : Dev) (e : Nat) : Tw :=
  match (d.eng e).fetched with
  | w :: _ => w
  | [] => d.twAt (d.eng e).pc

/-- An empty prefetch buffer takes the next 64 task words that lie at usable addresses (R114, log entry 168). -/
def Dev.refill (d : Dev) (e : Nat) : Dev :=
  let x := d.eng e
  if x.fetched != [] then d
  else
    let n := ((upTo 64).filter (fun i => usableRange (x.pc + 32 * i) 32)).length
    (d.hubAccess (0x120 + e) x.pc (32 * n) false).modEng e (fun y => { y with
      fetched := (upTo n).map (fun i => d.twAt (x.pc + 32 * i)) })

/-- The outstanding EXITs whose TARGET is `label` are reached (R182): their items become active again, except
those another outstanding EXIT holds cleared. Inside a ROUTE section this is the mask to be restored. -/
def Engine.reach (x : Engine) (label : Nat) : Engine :=
  let (hit, rest) := x.exits.partition (fun r => r.target = label)
  let all (l : List ExitRec) : BitVec 256 := l.foldl (fun m r => m ||| r.cleared) 0#256
  let freed := all hit &&& ~~~(all rest)
  match x.route with
  | some r => { x with exits := rest, route := some { r with mask := r.mask ||| freed } }
  | none => { x with exits := rest, mask := x.mask ||| freed }

/-- The search of R130 from address `a`, over at most the given number of words: the word that carries `label`, with
the targets passed on the way reached; else the address of a word read from reserved addresses (R129), or nothing where
END comes first; with it the address up to which it has read. -/
def Dev.search (d : Dev) (label : Nat) : Nat → Nat → Engine → Except (Option Nat) Nat × Nat × Engine
  | 0, a, x => (.error none, a, x)
  | fuel + 1, a, x =>
    let w := d.twAt a
    if !usableRange a 32 then (.error (some a), a, x)
    else if twLbl w && twLabel w = label then (.ok a, a + 32, x)
    else if twEnd w then (.error none, a + 32, x)
    else d.search label fuel (a + 32) (if twLbl w then x.reach (twLabel w) else x)

/-- Largest number of task words of a list (R125). -/
def maxWords : Nat := 1048576

/-- Task words of the running list from address `a` on that R125 allows. -/
def Engine.wordsLeft (x : Engine) (a : Nat) : Nat :=
  match x.run with
  | some r => maxWords - (a - r.plc.list) / 32
  | none => 0

/-- Engine `e` continues at `label`, searched from `a`; a label that is not found stops the word at `at_` of
opcode `op` with FLOW, a search that reaches reserved addresses with ADDR (R129). The words it reads pass the hub cache
(R17). -/
def Dev.goto (d : Dev) (e label a op at_ : Nat) : Dev :=
  let (r, z, x) := d.search label ((d.eng e).wordsLeft a) a (d.eng e)
  let d := (d.hubAccess (0x120 + e) a (z - a) false).setEng e x
  match r with
  | .ok p => d.setEng e { x with pc := p, fetched := [] }
  | .error none => d.taskError e errFlow op at_
  | .error (some b) => (d.logReserved (0x120 + e) b 32).taskError e errAddr op at_

/-- The 1 KiB gate vector of a section (R155). -/
def gateBytes (g : Tbl Nat) : List Byte := (upTo 256).flatMap (fun i => leBytes 4 (tget g i 0))

/-- The next section of the ROUTE in progress, or JOIN after the last (R155). -/
def Dev.nextSection (d : Dev) (e : Nat) : Dev :=
  let x := d.eng e
  match x.route with
  | none => d
  | some r =>
    match r.left with
    | (label, sel, gates) :: rest =>
      ((d.wrBytes (sramBase e + r.wout) (gateBytes gates)).setEng e { x with
        mask := sel, inSection := true, route := some { r with left := rest } }).goto e label r.from_ 7 (r.from_ - 32)
    | [] =>
      (d.setEng e { x with mask := r.mask, inSection := false, route := none }).goto e r.join r.from_ 7 (r.from_ - 32)

/-- The word being decoded has been passed on or satisfied: END ends decoding, RET ends a section, else the next
word follows. A word without work in a unit is complete and counts. -/
def Dev.advance (d : Dev) (e : Nat) (counts : Bool) : Dev :=
  let x := d.eng e
  match x.run with
  | none => d
  | some r =>
    let d := d.setEng e { x with hold := .none }
    let d := if counts then d.bump .ENG_CNT_TW e else d
    if twEnd x.cur then d.modEng e (fun x => { x with run := some { r with ended := true } })
    else if twRet x.cur then d.nextSection e
    else d.modEng e (fun x => { x with pc := x.pc + 32, fetched := x.fetched.drop 1 })

end Sys2Proof.Machine
end

