-- ==== Sys2Proof/Machine/Tollgates.lean ====
section
/-!
DEFINITION. Tollgate arbitration (chapter 9): classes, one hub cycle of a Tollgate, locked sequences, quotas and the
patrol scrubber's lift.
-/
namespace Sys2Proof.Machine

/-! ### Classes (R257, R258) -/

/-- A requester's class as TG_REQCLS holds it; 0x147–0x149 keep class 0. -/
def Dev.classOf (d : Dev) (who : Nat) : Nat :=
  if 0x147 ≤ who then 0 else d.rf .TG_REQCLS (2 * (who % 16)) 2 (who / 16)

/-- A class set, whether pinned or not. -/
def Dev.setClass (d : Dev) (who c : Nat) : Dev :=
  d.setReg .TG_REQCLS (setFld (d.reg .TG_REQCLS (who / 16)) (2 * (who % 16)) 2 c) (who / 16)

/-- The class of engine `e`'s contexts and sequencer now (R258). -/
def Dev.engClass (d : Dev) (e : Nat) : Nat :=
  match (d.eng e).run with
  | none => 1
  | some r =>
    match d.deadlineOf r.plc with
    | none => 1
    | some t => if t ≤ d.time + usTc (d.rf .TG_CLSCFG 0 16) then 3 else 2

/-- The CP re-evaluates engine `e`'s class; a pinned class stays. -/
def Dev.reclass (d : Dev) (e : Nat) : Dev :=
  let c := d.engClass e
  (((upTo 8).map (fun k => 8 * e + k)) ++ [0x120 + e]).foldl
    (fun d who => if who ∈ d.pinned || d.classOf who = c then d else d.setClass who c) d

/-- The class of a requester that is not pinned by R258. -/
def Dev.defaultClass (d : Dev) (who : Nat) : Nat :=
  if who < 0x100 then d.engClass (who / 8) else if who < 0x120 then 3
  else if who < 0x140 then d.engClass (who - 0x120) else if who = 0x140 then 1 else 2

/-! ### Settings of a Tollgate -/

/-- The guarded port: grants per cycle and units it holds (R256). -/
def tgPort (n : Nat) : Nat × Nat :=
  if n < 16 then (3, 32) else if n < 48 then (1, 4) else if n < 52 then (1, 2) else if n = 52 then (1, 8) else (1, 4)

def Dev.tgService (d : Dev) (n : Nat) : Bool := d.rf .TG_CFG 0 1 n = 0
def Dev.tgNth (d : Dev) (n : Nat) : Nat := max 2 (d.rf .TG_CFG 16 8 n)
def Dev.tgQuota (d : Dev) (n : Nat) : Nat := max 1 (d.rf .TG_CFG 24 8 n)
/-- Quota window in cycles (R263). -/
def Dev.tgWindow (d : Dev) (n : Nat) : Nat := 2 ^ min 12 (max 4 (d.rf .TG_CFG 12 4 n))
def Dev.tgWd (d : Dev) (n : Nat) : Nat := max 0x100 (d.rf .TG_LOCKWD 0 20 n)

/-- The CP sets TG_CFG.MODE (R264): QUOTA until the device is ready, on the Tollgates a test names, and on a peer port's
Tollgate while it is frozen for that port's recovery procedure (log entry 167); SERVICE otherwise. -/
def Dev.judgeMode (d : Dev) (n : Nat) : Dev :=
  let quota : Bool := !d.cp.device || bit d.cp.tgTest n || (48 ≤ n && n < 52 && d.tgFrozen n)
  d.setReg .TG_CFG (setFld (d.reg .TG_CFG n) 0 1 (if quota then 1 else 0)) n

/-! ### The patrol scrubber (R197, R265) -/

/-- DRAM blocks. -/
def scrubBlocks : Nat := dramEnd / 256
/-- Patrol period in Tc. -/
def Dev.scrubPeriod (d : Dev) : Nat := max 60 (d.rf .STRM_SCRUB 0 16) * 60 * tcPerSec

/-- Blocks the scrubber lags behind an even pace. -/
def Dev.scrubLag (d : Dev) : Nat :=
  min scrubBlocks ((d.time - d.str.scrubFrom) * scrubBlocks / d.scrubPeriod) - d.str.scrubNext

/-- The scrubber is lifted beyond 1 % of all blocks, until the lag falls below 0.5 %. -/
def Dev.scrubJudge (d : Dev) : Dev :=
  let lag := d.scrubLag
  { d with scrubLift := d.rf .STRM_SCRUB 31 1 = 1 &&
      (decide (scrubBlocks < lag * 100) || (d.scrubLift && decide (scrubBlocks ≤ lag * 200))) }

/-- Calibration traffic is lifted: less than CAL_MARGIN µs remain in the window of a calibration that is not
complete (R265). -/
def Dev.calLift (d : Dev) : Bool :=
  d.rgs.any (fun r => r.2.cal.isSome && d.time < r.2.winEnd
    && r.2.winEnd < d.time + usTc (d.rf .TG_CLSCFG 24 8))

def Dev.lifted (d : Dev) (who : Nat) : Bool :=
  (who = 0x147 && d.scrubLift) || (who = 0x148 && d.calLift)

/-! ### Choosing a grant (R259, R260) -/

/-- The oldest of some requests, the first among equals. -/
def oldest : List TReq → Option TReq
  | [] => none
  | r :: rs => match oldest rs with
    | none => some r
    | some b => if b.age < r.age then some b else some r

/-- Requests a grant may go to besides the owner's: no lock request while a sequence is alive. -/
def Tollgate.open_ (t : Tollgate) : List TReq :=
  (t.parked ++ t.presented).filter (fun r => t.lock.isNone || r.lock.isNone)

/-- Rule 1. -/
def Tollgate.rule1 (t : Tollgate) : Option TReq :=
  match t.lock with
  | some l => oldest ((t.parked ++ t.presented).filter (fun r => r.who = l.owner && r.lock.isNone))
  | none => none

/-- Rule 3. -/
def Dev.rule3 (d : Dev) (t : Tollgate) : Option TReq :=
  if 2 ≤ (t.last4.filter id).length then none else oldest (t.open_.filter (fun r => d.lifted r.who))

/-- Distance of requester `who` from the one last granted, round robin. -/
def rrDist (last who : Nat) : Nat := (who + 0x180 - last - 1) % 0x180

/-- Rule 4: the highest class among the requests not masked, round robin by requester, oldest first of one. -/
def Dev.rule4 (d : Dev) (t : Tollgate) : Option TReq :=
  let rs := t.open_.filter (fun r => !(t.masked.contains r.who))
  let top := rs.foldl (fun c r => max c (d.classOf r.who)) 0
  let cs := rs.filter (fun r => d.classOf r.who = top)
  let last := tget t.rr top 0x17F
  match cs with
  | [] => none
  | c :: cs' =>
    let best := cs'.foldl (fun b (r : TReq) => if rrDist last r.who < rrDist last b then r.who else b) c.who
    oldest (cs.filter (fun r => r.who = best))

/-- Rules 3 and 4. -/
def Dev.plainPick (d : Dev) (t : Tollgate) : Option TReq :=
  match d.rule3 t with
  | some r => some r
  | none => d.rule4 t

/-! ### A grant's effects -/

/-- The request leaves the queue it waits in. -/
def Tollgate.take (t : Tollgate) (r : TReq) : Tollgate :=
  if r ∈ t.parked then { t with parked := t.parked.erase r } else { t with presented := t.presented.erase r }

/-- A grant to a context that waits for a locked sequence opens it (R266), and its LOCKSEQ's hold ends. -/
def Dev.openLock (d : Dev) (n : Nat) (t : Tollgate) (r : TReq) : Dev × Tollgate :=
  match t.lock, (r :: t.parked ++ t.presented).find? (fun q => q.who = r.who && q.lock.isSome) with
  | none, some q =>
    let e := r.who / 8
    let x := d.eng e
    (match x.hold with
      | .lock c g _ _ => if 8 * e + c = r.who && g = n then d.advance e true else d
      | _ => d,
     { t with
        lock := some { owner := r.who, opened := t.cycle, pc := q.lock.getD 0 }
        parked := t.parked.filter (fun p => !(p.who = r.who && p.lock.isSome))
        presented := t.presented.filter (fun p => !(p.who = r.who && p.lock.isSome)) })
  | _, _ => (d, t)

/-- Base and size in records of a region's ring (R333). -/
def Dev.ringBase (d : Dev) (rg : Nat) : Nat :=
  fld (d.reg .MADC_RING_LO rg) 12 20 * 4096 + d.rf .MADC_RING_HI 0 7 rg * 2 ^ 32
def Dev.ringRecs (d : Dev) (rg : Nat) : Nat := 2 ^ d.rf .MADC_RING_LO 8 4 rg * 256

/-- The oldest record of the region's buffer reaches the ring. -/
def Dev.recordOut (d : Dev) (rg : Nat) : Dev :=
  let r := d.rgn rg
  match r.records with
  | [] => d
  | b :: bs =>
    (d.setRgn rg { r with records := bs, widx := (r.widx + 1) % 2 ^ 32 }).hubWrite 0x149
      (d.ringBase rg + 16 * (r.widx % d.ringRecs rg)) b

/-- Where the region's next record goes. -/
def Dev.recordSlot (d : Dev) (rg : Nat) : Nat := d.ringBase rg + 16 * ((d.rgn rg).widx % d.ringRecs rg)

/-- Requester 0x149 asks at the hub-cache bank of the region's next record (R257, R333). -/
def Dev.askRecord (d : Dev) (rg : Nat) : Dev :=
  if (d.rgn rg).records.isEmpty then d else d.present (16 + bankOf (d.recordSlot rg)) 0x149 none

/-- A grant of Tollgate `n` lets the next telemetry record of a region through that waits there (R333). -/
def Dev.drainRecord (d : Dev) (n : Nat) : Dev :=
  match d.rgs.find? (fun r => r.2.records != [] && 16 + bankOf (d.recordSlot r.1) = n) with
  | none => d
  | some (rg, _) => (d.recordOut rg).askRecord rg

/-- What a grant lets through: a block at a memory channel, a peer transfer, a TLP, a fronthaul frame, a telemetry
record. -/
def Dev.takeIn (d : Dev) (n : Nat) (r : TReq) : Dev :=
  let d := match r.mem with
    | some (a, w) => if n < 16 then d.emit (.dramRequest a w) else d
    | none => d
  let d := if 48 ≤ n && n < 52 then d.admitXfer (n - 48) r.who else d
  let d := if n = 52 then d.admitTlp r.who else d
  let d := if n = 53 then d.admitFrame r.who else d
  let d : Dev := if n < 16 && r.who = 0x147 && r.mem.any (!·.2) then { d with str := { d.str with scrubReq := 2 } } else d
  if r.who = 0x149 && r.mem.isNone then d.drainRecord n else d

/-- The quota counts and masks after a grant in QUOTA mode (R263): a mask that the owner of a locked sequence earns waits for
its close. -/
def Dev.countQuota (d : Dev) (n : Nat) (t : Tollgate) (who : Nat) : Dev × Tollgate :=
  if d.tgService n || d.classOf who != 3 then (d, t)
  else
    let k := tget t.quota who 0 + 1
    let t := { t with quota := tset t.quota who k }
    if d.tgQuota n ≤ k && !(t.lock.any (·.owner = who)) && !(t.masked.contains who) then
      (d.bump .TG_CNT_MASK n, { t with masked := who :: t.masked })
    else (d, t)

/-- Request `r` granted under a rule; `nth` the Nth grant, `plain` who would have won without it. -/
def Dev.grantOne (d : Dev) (n : Nat) (t : Tollgate) (r : TReq) (rule : Nat) (plain : Option TReq) : Dev × Tollgate :=
  -- A lifted requester's grant counts under whichever rule it wins (R259, R265).
  let lifted := d.lifted r.who
  let wait := t.cycle - r.age
  let t := t.take r
  let t := { t with
    held := if r.lock.isSome then t.held else t.held ++ [r.who]
    sinceNth := if rule = 1 then t.sinceNth else if rule = 2 then 0 else t.sinceNth + 1
    rr := tset t.rr (d.classOf r.who) r.who
    last4 := (lifted :: t.last4).take 4 }
  let d := d.bump .TG_CNT_GRANT n
  let d := if rule = 2 && plain != some r then d.bump .TG_CNT_NTH n else d
  let d := if lifted then d.bump .TG_CNT_LIFT n else d
  let d := if d.reg .TG_MAXWAIT n < wait then d.setReg .TG_MAXWAIT (min 0xFFFFFFFF wait) n else d
  let (d, t) := d.openLock n t r
  let (d, t) := d.countQuota n t r.who
  (d.takeIn n r, t)

/-- Up to `k` grants in one cycle. -/
def Dev.grantSlots (d : Dev) (n : Nat) (t : Tollgate) : Nat → Dev × Tollgate
  | 0 => (d, t)
  | k + 1 =>
    let (_, cap) := tgPort n
    if cap ≤ t.held.length || (n < 16 && t.allowance < 48) then (d, t)
    else
      let nth := d.tgService n && d.tgNth n ≤ t.sinceNth + 1
      let plain := d.plainPick t
      let choice : Option (TReq × Nat) :=
        match t.rule1 with
        | some r => some (r, 1)
        | none =>
          if d.tgFrozen n then none
          else if nth then (oldest t.open_).map (fun r => (r, 2))
          else match d.rule3 t with
            | some r => some (r, 3)
            | none => (d.rule4 t).map (fun r => (r, 4))
      match choice with
      | none => (d, t)
      | some (r, rule) =>
        let (d, t) := d.grantOne n t r rule plain
        d.grantSlots n { t with allowance := if n < 16 then t.allowance - 48 else t.allowance } k

/-! ### Parking (R261) -/

/-- The oldest presented request that may take an entry of the pending queue does so; `fuel` bounds the entries. -/
def Tollgate.park (t : Tollgate) : Nat → Tollgate
  | 0 => t
  | k + 1 =>
    if 16 ≤ t.parked.length then t
    else
      match oldest (t.presented.filter (fun r => (t.parked.filter (fun p => p.who = r.who)).length < 4)) with
      | none => t
      | some r => ({ t with parked := t.parked ++ [r], presented := t.presented.erase r } : Tollgate).park k

/-! ### Locked sequences -/

/-- The locked sequence ends, and the masks its grants caused take effect (R263). -/
def Dev.dropLock (d : Dev) (n : Nat) (t : Tollgate) : Dev × Tollgate :=
  let late := (t.quota.filter (fun q => d.tgQuota n ≤ q.2 && !t.masked.contains q.1)).map (·.1)
  (d.bump .TG_CNT_MASK n 0 late.length, { t with lock := none, masked := late ++ t.masked })

/-- A closing sequence ends once the owner has nothing outstanding at the Tollgate (R167). -/
def Dev.endLock (d : Dev) (n : Nat) (t : Tollgate) : Dev × Tollgate :=
  match t.lock with
  | some l =>
    if l.closing && !((t.parked ++ t.presented).any (·.who = l.owner)) && !t.held.contains l.owner then d.dropLock n t
    else (d, t)
  | none => (d, t)

/-- Every sequence a context of engine `e` holds closes, at once where its context has nothing outstanding at the Tollgate,
and its lock requests are withdrawn (R132, R167). -/
def Dev.closeLocks (d : Dev) (e : Nat) : Dev :=
  let mine (who : Nat) : Bool := who / 8 = e && who < 0x100
  let d : Dev := { d with tgs := d.tgs.map (fun p =>
      let t := p.2
      (p.1, { t with
        lock := t.lock.map (fun l => if mine l.owner then { l with closing := true } else l)
        parked := t.parked.filter (fun r => !(mine r.who && r.lock.isSome))
        presented := t.presented.filter (fun r => !(mine r.who && r.lock.isSome)) })) }
  (d.tgs.map (·.1)).foldl (fun d n =>
    let (d, t) := d.endLock n (d.tg n)
    d.setTg n t) d

/-- One hub cycle of Tollgate `n` (R256–R271): units complete, requests arrive, grants are made and losers park. What the grants
themselves cause to be presented here arrives in the next cycle. -/
def Dev.tgCycle (d : Dev) (n : Nat) (reqs : List Nat) (done : Nat) : Dev :=
  let d := if n < 16 then d.scrubJudge else d
  let t := d.tg n
  let t := { t with
    cycle := t.cycle + 1, held := t.held.drop done
    presented := t.presented ++ reqs.map (fun w => ({ who := w, age := t.cycle + 1 } : TReq))
    allowance := if n < 16 then min 172 (t.allowance + 125) else 0 }
  let hot := if n < 16 then tget d.th.steps (9 + n / 4) 0 else 0
  let k := if 10 - hot ≤ t.cycle % 10 then 0 else (tgPort n).1
  let (d, t) := (d.setTg n { t with presented := [] }).grantSlots n t k
  let t := t.park 16
  let d := d.bump .TG_CNT_FULL n 0 t.presented.length
  let t := { t with presented := t.presented ++ (d.tg n).presented }
  let (d, t) := d.endLock n t
  d.setTg n t

/-- A quota window ends: masks and counts restart (R263). -/
def Dev.quotaEnd (d : Dev) (n : Nat) : Dev :=
  let t := d.tg n
  if t.cycle % d.tgWindow n = 0 then d.setTg n { t with masked := [], quota := [] } else d

/-- The lock watchdog of Tollgate `n` (R268): the lock is aborted and the owner's list stops with LOCK_ABORT. -/
def Dev.lockAbort (d : Dev) (n : Nat) : Dev :=
  let t := d.tg n
  match t.lock with
  | some l =>
    if l.opened + d.tgWd n ≤ t.cycle then
      let (d, t) := d.dropLock n t
      let d := (d.setTg n t).bump .TG_CNT_LOCKABORT n
      let d := d.logNow (srcTg n) 0x0402 [(2, l.owner)]
      d.taskError (l.owner / 8) errLockAbort 0x0D l.pc
    else d
  | none => d

/-- TG_STATUS (R271). -/
def Dev.tgStatus (d : Dev) (n : Nat) : Nat :=
  let t := d.tg n
  b2n (d.tgFrozen n && t.lock.isNone && t.held.isEmpty) * 2 ^ 31 + b2n t.lock.isSome * 2 ^ 30
    + (match t.lock with | some l => l.owner | none => 0) * 2 ^ 16 + t.parked.length

end Sys2Proof.Machine
end

