-- ==== Sys2Proof/Machine/Converters.lean ====
section
/-!
DEFINITION. Converters (chapter 11): auxiliary DAC channels with their queues and waveforms, the heater injection
queue, and the monitor ADCs with their sequences, triggers and records.
-/
namespace Sys2Proof.Machine

/-! ### Auxiliary channels (R316–R323); channel 8 stands for the heater injection queue -/

def Dev.aux (d : Dev) (rg n : Nat) : Aux := tget (d.rgn rg).aux n {}
def Dev.setAux (d : Dev) (rg n : Nat) (a : Aux) : Dev :=
  d.setRgn rg { d.rgn rg with aux := tset (d.rgn rg).aux n a }

def Dev.auxRun (d : Dev) (rg n : Nat) : Bool := d.rf .DAC_AUX_CFG 16 1 rg n = 1
/-- MODE in use; the heater injection queue's is QUEUE (R323). -/
def Dev.auxMode (d : Dev) (rg n : Nat) : Nat := if n = 8 then 1 else d.rf .DAC_AUX_CFG 0 3 rg n

/-- The conditions of R320 for RUN = 1. -/
def auxValid (mode span low high step : Nat) : Bool :=
  mode ≤ 4 && span ≤ 2
    && (if mode = 2 || mode = 3 then decide (low < high) && decide (1 ≤ step) && (high - low) % step = 0
        else if mode = 4 then decide (low ≤ high) else true)

/-- The power-up value of a channel is applied (R312, R318; log entry 181). -/
def Dev.auxPowerUp (d : Dev) (rg n : Nat) : Dev :=
  let (span, code) := (tfind d.cp.auxRec (8 * rg + n)).getD (2, 0x8000)
  let d := d.setReg .DAC_AUX_CFG (setFld (d.reg .DAC_AUX_CFG rg n) 4 2 span) rg n
  d.setReg .DAC_AUX_CODE code rg n

/-- V = Vmin + code × S ÷ 65,536 of a span (R316), in 1/65,536 mV. -/
def auxVolts (span code : Nat) : Int :=
  let vmin : Int := if span = 2 then -2500 else 0
  let s : Int := if span = 0 then 2500 else 5000
  65536 * vmin + code * s

/-- The output voltage of an AUX channel (R316). -/
def Dev.auxVoltage (d : Dev) (rg n : Nat) : Int := auxVolts (d.rf .DAC_AUX_CFG 4 2 rg n) (d.rf .DAC_AUX_CODE 0 16 rg n)

/-- The voltage of pin AUX_DACk, which AUX7 of region `k` drives; none while it is high impedance (R317). -/
def Dev.auxPin (d : Dev) (k : Nat) : Option Int :=
  if d.cp.powered && d.cp.pwrgd then some (d.auxVoltage k 7) else none

/-- PERIOD as written acts within 49,152…49,152,000 (R319). -/
def Dev.auxPeriod (d : Dev) (rg n : Nat) : Nat := min 49152000 (max 49152 (d.rf .DAC_AUX_PERIOD 0 32 rg n))

/-- A sample instant ⌈k·PERIOD ÷ 25⌉ has come since the last one taken, or a forward step of device time, which makes one
update at the step (R319). -/
def Aux.due (a : Aux) (t : Nat) : Bool := a.stepped || 25 * t / a.period != 25 * a.sampled / a.period

/-- A step of device time to `t`: the schedule goes on from there (R319, R487). -/
def Aux.atStep (a : Aux) (forward : Bool) (t : Nat) : Aux := { a with sampled := t, stepped := forward }

/-- One step of the generator x^23 + x^18 + 1 (R320; log entry 58): the bit shifted out, and the state after it. -/
def noiseStep (s : Nat) : Nat × Nat := (s / 2 ^ 22 % 2, 2 * s % 2 ^ 23 + (s / 2 ^ 22 + s / 2 ^ 17) % 2)

/-- Sixteen steps: the bits shifted out, the first the most significant, and the state after them. -/
def noise16 (s : Nat) : Nat × Nat :=
  (upTo 16).foldl (fun x _ => (2 * x.1 + (noiseStep x.2).1, (noiseStep x.2).2)) (0, s)

/-- RUN changes (R321, R322); `m` is the mailbox that starts the channel. -/
def Dev.auxSetRun (d : Dev) (rg n : Nat) (on : Bool) (m : Nat) : Dev :=
  let was := d.auxRun rg n
  let d := d.setReg .DAC_AUX_CFG (setFld (d.reg .DAC_AUX_CFG rg n) 16 1 (b2n on)) rg n
  if on && !was then
    d.setAux rg n { d.aux rg n with
      begun := false, rising := true, empty := false, mbx := m, sampled := d.time, stepped := false
      period := d.auxPeriod rg n, lfsr := max 1 (d.rf .DAC_AUX_SEED 0 23 rg n) }
  else if !on && was then d.setAux rg n { d.aux rg n with queue := [], empty := false }
  else d

/-- A code is appended to a channel's queue (R321). -/
def Dev.auxPush (d : Dev) (rg n code : Nat) : Dev :=
  let a := d.aux rg n
  if 64 ≤ a.queue.length then
    d.setReg .DAC_AUX_STATUS (setFld (d.reg .DAC_AUX_STATUS rg n) 2 1 1) rg n
  else d.setAux rg n { a with queue := a.queue ++ [code % 65536] }

/-- The code in force; of the heater injection queue, the offset in force on the ring it is bound to (R323). -/
def Dev.auxOut (d : Dev) (rg n code : Nat) : Dev :=
  let d := d.setReg .DAC_AUX_CODE code rg n
  if n = 8 then
    match (d.rgn rg).hinj with
    | some (p, ring) => d.modPt p (fun x => { x with inj := x.inj.map (fun i =>
        if i.signal = 3 && i.ring = ring then { i with cur := sx 16 code } else i) })
    | none => d
  else d

/-- QUEUE mode at a sample instant (R321). -/
def Dev.auxTake (d : Dev) (rg n : Nat) : Dev :=
  let a := d.aux rg n
  match a.queue with
  | c :: q =>
    let d := (d.setAux rg n { a with queue := q, empty := false, begun := true }).auxOut rg n c
    let low := d.rf .DAC_AUX_CFG 8 6 rg n
    if low != 0 && q.length = low then
      d.event a.mbx 0x13 (srcRegion rg) [(1, rg), (1, n), (1, q.length)] d.time
    else d
  | [] =>
    let d := d.setReg .DAC_AUX_STATUS (setFld (d.reg .DAC_AUX_STATUS rg n) 1 1 1) rg n
    if a.empty then d
    else (d.setAux rg n { a with empty := true }).logNow (srcRegion rg) 0x0701 [(1, n)]

/-- AUX_SAMPLE_INSTANT: a running channel updates at a sample instant (R319–R323). -/
def Dev.auxSample (d : Dev) (rg n : Nat) : Dev :=
  let mode := d.auxMode rg n
  if !d.auxRun rg n || mode = 0 || !(d.aux rg n).due d.time then d
  else
    let d := d.setAux rg n { d.aux rg n with sampled := d.time, stepped := false, period := d.auxPeriod rg n }
    if mode = 1 then d.auxTake rg n else
    let a := d.aux rg n
    let low := d.rf .DAC_AUX_LIM 0 16 rg n
    let high := d.rf .DAC_AUX_LIM 16 16 rg n
    let step := d.rf .DAC_AUX_STEP 0 16 rg n
    let code := d.rf .DAC_AUX_CODE 0 16 rg n
    if mode = 4 then
      let (r, s) := noise16 a.lfsr
      let v := low + r * (high - low + 1) / 65536
      (d.setAux rg n { a with begun := true, lfsr := s }).auxOut rg n (v % 65536)
    else if !a.begun then (d.setAux rg n { a with begun := true, rising := true }).auxOut rg n low
    else if mode = 3 then d.auxOut rg n (if high < code + step then low else code + step)
    else
      let up := if a.rising then code < high else code ≤ low
      let v := if up then min high (code + step) else max low (code - step)
      (d.setAux rg n { a with rising := up }).auxOut rg n v

/-- Test injection on physical tile `p` ends: the ring's loop is restored, the capture marked truncated, and the heater
injection queue bound to it stopped and emptied (R305, R323, R357). -/
def Dev.endTest (d : Dev) (p : Nat) : Dev :=
  let rg := regionOfP p
  let d := d.modPt p (fun x => { x with
    inj := none, cap := { x.cap with active := false, trunc := x.cap.trunc || x.cap.active } })
  let bound : Bool := match (d.rgn rg).hinj with | some (q, _) => decide (q = p) | none => false
  if bound then
    ((d.setRgn rg { d.rgn rg with hinj := none }).auxSetRun rg 8 false 0).setAux rg 8 {}
  else d

/-! ### Monitor ADCs (R324–R333); converter 0 is A, 1 is B -/

def Dev.madc (d : Dev) (rg c : Nat) : Madc := tget (d.rgn rg).madc c {}
def Dev.setMadc (d : Dev) (rg c : Nat) (x : Madc) : Dev :=
  d.setRgn rg { d.rgn rg with madc := tset (d.rgn rg).madc c x }

/-- The entry word in progress. -/
def Dev.madcEntry (d : Dev) (rg c : Nat) : Nat :=
  let x := d.madc rg c
  if x.st = 2 then d.reg .MADC_C_INJ rg c x.entry else d.reg .MADC_C_REG rg c x.entry

/-- An entry begins at `start`, in 1/100 Tc; inputs 59–62 follow the spare of this instant (R331). -/
def Dev.beginEntry (d : Dev) (rg c : Nat) (x : Madc) (start : Nat) : Dev :=
  d.setMadc rg c { x with start, tile := d.spare rg }

/-- The first 62.5 ns boundary of the converter clock after now (R329; log entry 179). -/
def Madc.tick (x : Madc) (t : Nat) : Nat :=
  if 100 * t < x.start then x.start else x.start + ((100 * t - x.start) / 12288 + 1) * 12288

/-- Length of a round period in Tc (R327). -/
def Dev.roundPeriod (d : Dev) (rg c : Nat) : Nat := d.rf .MADC_C_RPER 0 16 rg c * 1536

/-- RUN of a converter changes (R327). -/
def Dev.madcSetRun (d : Dev) (rg c : Nat) (on : Bool) : Dev :=
  let x := d.madc rg c
  if on then
    let per := d.roundPeriod rg c
    let x : Madc := { x with round := d.time / per, waiting := per != 0, restart := false, due := false }
    if x.st = 0 then d.beginEntry rg c { x with st := 1, entry := 0 } (x.tick d.time)
    else d.setMadc rg c (if x.waiting || x.back.isSome then x else { x with back := some 0 })
  else if x.st = 1 then d.setMadc rg c { x with st := 0, waiting := false, due := false, restart := false }
  else d.setMadc rg c { x with back := none, waiting := false, due := false, restart := false }

/-- A trigger of cause bit `b` reaches converter `c` (R328–R330). -/
def Dev.madcTrigger (d : Dev) (rg c b : Nat) : Dev :=
  let cfg := d.reg .MADC_C_CFG rg c
  if !bit cfg (24 + b) || !bit cfg 19 then d
  else
    let x := d.madc rg c
    if x.st = 2 then
      match x.pend with
      | some t => (d.setMadc rg c { x with pend := some (t ||| 2 ^ b) }).bump .MADC_C_CNT_MERGE rg c
      | none => d.setMadc rg c { x with pend := some (2 ^ b) }
    else if x.st = 1 && !x.waiting then
      (d.beginEntry rg c { x with st := 2, entry := 0, cause := 2 ^ b, back := some x.entry, restart := true }
        (x.tick d.time)).bump .MADC_C_CNT_ABORT rg c
    else d.beginEntry rg c { x with st := 2, entry := 0, cause := 2 ^ b, back := none, restart := false } (x.tick d.time)

/-- A trigger reaches both converters of a region. -/
def Dev.madcTriggerRg (d : Dev) (rg b : Nat) : Dev := (d.madcTrigger rg 0 b).madcTrigger rg 1 b

/-- The next round of a converter's regular sequence, whose last ended at `t` (R327). -/
def Dev.madcNextRound (d : Dev) (rg c t : Nat) : Dev :=
  let x := d.madc rg c
  if d.rf .MADC_C_RPER 0 16 rg c = 0 then d.beginEntry rg c { x with entry := 0, due := false } t
  else if x.due then (d.beginEntry rg c { x with entry := 0, due := false } t).bump .MADC_C_CNT_OVERRUN rg c
  else d.setMadc rg c { x with entry := 0, waiting := true }

/-- Converter time runs on through a step of device time by `n` Tc: the entry in progress is counted in the new time, and the
next round starts at the next multiple of the period (R326, R327, R329; log entry 206). -/
def Madc.atStep (x : Madc) (n : Int) (per t : Nat) : Madc :=
  { x with start := (x.start + 100 * n).toNat, round := t / per }

/-- A write of RPERIOD: a converter that waits begins at once where rounds now follow each other without a gap, and waits for
the next multiple of the new period otherwise (R327). -/
def Dev.madcPeriod (d : Dev) (rg c v : Nat) : Dev :=
  let x := d.madc rg c
  let d := d.setReg .MADC_C_RPER (v % 65536) rg c
  let per := d.roundPeriod rg c
  let x : Madc := { x with round := d.time / per }
  if per = 0 && x.waiting then
    if x.st = 1 then d.beginEntry rg c { x with waiting := false, entry := 0 } (x.tick d.time)
    else d.setMadc rg c { x with waiting := false, back := some 0 }
  else d.setMadc rg c { x with due := x.due && per != 0 }

/-- MADC_ROUND_START: device time has come to a multiple of the round period (R327). -/
def Dev.madcRoundStart (d : Dev) (rg c : Nat) : Dev :=
  let x := d.madc rg c
  let per := d.roundPeriod rg c
  if per = 0 || x.st = 0 || d.time / per = x.round then d
  else
    let x : Madc := { x with round := d.time / per }
    if x.waiting && x.st = 1 then d.beginEntry rg c { x with waiting := false, entry := 0 } (100 * (x.round * per))
    else if x.waiting then d.setMadc rg c { x with waiting := false, back := some 0 }
    else if x.st = 2 && x.back.isNone then d.setMadc rg c x
    else d.setMadc rg c { x with due := true }

/-- Mean of a list, rounded half away from zero (R326). -/
def meanOf (l : List Int) : Int := roundAway (sumI l) (max 1 l.length)

/-- Added acquisition, and the whole of an entry's duration, in 1/100 Tc (R326). -/
def acqTime (w : Nat) : Nat := fld w 8 3 * 49152
def entryTime (w : Nat) : Nat := acqTime w + 2 ^ fld w 12 3 * 49152

/-- Signal of a monitor ADC's input (R324). -/
inductive MadcSignal where
  | line (l : Nat) | combPower (comb : Nat) | refDrop | marker | diode (ptile : Nat) | supply (k : Nat) | reference
  | spareSum (ptile k : Nat) | spareCurrent (ptile : Nat) | loop (channel : Nat)
  deriving DecidableEq, Repr

/-- Unit of a converted value (R324). -/
inductive MadcUnit where
  | centiDb | centiDbm | sixteenthC | mV | mA
  deriving DecidableEq, Repr

/-- The signal that input `k` of region `rg` carries (R324); inputs 59–62 follow the spare that the entry began on (R331). -/
def Dev.madcSignal (d : Dev) (rg : Nat) (x : Madc) (k : Nat) : MadcSignal :=
  if k < 32 then .line (2 * k + rg % 2)
  else if k < 34 then .combPower (k - 32)
  else if k = 34 then .refDrop
  else if k = 35 then .marker
  else if k < 52 then .diode (16 * rg + (k - 36))
  else if k = 52 then .diode (128 + rg)
  else if k < 58 then .supply (k - 53)
  else if k = 58 then .reference
  else if k < 62 then .spareSum x.tile (k - 59)
  else if k = 62 then .spareCurrent x.tile
  else .loop (d.rf .MADC_CFG 0 3 rg)

def MadcSignal.unit : MadcSignal → MadcUnit
  | .line _ => .centiDb
  | .combPower _ | .refDrop | .marker | .spareSum _ _ => .centiDbm
  | .diode _ => .sixteenthC
  | .supply _ | .reference | .loop _ => .mV
  | .spareCurrent _ => .mA

/-- The physical tile that a signal comes from. -/
def MadcSignal.tile : MadcSignal → Option Nat
  | .diode p | .spareSum p _ | .spareCurrent p => some p
  | _ => none

/-- The raw codes of an entry's `n` conversions: the measured ones, or of input 63 those that the voltage of the looped AUX
channel gives (R324; log entry 178). -/
def Dev.conversions (d : Dev) (rg c : Nat) (sig : MadcSignal) (n : Nat) (raws : List Nat) : List Nat × Dev :=
  match sig with
  | .loop ch =>
    let (k, d) := d.fresh
    ((upTo n).map (fun i => Config.loopCode rg c (d.auxVoltage rg ch) (k + i) % 4096), d)
  | _ => ((upTo n).map (fun i => raws.getD i 0 % 4096), d)

/-- A record enters the region's buffer; the first one there asks for its way to DRAM (R333). -/
def Dev.addRecord (d : Dev) (rg : Nat) (b : List Byte) : Dev :=
  let r := d.rgn rg
  if 64 ≤ r.records.length then d.bump .MADC_CNT_LOST rg
  else
    let d := d.setRgn rg { r with records := r.records ++ [b] }
    if r.records.isEmpty then d.askRecord rg else d

/-- MADC_ENTRY_COMPLETE: the entry in progress ends (R325–R333); `raws` are the raw codes of its conversions, taken on physical
tile `tile` where the input's signal comes from one: no other tile's codes complete the entry (R331). The input's factory
calibration gives each code its value, in the unit of R324. -/
def Dev.madcComplete (d : Dev) (rg c : Nat) (raws : List Nat) (tile : Nat) : Dev :=
  let x := d.madc rg c
  let w := d.madcEntry rg c
  let fin := x.start + entryTime w
  let sig := d.madcSignal rg x (fld w 0 6)
  if x.st = 0 || (x.st = 1 && x.waiting) || 100 * d.time < fin || sig.tile.any (· != tile) then d
  else
    let n := 2 ^ fld w 12 3
    let (codes, d) := d.conversions rg c sig n raws
    let raw := (meanOf (codes.map (fun (v : Nat) => (v : Int)))).toNat
    let value := unsx 16 (meanOf (codes.map (fun v => clampInt (-32768) 32767 (Config.madcValue rg c (fld w 0 6) v))))
    let lim := codes.any (fun v => v = 0 || v = 4095)
    let inj := x.st = 2
    -- The end of acquisition of the first conversion.
    let ts := (x.start + acqTime w + 12288 + 50) / 100
    let res := 2 ^ 31 + b2n lim * 2 ^ 30 + raw * 2 ^ 16 + value
    let d := if inj then d.setReg .MADC_C_IRES res rg c x.entry else d.setReg .MADC_C_RES res rg c x.entry
    let rec_ := leBytes 8 ts ++ leBytes 2 raw ++ leBytes 2 value
      ++ leBytes 1 (fld w 0 6 + 64 * c + 128 * b2n inj)
      ++ leBytes 1 (x.entry + 32 * b2n (x.restart && !inj) + 64 * b2n lim)
      ++ leBytes 1 (if inj then x.cause else 0) ++ leBytes 1 rg
    let d :=
      if !bit w 15 || d.rf .MADC_RING_LO 0 1 rg = 0 then d else d.addRecord rg rec_
    let x := d.madc rg c
    if inj then
      if x.entry < d.rf .MADC_C_CFG 16 3 rg c then d.beginEntry rg c { x with entry := x.entry + 1 } fin
      else match x.pend with
        | some t => d.beginEntry rg c { x with entry := 0, cause := t, pend := none } fin
        | none =>
          match x.back with
          | some b => d.beginEntry rg c { x with st := 1, entry := b, cause := 0, back := none } fin
          | none => d.beginEntry rg c { x with
              st := if x.waiting then 1 else 0, entry := 0, cause := 0, restart := false } fin
    else
      let d := d.setMadc rg c { x with restart := false }
      if x.entry < d.rf .MADC_C_CFG 8 5 rg c then d.beginEntry rg c { d.madc rg c with entry := x.entry + 1 } fin
      else d.madcNextRound rg c fin

end Sys2Proof.Machine
end

