-- ==== Sys2Proof/Machine/Convert.lean ====
section
/-!
DEFINITION. Tile conversions: forming them (R142–R146, R175, R178–R180), windows (R43–R51, R103), the saturation
policy (R52–R57), the confidence gate with re-reads, budget and fallback (R79–R86), quiet mode (R90–R92), and
the waiting and redirection of tile operations (R117).
-/
namespace Sys2Proof.Machine

/-! ### Inputs -/

/-- Elements of an input segment of `w`, with imaginary parts where complex. -/
def inputElems (w : Tw) (bs : List Byte) : List (Int × Int) :=
  if twOp w = 3 then (if mvXfmt w = 1 then pairs (sInts 1 bs) else pairs (sInts 2 bs))
  else if mvXfmt w = 0 then (nibbles bs).map (·, 0)
  else if mvXfmt w = 1 then (sInts 1 bs).map (·, 0)
  else (sInts 2 bs).map (·, 0)

/-- All elements of vector `v`. -/
def Dev.inputVec (d : Dev) (e : Nat) (w : Tw) (v : Nat) : List (Int × Int) :=
  inputElems w (d.sram e (mvXaddr w + v * mvXstride w) (mvNseg w * mvSegBytes w))

/-- The elements of vector `v` of operation `num` on slot `t`: from the input buffer where they stand there, else fed
from engine SRAM (R100, R103). -/
def Dev.fedVec (d : Dev) (e t num : Nat) (w : Tw) (v : Nat) : List (Int × Int) :=
  match (d.slot e t).inbuf with
  | some (n, u, xs) => if n = num && u = v then xs else d.inputVec e w v
  | none => d.inputVec e w v

/-- Segments of a vector: 64 elements each, or the one gathered for a sparse set (R175). -/
def segsOf (ix : Option (List Byte)) (x : List (Int × Int)) : List (List (Int × Int)) :=
  match ix with
  | none => chunk 64 256 x
  | some ix =>
    [(upTo 64).map (fun j => if spLine ix (j / 8) then x.getD (8 * spCi ix (j / 8) + j % 8) (0, 0) else (0, 0))]

/-- A line is driven: every one of a dense set, those of a sparse set's line groups with a present block (R175). -/
def drivenLine (ix : Option (List Byte)) (j : Nat) : Bool := ix.all (fun ix => spLine ix (j / 8))

/-- Component `c` of an element: x, or u1 = x, u2 = y − x, u3 = x + y (R59). -/
def inputComp (w : Tw) (c : Nat) (x : Int × Int) : Int :=
  if twOp w = 3 then (if c = 0 then x.1 else if c = 1 then x.2 - x.1 else x.1 + x.2) else x.1

/-- Components an input is checked in. -/
def inputComps (w : Tw) : List Nat := if twOp w = 3 then [0, 1, 2] else [0]

/-- A vector lies within the range of R68 for DX (R72). -/
def inputOk (w : Tw) (x : List (Int × Int)) : Bool :=
  x.all (fun y => (inputComps w).all (fun c => inputInRange (inputComp w c y) (mvDx w)))

/-- R178: a segment that is skipped whole. -/
def segSkipped (w : Tw) (thr : Nat) (s : List (Int × Int)) : Bool :=
  s.all (fun y => y.1 = 0 && y.2 = 0)
    || (thr != 0 && mvThrM w = 0 && s.all (fun y => y.1.natAbs ≤ thr && y.2.natAbs ≤ thr))

/-- Digits of component `c` of a segment in a pass of input digit `q`. -/
def segDigits (w : Tw) (c q : Nat) (s : List (Int × Int)) : List Int :=
  s.map (fun y => inputDigit (inputComp w c y) (mvDx w) q)

/-- The conversions of one vector in one pass, each a list of digit segments, and how many segments the pass
skips (R142, R178–R180). -/
def vecConvs (w : Tw) (thr : Nat) (segs : List (List (Int × Int))) (c q : Nat) : List (List (List Int)) × Nat :=
  let digs := (segs.filter (fun s => !segSkipped w thr s)).map (segDigits w c q)
  let kept := if 1 < mvDx w then digs.filter (fun s => s.any (· != 0)) else digs
  (if mvArr w then kept.map (fun s => [s]) else chunk (2 ^ mvKlog w) 256 kept, segs.length - kept.length)

/-! ### The order of a tile operation's conversions (R71, R143, R146) -/

/-- Component, weight digit and input digit of each stage on tile slot `t`: an MVMC runs its rotation once per weight digit, each
phase over the input digits (R61, R71, R146; log entry 155). -/
def stagesOf (w : Tw) (t : Nat) : List (Nat × Nat × Nat) :=
  let ps := (upTo (mvDw w)).reverse
  let qs := (upTo (mvDx w)).reverse
  if twOp w = 3 then
    ps.flatMap (fun p => qs.map (fun q => (t % 2, p, q)) ++ qs.map (fun q => (2, p, q)))
  else if mvSpread w then qs.map (fun q => (0, posIn (mvTmask w) t, q))
  else ps.flatMap (fun p => qs.map (fun q => (0, p, q)))

/-- Vectors tile slot `t` runs in a stage of component `c`, in order. -/
def stageVecs (w : Tw) (t c : Nat) (mask : BitVec 256) (bad : List Nat) : List Nat :=
  let n := mvNvec w
  let half := (n + 1) / 2
  let mine (v : Nat) : Bool :=
    if twOp w = 3 then c != 2 || (if t % 2 = 0 then decide (v < half) else decide (half ≤ v))
    else mvSpread w || v % popc4 (mvTmask w) = posIn (mvTmask w) t
  (upTo n).filter (fun v => mine v && activeVec mask (mvIgrp w) v && !bad.contains v)

/-- What the next window of a tile operation converts. -/
structure NextConv where
  comp : Nat
  p : Nat
  q : Nat
  v : Nat
  segs : List (List Int)
  deriving DecidableEq, Repr

/-- Whether the whole operation has been walked through, or its next conversion. Passing over a vector adds the
segments it skips to the count. With `held`, an MVMC stops at the start of a stage whose component and digit the tile does
not hold, for the reload that the rotation makes even where the tile has no conversion in the stage (R61). -/
def Dev.seek (d : Dev) (e : Nat) (bad : List Nat) (held : Option (Nat × Nat)) :
    Nat → TileOp → Nat → Option NextConv × TileOp × Nat
  | 0, o, k => (none, o, k)
  | fuel + 1, o, k =>
    match (stagesOf o.word o.slot)[o.stage]? with
    | none => (none, o, k)
    | some (c, p, q) =>
      if o.op = 3 && held.any (· != (c, p)) then (none, o, k) else
      match (stageVecs o.word o.slot c o.mask bad)[o.vec]? with
      | none => d.seek e bad held fuel { o with stage := o.stage + 1, vec := 0, grp := 0 } k
      | some v =>
        let segs := segsOf (o.wset.bind (·.sparse)) (d.fedVec e o.slot o.num o.word v)
        let (cs, skipped) := vecConvs o.word o.skipThr segs c q
        match cs[o.grp]? with
        | some s => (some ⟨c, p, q, v, s⟩, o, k)
        | none => d.seek e bad held fuel { o with vec := o.vec + 1, grp := 0 } (k + skipped)

/-- Steps that walk through a whole operation. -/
def seekFuel (w : Tw) : Nat := (2 * mvDw w * mvDx w + 2) * (mvNvec w + 2) + 2

/-- The pass shift s of R70. -/
def passShift (w : Tw) (ashift p q : Nat) : Int :=
  4 * ((p : Int) + q) - (if mvArr w then (mvKlog w : Int) else 0) - ashift

/-- ASHIFT of the area a conversion goes to. -/
def Dev.ashiftOf (d : Dev) (e aid : Nat) : Nat :=
  match (d.eng e).areaOf aid with
  | some (_, a) => a.ashift
  | none => 0

/-! ### Chips and activity (R276, R369, R372) -/

def chipTc : Nat := 1536
/-- Units of 1/15,625 Tc in which activity is counted: a chip, and a symbol of rate 0. -/
def chipUnits : Nat := 24000000
def symUnits (rate : Nat) : Nat := 3072 * 2 ^ rate

/-- Throttle step in force for the engines of stack `s` (R371). -/
def Dev.throttle (d : Dev) (s : Nat) : Nat :=
  max (tget d.th.steps s 0) (max (tget d.th.steps 4 0) (tget d.th.steps (5 + s) 0))

/-- Offset in units within the chip of device time `t` plus `u` units. -/
def chipPos (t u : Nat) : Nat := (t % chipTc * 15625 + u) % chipUnits

/-- A point of a chip lies in the pause of throttle step `n` (R369). -/
def inPause (n pos : Nat) : Bool := pos * 10 < n * chipUnits

/-- Stack `s` is in a detour gap (R343). -/
def Dev.inGap (d : Dev) (s : Nat) : Bool := ((tget d.stks s {}).gap).isSome

/-- 2.0004 µs in Tc (R341). -/
def detourTc : Nat := 3933

/-- Stack `s` is in a forced gap that has lasted `n` Tc (R346). -/
def Dev.inForced (d : Dev) (s n : Nat) : Bool :=
  match (tget d.stks s {}).gap with
  | some g => g.forced && g.t0 + n ≤ d.time
  | none => false

/-- THM_SLEWrg in force. -/
def Dev.slewBudget (d : Dev) (rg : Nat) : Nat := tget d.th.budgets rg (resetOf .THM_SLEW rg)

/-- The ceiling of this chip for physical tile `p` (R372). -/
def Dev.ceiling (d : Dev) (p : Nat) : Nat :=
  let rg := regionOfP p
  min ((100 - 10 * d.throttle (rg / 2)) * 240000) ((d.pt p).actPrev + max 1 (fld (d.slewBudget rg) 8 8) * 1875)

/-- The part of a window of `u` units opened now that falls in this chip. -/
def Dev.inChip (d : Dev) (u : Nat) : Nat := min u (chipUnits - chipPos d.time 0)

/-- The pause or the ceiling keeps a window of `u` units on physical tile `p` from opening now (R369, R372). -/
def Dev.heldByHeat (d : Dev) (e p u : Nat) : Bool × Bool :=
  let n := d.throttle (e / 8)
  (inPause n (chipPos d.time 0) || inPause n (chipPos d.time u),
   d.ceiling p < (d.pt p).actNow + d.inChip u)

/-- Activity of a window of `u` units charged to the chips it falls in. -/
def Dev.charge (d : Dev) (p u : Nat) : Dev :=
  let a := d.inChip u
  d.modPt p (fun x => { x with actNow := x.actNow + a, actNext := x.actNext + (u - a) })

/-- A window that waits for its slew ceiling counts once in THM_CNT_SLEWWAIT (R378). -/
def Dev.slewWait (d : Dev) (e t : Nat) : Dev :=
  if (d.slot e t).slewed then d
  else (d.bump .THM_CNT_SLEWWAIT).modSlot e t (fun s => { s with slewed := true })

/-! ### Handing work to the MAC array -/

/-- A job joins the MAC-array queue; its task word works in that unit until the job is done. -/
def Engine.addMac (x : Engine) (num kind : Nat) (p : Piece) : Engine :=
  Engine.addLive { x with macq := x.macq ++ [({ num, kind, piece := p } : MacJob)] } num .mac

/-- Task words with work of kinds 2 to 4, in the order it came: the first 8 are the entries of the MAC-array queue, the
others wait for one to free (R109, R114; log entry 16). -/
def Engine.macWords (x : Engine) : List Nat := ((x.macq.filter (fun j => 1 < j.kind)).map (·.num)).eraseDups
/-- Entries of the MAC-array queue in use. -/
def Engine.macJobs (x : Engine) : Nat := min 8 x.macWords.length
/-- Split columns waiting; the first 64 stand in the split queue (R109). -/
def Engine.splits (x : Engine) : List MacJob := x.macq.filter (fun j => j.kind = 1)
/-- A split of tile slot `t` has overflowed the split queue: the tile holds its next conversion (R109). -/
def Engine.splitFull (x : Engine) (t : Nat) : Bool :=
  (x.splits.drop 64).any (fun j => match j.piece with | .split s _ _ _ _ _ => s = t | _ => false)

/-- The rest of operation `o` goes to the MAC array (R117). -/
def Engine.redirect (x : Engine) (o : TileOp) : Engine :=
  let x : Engine := { x with issueq := x.issueq.map (fun (p : TileOp) =>
    if p.num = o.num && p.slot = o.slot then { p with ended := true, onMac := true } else p) }
  x.addMac o.num 2 (.rest { o with ended := false, onMac := true })

/-- Operation `o` waits in state `st` of its tile at time `t`: a wait ends with its state (R117). -/
def TileOp.waits (o : TileOp) (st : TileState) (t : Nat) : TileOp :=
  { o with waitFrom := some (st, match o.waitFrom with
    | some (u, f) => if u = st then f else t
    | none => t) }

/-- The operation of slot `t` that is next to open windows or to load: the first that has not ended. -/
def Engine.current (x : Engine) (t : Nat) : Option TileOp := x.issueq.find? (fun o => o.slot = t && !o.ended)

/-- Operation `o` replaced. -/
def Engine.setOp (x : Engine) (o : TileOp) : Engine :=
  { x with issueq := x.issueq.map (fun p => if p.num = o.num && p.slot = o.slot then o else p) }

def Engine.workOf (x : Engine) (num : Nat) : Work := tget x.work num {}
def Engine.setWork (x : Engine) (num : Nat) (w : Work) : Engine := { x with work := tset x.work num w }

/-! ### Gains (R50, R51) -/

/-- Every column's gain step set for operation `o`. -/
def Slot.setGains (s : Slot) (o : TileOp) : Slot :=
  let g := mvGain o.word
  let sigma := fld o.cfg 16 4
  { s with
    gainNum := o.num
    gainEp := s.gainEp + 1
    gains := (upTo 64).map (fun i =>
      (i, if g < 4 then g else
        let (ofs, sig) := tget s.ofs i (0, 0)
        autoGain (2 ^ mvKlog o.word) ofs sig sigma)) }

/-! ### Quiet mode (R90–R92) -/

/-- Count a quiet task word, or its part after a switch, that runs without suspension. -/
def Dev.quietDeny (d : Dev) (e num : Nat) : Dev :=
  let x := d.eng e
  if (x.workOf num).denied then d
  else (d.setEng e (x.setWork num { x.workOf num with denied := true })).bump .ENG_CNT_QUIETDENY e

/-- 500 µs in Tc (R92), and 2 ms (R91). -/
def closedLoopTc : Nat := 983040
def quietLimitTc : Nat := 3932160

/-- What a quiet operation does before its first window on physical tile `p`: some answer once it may go on,
none while it waits for the suspension. -/
def Dev.askQuiet (d : Dev) (e p : Nat) (o : TileOp) : Option Bool × Dev :=
  let x := d.pt p
  if x.legacy then (some false, d.quietDeny e o.num)
  else if x.quietFrom.isSome && !x.quietStop then (some true, d)
  else if x.quietStop then (some false, d.quietDeny e o.num)
  else match x.quietEnd with
    | some t => if d.time < t + closedLoopTc then (some false, d.quietDeny e o.num)
      else (none, d.modPt p (fun x => { x with quietAsk := true }))
    | none => (none, d.modPt p (fun x => { x with quietAsk := true }))

/-! ### The progress of a tile slot -/

/-- Component and digit the slot must hold for the operation's stage; after the last stage of an MVMC, M1 or M2
of digit DW − 1 (R61). -/
def needs (o : TileOp) : Option (Nat × Nat) :=
  match (stagesOf o.word o.slot)[o.stage]? with
  | some (c, p, _) => some (c, p)
  | none => if o.op = 3 then some (o.slot % 2, mvDw o.word - 1) else none

/-- The slot holds what the operation needs next. A set without planes is held as it is. -/
def holds (s : Slot) (o : TileOp) : Bool :=
  match needs o, o.wset with
  | some n, some w => w.planes.isNone || w.spread || s.held = n
  | _, _ => true

/-- Tile slots whose weights a piece of work uses. -/
def Piece.slots : Piece → List Nat
  | .split s _ _ _ _ _ => [s]
  | .conv s _ _ _ => [s]
  | .rest o => [o.slot]
  | .range o _ => [o.slot]
  | .sens os => os.map (·.slot)
  | .dmm _ _ _ => []

/-- Work of earlier task words on tile slot `t` still runs on the MAC array. -/
def Engine.macOnSlot (x : Engine) (t num : Nat) : Bool :=
  x.macq.any (fun j => j.num < num && j.piece.slots.contains t)

/-- A LOADW of an earlier task word than `num` still stands in the queue for slot `t` (R115). -/
def Engine.loadBefore (x : Engine) (t num : Nat) : Bool :=
  x.issueq.any (fun o => o.op = 1 && o.slot = t && o.num < num)

/-- An operation of an earlier task word than `num` still stands in the queue for slot `t`: the rows the slot holds are not those
it holds after the operation (R139). -/
def Engine.opBefore (x : Engine) (t num : Nat) : Bool := x.issueq.any (fun o => o.slot = t && o.num < num)

/-- A LOADW of an earlier task word than `num` on one of the tiles of `mask` has not passed its range check: a product that
uses its tiles waits, since it is discarded if the LOADW fails (R145). -/
def Engine.uncheckedLoad (x : Engine) (mask num : Nat) : Bool :=
  x.issueq.any (fun o => o.op = 1 && bit mask o.slot && o.num < num && !(x.workOf o.num).formed)

/-- Operation `o`'s remaining stages include phase 1 of weight digit `p` or a higher one (R61). -/
def TileOp.beforePhase2 (o : TileOp) (p : Nat) : Bool :=
  ((stagesOf o.word o.slot).drop o.stage).any (fun c => c.1 != 2 && p ≤ c.2.1)

/-- The other tile of `o`'s pair has not delivered k1 or k2 of every vector in weight digit `p`: k3 of that digit must
wait (R61, R118). -/
def Engine.pairBehind (x : Engine) (o : TileOp) (p : Nat) : Bool :=
  let u := if o.slot % 2 = 0 then o.slot + 1 else o.slot - 1
  o.op = 3 && ((tget x.slots u ({} : Slot)).convs.any (fun c => c.2.num = o.num && c.2.comp != 2 && p ≤ c.2.p)
    || x.issueq.any (fun r => r.num = o.num && r.slot = u && !r.ended && r.beforePhase2 p)
    || x.macq.any (fun j => match j.piece with
      | .rest r => r.num = o.num && r.slot = u && r.beforePhase2 p
      | _ => false))

/-- Nothing is in flight or waiting to re-run on the slot: what a reload waits for. Conversions past their windows whose columns
wait on re-reads or the MAC array count (DESIGN CHOICE, log entry 213). -/
def Slot.quietAll (s : Slot) : Bool :=
  s.convs.isEmpty && s.wins.isEmpty && s.reruns.isEmpty && s.rereads.isEmpty && s.reload.isNone

/-- Operation `o` has a conversion left to open on its tile. -/
def Dev.convLeft (d : Dev) (e : Nat) (o : TileOp) : Bool :=
  (d.seek e ((((d.eng e).workOf o.num).bad).getD []) none (seekFuel o.word) o 0).1.isSome

/-- When the last conversion in flight on the slot is done, the quiet period of its physical tile ends, unless a quiet
operation that has conversions left stands next in the queue and the tile is not being switched (R91). -/
def Dev.quietCheck (d : Dev) (e t : Nat) : Dev :=
  let p := d.phys (ltile e t)
  let x := d.pt p
  let s := d.slot e t
  if x.quietFrom.isSome && !x.quietStop && s.convs.isEmpty then
    match (d.eng e).issueq.find? (fun o => o.slot = t && !o.ended && (o.op = 1 || !o.begun || d.convLeft e o)) with
    | some o =>
      if 2 ≤ o.op && mvQuiet o.word && s.st != .swapping then d else d.setPt p { x with quietStop := true }
    | none => d.setPt p { x with quietStop := true }
  else d

/-- ENG_CFG in force (R122). -/
def Dev.engCfg (d : Dev) (e : Nat) : Nat := ((d.eng e).cfg).getD RegName.ENG_CFG.row.reset

/-- TILE_WAIT in Tc; none waits without limit. -/
def Dev.tileWait (d : Dev) (e : Nat) : Option Nat :=
  let w := fld (d.engCfg e) 24 8
  if w = 255 then none else some (usTc w)

/-- Drop the operation of `num` on slot `t` and end its work in the tile. -/
def Dev.popOp (d : Dev) (e num t : Nat) : Dev :=
  (d.modEng e (fun x => { x with issueq := x.issueq.filter (fun p => !(p.num = num && p.slot = t)) })).endLive
    e num .tile

/-- The tile is locked: it can integrate (R309). -/
def PTile.up (x : PTile) : Bool := x.lock = .locked || x.lock = .legacy

/-- A redirection under R117, counted. -/
def Dev.redirectOp (d : Dev) (e : Nat) (o : TileOp) : Dev :=
  (d.modEng e (·.redirect o)).bump .ENG_CNT_TILEWAIT e

/-- LOADW `o` meets its tile: a reload starts where the tile can integrate, else the shadow takes the rows at
once and the tile takes all rows when it returns (R117). -/
def Dev.startLoad (d : Dev) (e : Nat) (o : TileOp) : Dev :=
  let s := d.slot e o.slot
  let rows := loadWrites s o
  if s.st = .idle then
    if rows.isEmpty then (d.modSlot e o.slot (fun s => { s with held := loadDigit o })).popOp e o.num o.slot
    else d.setSlot e o.slot { s with reload := some { kind := .loadw o.num, rows, t0 := d.aon } }
  else
    (d.setSlot e o.slot { s.take rows with held := loadDigit o, stale := true }).popOp e o.num o.slot

/-- Component and digit that the slot holds, where stages need reloads from planes. -/
def heldFor (s : Slot) (o : TileOp) : Option (Nat × Nat) :=
  match o.wset with
  | some w => if w.planes.isNone then none else some s.held
  | none => none

/-- A LOADW whose planes take rows from what its tiles hold (R139). -/
def keepsRows (w : Tw) : Bool := ldUsesPlanes w && ldDw w = 1

/-- One step of progress of slot `t`: whether anything changed. -/
def Dev.kickOnce (d : Dev) (e t : Nat) : Bool × Dev :=
  let x := d.eng e
  let s := x.slot t
  -- An operation whose conversions have all been delivered leaves the queue.
  match x.issueq.find? (fun o => o.slot = t && o.ended && !(s.convs.any (·.2.num = o.num))) with
  | some o => (true, (d.popOp e o.num t).quietCheck e t)
  | none =>
    -- A pending rate takes effect while the tile is idle and no operation that has opened a window goes on (R64).
    let rate := d.rf .TILE_CFG 0 2 e t
    let opened := x.issueq.any (fun o => o.slot = t && o.opened && !o.ended)
    let s := if s.rate != rate && s.state = .idle && !opened then { s with rate := rate } else s
    let d := d.setSlot e t s
    let back : Bool × Dev :=
      if s.quietAll then
        (false, d.setSlot e t { s with
          stale := false, reload := some { kind := .ret, rows := Levels.all s.shadow, t0 := d.aon } })
      else (false, d)
    match x.current t with
    | none => if s.stale && s.st = .idle then back else (false, d)
    | some o =>
      if o.op = 1 then
        if s.stale && s.st = .idle then back
        else if !s.quietAll || x.macOnSlot t o.num || !d.loadArrived e o then (false, d)
        else if (x.workOf o.num).formed then (true, d.startLoad e o)
        else if keepsRows o.word && (upTo 4).any (fun u => bit (ldTmask o.word) u
            && (x.opBefore u o.num || (x.slot u).reload.isSome)) then (false, d)
        else (true, d.loadForm e o)
      else if s.st = .idle then
        if s.stale then back else
        -- Back in service: the wait ends with the state; one in a forced gap begins (R117, R346).
        let o := if d.inForced (e / 8) 0 then o.waits .idle d.time else { o with waitFrom := none }
        let d := d.setEng e ((d.eng e).setOp o)
        if s.reload.isSome then (false, d)
        else if !holds s o then
          match needs o, o.wset with
          | some (c, p), some w =>
            if s.quietAll && !x.macOnSlot t o.num then
              (false, d.setSlot e t { s with
                reload := some { kind := .digit c p, rows := d.setRows e t w c p, t0 := d.aon } })
            else (false, d)
          | _, _ => (false, d)
        else if !o.begun then (false, d)
        else
          let bad := ((x.workOf o.num).bad).getD []
          let (n, o', k) := d.seek e bad (heldFor s o) (seekFuel o.word) o 0
          let d := (d.bump .ENG_CNT_SKIP e 0 k).setEng e (((d.bump .ENG_CNT_SKIP e 0 k).eng e).setOp o')
          match n with
          | some n =>
            -- The next conversion's vector stands in the input buffer (R103).
            (o'.stage != o.stage, d.modSlot e t (fun s => { s with
              inbuf := some (o.num, n.v, d.fedVec e t o.num o.word n.v) }))
          | none =>
            if ((stagesOf o.word t)[o'.stage]?).isNone && holds s o' then
              (true, d.setEng e ((d.eng e).setOp { o' with ended := true }))
            else (o'.stage != o.stage, d)
      else if s.st = .unbound then (true, d.redirectOp e o)
      else if s.st = .swapping then (false, d.setEng e ((d.eng e).setOp { o with waitFrom := none }))
      else if d.tileWait e = some 0 then (true, d.redirectOp e o)
      else
        (false, d.setEng e ((d.eng e).setOp (o.waits s.st d.time)))

/-- Progress until nothing more changes; `fuel` bounds the steps. -/
def Dev.kickN (d : Dev) (e t : Nat) : Nat → Dev
  | 0 => d
  | fuel + 1 =>
    match d.kickOnce e t with
    | (true, d) => d.kickN e t fuel
    | (false, d) => d

/-- What a change lets tile slot `t` do at once. -/
def Dev.kick (d : Dev) (e t : Nat) : Dev := d.kickN e t 256

/-- All four slots of an engine. -/
def Dev.kickAll (d : Dev) (e : Nat) : Dev := (upTo 4).foldl (fun d t => d.kick e t) d

/-! ### Opening windows -/

/-- Smallest KLOG at a rate (R45). -/
def minKlog (rate : Nat) : Nat := if rate = 0 then 2 else if rate = 1 then 1 else 0

/-- The KRATE check of task word `o` over every tile of its set that runs it (R145). -/
def Dev.rateOk (d : Dev) (e : Nat) (o : TileOp) : Bool :=
  (upTo 4).all (fun t => !bit (mvTmask o.word) t || minKlog (d.rf .TILE_CFG 0 2 e t) ≤ mvKlog o.word)

/-- Every operation of task word `num` is withdrawn. -/
def Dev.withdraw (d : Dev) (e num : Nat) : Dev :=
  d.modEng e (fun x => Engine.dropLive { x with
    issueq := x.issueq.filter (·.num != num), macq := x.macq.filter (·.num != num) } num)

/-- First window of operation `o`: the range check made once, the gains and the configuration (R50, R64, R72). -/
def Dev.beginOp (d : Dev) (e p : Nat) (o : TileOp) : Bool × Dev :=
  let x := d.eng e
  let wk := x.workOf o.num
  let (ans, d) := if mvQuiet o.word then d.askQuiet e p o else (some false, d)
  match ans with
  | none => (false, d)
  | some a =>
    let bad := match wk.bad with
      | some b => b
      | none => (upTo (mvNvec o.word)).filter (fun v =>
          activeVec o.mask (mvIgrp o.word) v && !inputOk o.word (d.inputVec e o.word v))
    let mine := if o.op = 3 then bad else (stageVecs o.word o.slot 0 o.mask []).filter bad.contains
    let o := { o with
      begun := true, cfg := d.reg .TILE_CFG e o.slot
      quiet := if mvQuiet o.word then some a else none }
    let d := d.modEng e (fun x =>
      let x := x.setWork o.num { x.workOf o.num with bad := some bad }
      let x := if mine.isEmpty then x else x.addMac o.num 2 (.range o mine)
      x.setOp o)
    (true, d.modSlot e o.slot (·.setGains o))

/-- Units a window of `n` symbols lasts at the slot's rate. -/
def winUnits (s : Slot) (n : Nat) : Nat := n * symUnits s.rate

/-- Whether a window of `n` symbols may open on the slot now; a wait for the slew ceiling is counted. Re-runs and
re-reads (`again`) still open while a switch drains the tile (R119). -/
def Dev.mayOpen (d : Dev) (e t n : Nat) (again : Bool := false) : Bool × Dev :=
  let s := d.slot e t
  let (pause, slew) := d.heldByHeat e (d.phys (ltile e t)) (winUnits s n)
  let st := s.st = .idle || (again && s.st = .swapping && (d.pt (d.phys (ltile e t))).up)
  if !st || s.reload.isSome || d.inGap (e / 8) || pause || (!again && (d.eng e).splitFull t) then (false, d)
  else if slew then (false, d.slewWait e t)
  else (true, d)

/-- Device time at which a window opened now closes. -/
def Dev.closeAt (d : Dev) (u : Nat) : Nat := d.time + (u + 15624) / 15625

/-- What the segments of a window drive each modulator at, as level × units (R293). -/
def driveOf (c : Conv) (w : Win) (rate : Nat) (m : Tbl Nat) : Tbl Nat :=
  let segs := if c.arr then List.replicate w.n (c.segs.headD []) else (c.segs.drop w.lo).take w.n
  segs.foldl (fun m g => g.mapIdx (fun j a => (j, a)) |>.foldl (fun m ja =>
    tset m ja.1 (tget m ja.1 0 + ja.2 * symUnits rate)) m) m

/-- Window `w` opens on slot `t`, `lag` Tc ago. It is quiet if dither is suspended at its opening, wherever it ends (R93; DESIGN
CHOICE, log entry 216). -/
def Dev.openWin (d : Dev) (e t : Nat) (w : Win) (lag : Nat := 0) : Dev :=
  let rate := (d.slot e t).rate
  let u := winUnits (d.slot e t) w.n
  let p := d.phys (ltile e t)
  let q := ((d.pt p).quietFrom).isSome
  let d := match tfind (d.slot e t).convs w.cid with
    | some c => (d.modPt p (fun x => { x with mdrv := driveOf c w rate x.mdrv })).driveLevels p
        ((if c.arr then c.segs else (c.segs.drop w.lo).take w.n).getLastD [])
    | none => d
  (d.modSlot e t (fun s => { s with
    wins := s.wins ++ [{ w with ts := d.time - lag, rate }], convCount := (s.convCount + 1) % 2 ^ 64, slewed := false
    convs := match tfind s.convs w.cid with
      | some c => tset s.convs w.cid { c with
          close := max c.close (d.closeAt u), quiet := c.quiet && q }
      | none => s.convs })).charge p u

/-- The next conversion of operation `o`, begun and current on slot `t`, opens its window. -/
def Dev.nextWindow (d : Dev) (e t p lag : Nat) (o : TileOp) : Dev :=
  let bad := (((d.eng e).workOf o.num).bad).getD []
  let (n, o, k) := d.seek e bad (heldFor (d.slot e t) o) (seekFuel o.word) o 0
  let d := (d.bump .ENG_CNT_SKIP e 0 k).setEng e (((d.bump .ENG_CNT_SKIP e 0 k).eng e).setOp o)
  let s := d.slot e t
  match n with
  | none => d.kick e t
  | some n =>
    if !holds s o || s.reload.isSome then d.kick e t
    else if n.comp = 2 && (d.eng e).pairBehind o n.p then d
    else
      let klog := mvKlog o.word
      let len := if mvArr o.word then 2 ^ klog else n.segs.length
      let (ok, d) := d.mayOpen e t len
      if !ok then d
      -- KRATE is checked once, at the instant the task word's first window would open (R145).
      else if !((d.eng e).workOf o.num).rateOk && !d.rateOk e o then
        ((d.taskError e errKrate o.op o.addr).withdraw e o.num).kickAll e
      else
        let x := d.eng e
        let cid := x.nextCid
        let signed := n.q + 1 = mvDx o.word
        let conv : Conv := {
          cid, num := o.num, word := o.word, aid := o.aid, sparse := o.wset.bind (·.sparse)
          cfg := o.cfg, p := n.p, q := n.q, comp := n.comp, v := n.v, klog, arr := mvArr o.word
          segs := n.segs.map (fun g => g.mapIdx (fun j a =>
            if !drivenLine (o.wset.bind (·.sparse)) j then 0 else if signed then (a + 8).toNat else a.toNat))
          w := s.shadow, ts := d.time - lag, ptile := p
          quiet := (d.pt p).quietFrom.isSome && !(d.pt p).legacy
          gains := s.gains, gainEp := s.gainEp, readings := [(0, {})] }
        let d := d.setEng e (Engine.setOp
          (Engine.setWork { x with nextCid := cid + 1 } o.num { x.workOf o.num with rateOk := true })
          { o with grp := o.grp + 1, opened := true })
        let d := d.modSlot e t (fun s => { s with convs := tset s.convs cid conv })
        let d := d.openWin e t {
          cid, reading := 0, kind := .first, lo := 0, n := len, klog, round := 0
          cols := upTo 64, gains := s.gains } lag
        d.kick e t

/-- INTEGRATION_WINDOW_OPEN: the next conversion of the slot's current operation begins, its window opening `lag` Tc ago within
the cycle (R43, R103, R225). -/
def Dev.windowOpen (d : Dev) (e t lag : Nat) : Dev :=
  let d := d.kick e t
  let x := d.eng e
  let s := x.slot t
  match x.current t with
  | none => d
  | some o =>
    if o.op < 2 || s.st != .idle || s.reload.isSome || !holds s o then d
    else
      let p := d.phys (ltile e t)
      -- A pending rate waits for the tile to be idle, and a product for the check of the LOADWs before it.
      if (!o.opened && s.rate != d.rf .TILE_CFG 0 2 e t) || x.uncheckedLoad (mvTmask o.word) o.num then d
      else
        let (go, d) := if o.begun then (true, d) else
          if d.inGap (e / 8) then (false, d) else d.beginOp e p o
        if !go then d.kick e t
        else
          -- A switch interrupted a quiet operation: ask the new tile (R121).
          let o := ((d.eng e).current t).getD o
          let (ans, d) := if mvQuiet o.word && o.quiet.isNone then d.askQuiet e p o else (some (o.quiet.getD false), d)
          match ans with
          | none => d
          | some a =>
            let o := if mvQuiet o.word then { o with quiet := some a } else o
            let d := (d.setEng e ((d.eng e).setOp o)).kick e t
            match (d.eng e).current t with
            | none => d
            | some o' => if o'.num != o.num then d else d.nextWindow e t p lag o'

/-- A waiting re-run or re-read window opens at the first free slot (R54, R83). -/
def Dev.againOpen (d : Dev) (e t : Nat) (reread : Bool) : Dev :=
  let s := d.slot e t
  match (if reread then s.rereads else s.reruns) with
  | [] => d
  | w :: ws =>
    let (ok, d) := d.mayOpen e t w.n true
    if !ok then d
    else
      let d := d.modSlot e t (fun s =>
        if reread then { s with rereads := ws } else { s with reruns := ws })
      let d := if reread then d else d.bump .TILE_CNT_RERUN e t
      d.openWin e t w

/-! ### Column words -/

/-- The pass applies a signed input digit (R68). -/
def Conv.signed (c : Conv) : Bool := c.q + 1 = mvDx c.word

/-- Exact charge of row `i` over segments `lo`…`lo + n − 1`, product units (R34, R46). -/
def Conv.chargeOf (c : Conv) (i lo n : Nat) : Int :=
  let row := Levels.row c.w i
  if c.arr then (n : Int) * dot row (c.segs.headD [])
  else sumI (((c.segs.drop lo).take n).map (dot row))

/-- The column word made from a code (R44, R69). -/
def Conv.wordOf (c : Conv) (i : Nat) (code : Int) (g n : Nat) : Int :=
  code * lsb g - (if c.signed then (n : Int) * ofsOf (Levels.row c.w i) else 0)

/-- The exact column word (R55, R88). -/
def Conv.exact (c : Conv) (i lo n : Nat) : Int :=
  c.chargeOf i lo n - (if c.signed then (n : Int) * ofsOf (Levels.row c.w i) else 0)

/-- Segments sent in the whole conversion. -/
def Conv.len (c : Conv) : Nat := if c.arr then 2 ^ c.klog else c.segs.length

/-- What a saturated column does next (R52, R53). -/
inductive SatAct where
  | clamp | split | halve | gain
  deriving DecidableEq, Repr

/-- Escalation of R53 for a reading at depth `klog`, gain `g`, round `round` under TILE_CFG `cfg`. -/
def satAct (cfg klog g round : Nat) : SatAct :=
  let policy := fld cfg 4 2
  let final : SatAct := if fld cfg 10 1 = 1 then .split else .clamp
  if policy = 0 then .clamp
  else if policy = 3 then .split
  else if fld cfg 8 2 ≤ round then final
  else if policy = 1 then (if 0 < klog then .halve else if g < 3 then .gain else final)
  else (if g < 3 then .gain else if 0 < klog then .halve else final)

/-- Reading `r` of a conversion changed by `f`. -/
def Conv.modReading (c : Conv) (r : Nat) (f : Reading → Reading) : Conv :=
  { c with readings := tset c.readings r (f (tget c.readings r {})) }

/-- Column `i` of a reading changed by `f`. -/
def Reading.modCol (r : Reading) (i : Nat) (f : ColRes → ColRes) : Reading :=
  { r with cols := tset r.cols i (f (tget r.cols i {})) }

/-- An exact word for column `i`: a split of one window (`whole` false) or of the conversion. -/
def Reading.exact (r : Reading) (i : Nat) (v : Int) (whole : Bool) : Reading :=
  r.modCol i (fun c =>
    if whole then { word := v, split := true, whole := true }
    else if c.whole then c else { c with word := c.word + v, split := true })

/-- What TILE_LAST_SAT records (R56). -/
def lastSatWord (rail : Bool) (klog g col : Nat) : Nat :=
  2 ^ 31 + b2n rail * 2 ^ 30 + klog * 2 ^ 27 + g * 2 ^ 25 + col

/-- Redirect every operation of task word `num` whose windows have not all opened (R86). -/
def Engine.redirectAll (x : Engine) (num : Nat) : Engine :=
  (x.issueq.filter (fun o => o.num = num && !o.ended)).foldl (fun x o => x.redirect o) x

/-- Threshold test of R81 for a half-difference magnitude already in product units. -/
def gateFails (w : Tw) (ashift p q : Nat) (mag : Nat) (times : Nat) : Bool :=
  mvThrM w != 0 && !shiftLe mag (passShift w ashift p q) (times * mvThr w)

/-- The resolved word and flag of column `i` from `n` readings (R83, R84, R98). -/
def Conv.result (c : Conv) (ashift i : Nat) : Int × ColFlag :=
  let rd (r : Nat) : ColRes := tget (tget c.readings r {}).cols i {}
  let first := rd 0
  if c.want = 1 || !c.failed.contains i then
    (first.word,
      if first.clamp then .sat else if first.split then .fallback
      else if c.failed.contains i then .lowconf else .clean)
  else
    match (upTo c.want).find? (fun r => (rd r).split) with
    | some r => ((rd r).word, .fallback)
    | none =>
      let sum := sumI ((upTo c.want).map (fun r => (rd r).word))
      let ds := sumI ((upTo c.want).map (fun r => (rd r).dsum))
      (roundAway sum c.want,
        if (upTo c.want).any (fun r => (rd r).clamp) then .sat
        else if gateFails c.word ashift c.p c.q ds.natAbs c.want then .lowconf else .clean)

/-- A conversion's column words enter the accumulator (R70, R94, R104) and it is done. TILE_CNT_CLAMP counts a column once,
however many of the readings behind its word were clamped (R56, log entry 158). A conversion all of whose columns were split
enters TS and STALE of R97, and neither TILES, QUIET nor REREAD; a split job's own start enters no TS (DESIGN CHOICE, log
entry 217). -/
def Dev.deliverConv (d : Dev) (e t cid : Nat) : Dev :=
  match tfind (d.slot e t).convs cid with
  | none => d
  | some c =>
    let ash := d.ashiftOf e c.aid
    let s := passShift c.word ash c.p c.q
    let res := (upTo 64).map (fun i => (i, c.result ash i))
    let cols := res.map (fun r => (r.1, shiftRound r.2.1 s, r.2.2))
    let extra := c.want - 1
    let onTile := c.mac.isNone && res.any (fun r => r.2.2 != .fallback)
    let upd (v : VecStat) : VecStat :=
      match c.mac with
      | some ts => v.seen ts
      | none => if onTile then v.tile t c extra else { v.seen c.ts with stale := v.stale || c.stale }
    let d := d.bump .TILE_CNT_CLAMP e t (res.filter (fun r => r.2.2 = .sat)).length
    let d := d.modArea e c.aid (fun a =>
      if twOp c.word = 3 then a.addComplex (mvArow c.word) c.comp c.v cols upd
      else a.addReal c.sparse (mvArow c.word) (mvNvec c.word) c.v cols upd)
    (d.modSlot e t (fun s => { s with convs := tdrop s.convs cid })).quietCheck e t

/-- The whole conversion goes to the MAC array (R86): its readings so far are discarded. -/
def Dev.convToMac (d : Dev) (e t cid : Nat) : Dev :=
  (d.modSlot e t (fun s => match tfind s.convs cid with
    | none => s
    | some c => { s with
        convs := tset s.convs cid { c with readings := [(0, {})], want := 1, failed := [], mac := some d.time } })).modEng
    e (fun x => match tfind (x.slot t).convs cid with
      | some c => x.addMac c.num 2 (.conv t cid 0 (upTo 64))
      | none => x)

/-- A reading has no window open: gate the first, deliver after the last (R81–R86). Each half of a column is gated by itself: one
that fails makes its column fail, whatever became of the other half (R57, R82). The budget is charged before the tile is
asked: a conversion that fails on a tile that has lost lock is charged too, though no further reading opens (DESIGN CHOICE,
log entry 215). -/
def Dev.resolve (d : Dev) (e t cid : Nat) : Dev :=
  match tfind (d.slot e t).convs cid with
  | none => d
  | some c =>
    if c.readings.any (fun r => r.2.openWins != 0) then d
    else if c.mac.isSome || c.want != 1 then d.deliverConv e t cid
    else
      let cols := (tget c.readings 0 {}).cols
      let failed := (upTo 64).filter (fun i =>
        let r := tget cols i {}
        r.gateFail && !r.whole)
      if failed.isEmpty then d.deliverConv e t cid
      else
        let x := d.eng e
        let wk := x.workOf c.num
        let r := mvR c.word
        let enough := match wk.budget with | none => true | some b => r - 1 ≤ b
        let lowconf (d : Dev) : Dev :=
          (d.modSlot e t (fun s => { s with convs := tset s.convs cid { c with failed } })).deliverConv e t cid
        if wk.exhausted then
          if mvFb c.word then d.convToMac e t cid else lowconf d
        else if enough then
          -- The steps are those of its setting of R50, as STICKY has lowered them (R51). A further reading's re-runs have
          -- their own SAT_DEPTH rounds (R53, log entry 157).
          let more : List Win := (upTo (r - 1)).map (fun k => {
            cid, reading := k + 1, kind := .reread, lo := 0, n := c.len, klog := c.klog, round := 0
            cols := failed, gains := c.gains })
          let d := d.modEng e (fun x => x.setWork c.num { wk with budget := wk.budget.map (· - (r - 1)) })
          let canRead := ((d.slot e t).st = .idle || (d.slot e t).st = .swapping) && (d.pt c.ptile).up
          if canRead then
            d.modSlot e t (fun s => { s with
              rereads := s.rereads ++ more
              convs := tset s.convs cid { c with
                want := r, failed
                readings := c.readings ++ (upTo (r - 1)).map (fun k => (k + 1, {})) } })
          else
            -- The tile has lost lock: the failed columns are computed on the MAC array (R117).
            (d.modSlot e t (fun s => { s with
              convs := tset s.convs cid (c.modReading 0 (fun rd =>
                { rd with cols := rd.cols.filter (fun p => !failed.contains p.1), openWins := 1 })) })).modEng e
              (fun x => x.addMac c.num 2 (.conv t cid 0 failed))
        else
          let d := d.modEng e (fun x => x.setWork c.num { wk with exhausted := true })
          if mvFb c.word then (d.modEng e (·.redirectAll c.num)).convToMac e t cid else lowconf d

/-- Amplitude of the dither that ran on physical tile `p` at time `u` (units of 1/15,625 Tc), 1/256 level; 0 while it was
off (R277, R278). -/
def Dev.dampAt (d : Dev) (p u : Nat) : Int :=
  let x := d.pt p
  let off := match x.quietFrom with
    | some q => decide (q * 15625 ≤ u)
    | none => match x.quietEnd with
      | some e => decide (u < e * 15625)
      | none => false
  if off || (x.lock = .legacy && x.burst.isNone) then 0 else (min 51 (fld (tget x.cfg 0 RegName.LOCK_CFG.row.reset) 24 6) : Nat)

/-- Dither sign of line `j` in chip `n`: true for −1 (R277). -/
def ditherNeg (j n : Nat) : Bool :=
  let b (k : Nat) : Nat := fld n k 1
  let pop := (upTo 6).foldl (fun a k => a + fld (n &&& j) k 1) 0
  (pop + b 0 * b 1 + b 2 * b 3 + b 4 * b 5) % 2 = 1

/-- The dither sign of line `j` in the chip that holds time `u`, as +1 or −1 (R276, R277). -/
def signAt (j u : Nat) : Int := if ditherNeg j (u / chipUnits % 64) then -1 else 1

/-- Levels of the symbols of a window, in order. -/
def winSegs (c : Conv) (w : Win) : List (List Nat) :=
  if c.arr then List.replicate w.n (c.segs.headD []) else (c.segs.drop w.lo).take w.n

/-- What the dither adds to every row's charge, in 1/256 product unit: DAMP × s_j in the chip of each symbol's start
(R38, R277). -/
def Dev.ditherCharge (d : Dev) (c : Conv) (w : Win) : Int :=
  let s := symUnits w.rate
  sumI ((winSegs c w).mapIdx (fun k g =>
    let u := w.ts * 15625 + k * s
    d.dampAt c.ptile u * sumI (g.mapIdx (fun (j : Nat) (a : Nat) => signAt j u * (a : Int)))))

/-- What a window that spans a chip edge adds to every row's half-difference, in 1/256 product unit (R78): the whole
symbols between the edge and the nearer end count (log entry 156). -/
def Dev.edgeTerm (d : Dev) (c : Conv) (w : Win) : Int :=
  let s := symUnits w.rate
  let u0 := w.ts * 15625
  let u1 := u0 + w.n * s
  let edge := (u0 / chipUnits + 1) * chipUnits
  if u1 ≤ edge || d.dampAt c.ptile u0 = 0 || d.dampAt c.ptile edge = 0 then 0
  else
    let segs := winSegs c w
    let near := if edge - u0 ≤ u1 - edge then segs.take ((edge - u0) / s) else segs.drop (w.n - (u1 - edge) / s)
    d.dampAt c.ptile u0 * sumI ((upTo 64).map (fun j =>
      (signAt j u0 - signAt j edge) * (((near.map (·.getD j 0)).foldl (· + ·) 0 : Nat) : Int)))

/-- What the column zero measured by a calibration changes in a column's charge before conversion: the zero held for the gain
step, against the factory record's, which `errs` of a conversion already leaves out (R355 step 2; log entry 211). -/
def Dev.zeroShift (d : Dev) (p g col : Nat) : Int :=
  let key := 20000 + 64 * g + col
  match tfind (d.pt p).cal key with
  | some z => z - Config.factoryCal p key
  | none => 0

/-- CONVERSION_COMPLETE: the oldest open window's codes and half-differences arrive (R44, R49, R52–R57, R78, R79).
`errs` and `diffs` are each row's analogue error and half-difference apart from the dither's part, in 1/256 of a product
unit. -/
def Dev.convComplete (d : Dev) (e t : Nat) (errs diffs : List Int) : Dev :=
  let s := d.slot e t
  match s.wins with
  | [] => d
  | w :: ws =>
    let d := d.setSlot e t { s with wins := ws }
    match tfind s.convs w.cid with
    | none => d
    | some c =>
      let cfg := c.cfg
      let ash := d.ashiftOf e c.aid
      let dith := d.ditherCharge c w
      let edge := d.edgeTerm c w
      let raw := (upTo 64).map (fun i =>
        let g := tget w.gains i 0
        (i, g, codeOf (256 * c.chargeOf i w.lo w.n + dith + errs.getD i 0 - d.zeroShift c.ptile g i) g))
      let sats := raw.filter (fun r => r.2.2.2.isSome)
      let d := d.bump .TILE_CNT_SAT e t sats.length
      let d := match sats.getLast? with
        | some r => d.modSlot e t (fun s => { s with
            lastSat := lastSatWord (r.2.2.2.getD false) w.klog r.2.1 r.1, lastSatTs := w.ts })
        | none => d
      let mine := raw.filter (fun r => w.cols.contains r.1)
      let act (r : Nat × Nat × Int × Option Bool) : Option SatAct :=
        if r.2.2.2.isSome then some (satAct cfg w.klog r.2.1 w.round) else none
      let colsOf (a : SatAct) : List Nat := (mine.filter (fun r => act r = some a)).map (·.1)
      -- Columns that stand: their words enter the reading.
      let c := c.modReading w.reading (fun rd => mine.foldl (fun rd r =>
        let h := halfDiff (diffs.getD r.1 0 + edge) r.2.1
        let mag := h * hstep r.2.1
        match act r with
        | none => rd.modCol r.1 (fun k => if k.whole then k else { k with
            word := k.word + c.wordOf r.1 r.2.2.1 r.2.1 w.n, dsum := k.dsum + mag
            gateFail := k.gateFail || gateFails c.word ash c.p c.q mag.natAbs 1 })
        | some .clamp => rd.modCol r.1 (fun k => if k.whole then k else { k with
            word := k.word + c.wordOf r.1 r.2.2.1 r.2.1 w.n, clamp := true })
        | _ => rd) rd)
      let lost := (s.st != .idle && s.st != .swapping) || !(d.pt c.ptile).up
      let halves := colsOf .halve
      let lower := colsOf .gain
      let again (n lo klog : Nat) (cols : List Nat) (gains : Tbl Nat) : List Win :=
        if cols.isEmpty || n = 0 then [] else
          [{ cid := w.cid, reading := w.reading, kind := .rerun, lo, n, klog, round := w.round + 1, cols, gains }]
      let n1 := (w.n + 1) / 2
      let gLow := lower.foldl (fun g i => tset g i (tget g i 0 + 1)) w.gains
      let redo := if lost then [] else
        again n1 w.lo (w.klog - 1) halves w.gains ++ again (w.n - n1) (w.lo + n1) (w.klog - 1) halves w.gains
          ++ again w.n w.lo w.klog lower gLow
      let toMac := if lost then halves ++ lower else []
      let splits := colsOf .split
      let opens := redo.length + splits.length + (if toMac.isEmpty then 0 else 1)
      let c := c.modReading w.reading (fun rd => { rd with openWins := rd.openWins - 1 + opens })
      let sticky := fld cfg 11 1 = 1
      let d := d.modSlot e t (fun s => { s with
        convs := (tset s.convs w.cid c).map (fun k => (k.1, if sticky && !lost && k.2.gainEp = c.gainEp then
            { k.2 with gains := lower.foldl (fun g i => tset g i (max (tget g i 0) (tget w.gains i 0 + 1))) k.2.gains }
          else k.2))
        reruns := s.reruns ++ redo
        -- The step of this reading, lowered by one, unless another reading has lowered it further (R51).
        gains := if sticky && !lost && s.gainEp = c.gainEp then
            lower.foldl (fun g i => tset g i (max (tget g i 0) (tget w.gains i 0 + 1))) s.gains else s.gains })
      let d := d.bump .TILE_CNT_SPLIT e t splits.length
      let d := d.modEng e (fun x =>
        let x := splits.foldl (fun x i => x.addMac c.num 1 (.split t w.cid w.reading w.lo w.n i)) x
        if toMac.isEmpty then x else x.addMac c.num 2 (.conv t w.cid w.reading toMac))
      (d.resolve e t w.cid).kick e t

/-- A tile stops integrating for lack of lock or light (R117, R295): the re-runs and re-reads its conversions
still need go to the MAC array, column by column. -/
def Dev.slotLost (d : Dev) (e t : Nat) : Dev :=
  let s := d.slot e t
  let cids := ((s.reruns ++ s.rereads).map (·.cid)).eraseDups
  let d := d.setSlot e t { s with reruns := [], rereads := [] }
  let d := cids.foldl (fun d cid =>
    match tfind s.convs cid with
    | none => d
    | some c =>
      -- Readings beyond those whose windows have opened are not taken; their columns are computed exactly.
      let wait := (s.reruns ++ s.rereads).filter (·.cid = cid)
      let first := if wait.any (fun w => w.kind = .reread) then c.failed
        else (wait.flatMap (·.cols)).eraseDups
      let c := { c with
        want := 1, failed := []
        readings := [(0, { cols := (tget c.readings 0 {}).cols.filter (fun p => !first.contains p.1)
                           openWins := (s.wins.filter (fun w => w.cid = cid && w.reading = 0)).length
                             + ((d.eng e).macq.filter (fun j => match j.piece with
                                  | .split u i r _ _ _ => u = t && i = cid && r = 0
                                  | .conv u i r _ => u = t && i = cid && r = 0
                                  | _ => false)).length + 1 })] }
      (d.modSlot e t (fun s => { s with
        convs := tset s.convs cid c, wins := s.wins.filter (fun w => w.cid != cid || w.reading = 0) })).modEng e
        (fun x => x.addMac c.num 2 (.conv t cid 0 first))) d
  d.kick e t

end Sys2Proof.Machine
end

