-- ==== Sys2Proof/Machine/Reply.lean ====
section
/-!
DEFINITION. Responses (R415, R420–R424): their headers, how the CP answers a command, and how long work ends.
-/
namespace Sys2Proof.Machine

/-! ### Status codes (R423) -/

def stOk : Nat := 0
def stPending : Nat := 1
def stBusy : Nat := 2
def stBadOpcode : Nat := 3
def stBadLength : Nat := 4
def stBadField : Nat := 5
def stNotPermitted : Nat := 6
def stNoResource : Nat := 7
def stConflict : Nat := 8
def stTimeout : Nat := 9
def stVersion : Nat := 10
def stFaulted : Nat := 11

/-- Header of a response: v2 (R420) or v1 (R421). -/
def respHeader (v1 : Bool) (opcode status seq hostts len : Nat) : List Byte :=
  if v1 then leBytes 1 opcode ++ leBytes 1 status ++ leBytes 2 seq ++ leBytes 2 len ++ zeros 2
  else leBytes 2 opcode ++ [1#8] ++ leBytes 1 status ++ leBytes 2 seq ++ leBytes 2 len ++ leBytes 8 hostts

/-- A message for MBX6's partner leaves as an MBX frame on port `p` (R403, R419). -/
def Dev.mbxFrame (d : Dev) (p : Nat) (msg : List Byte) : Dev :=
  let tag := d.peers.nextTag
  ({ d with peers := { d.peers with nextTag := (tag + 1) % 2 ^ 16 } } : Dev).sendFrame p
    (d.hdr 7 ((d.peer p).pdev.getD 0) tag msg.length 0 0) msg

/-- A message of MBX6 for device `dev` leaves by the port that leads there, or waits for one (R398, R419). -/
def Dev.mbxSend (d : Dev) (dev : Nat) (msg : List Byte) : Dev :=
  match d.portTo dev with
  | some p => d.mbxFrame p msg
  | none => { d with peers := { d.peers with mbxOut := d.peers.mbxOut ++ [(dev, msg)] } }

/-- A whole response written to mailbox `m` (R415 step 4); MBX6's also travels to its partner (R419). -/
def Dev.respond (d : Dev) (m : Nat) (v1 : Bool) (opcode status seq hostts : Nat) (payload : List Byte) : Dev :=
  let msg := respHeader v1 opcode status seq hostts payload.length ++ payload
  let d := (d.setMb m { d.mb m with
    rsp := msg ++ (d.mb m).rsp.drop msg.length, state := .done, lastSeq := seq, lastStatus := status, rung := false }).setInt m 0
  if m = 6 then match d.peers.mbxDev with
    | some dev => d.mbxSend dev msg
    | none => d
  else d

/-- The payload of a response with `status` (R422): its own for OK and PENDING, DETAIL otherwise. -/
def respPayload (status : Nat) (payload : List Byte) (detail : Nat) : List Byte :=
  if status ≤ 1 then payload else leBytes 4 detail

/-- The CP answers the command it has taken. -/
def Dev.answer (d : Dev) (c : Cmd) (status : Nat) (payload : List Byte := []) (detail : Nat := 0) : Dev :=
  ({ d with cp := { d.cp with cur := none } } : Dev).respond c.mbx c.v1 c.opcode status c.seq c.hostts
    (respPayload status payload detail)

/-- BAD_FIELD with the payload offset of the offending field. -/
def Dev.badField (d : Dev) (c : Cmd) (off : Nat) : Dev := d.answer c stBadField [] off

/-- Long work begins (R424): PENDING at once, or the mailbox stays BUSY until the work ends. -/
def Dev.startJob (d : Dev) (c : Cmd) : Dev :=
  let j : Job := { opcode := c.opcode, mbx := c.mbx, v1 := c.v1, seq := c.seq, hostts := c.hostts
                   held := !c.async, payload := c.payload, num := d.cp.nextJob }
  let d : Dev := { d with cp := { d.cp with jobs := d.cp.jobs ++ [j], nextJob := d.cp.nextJob + 1, cur := none } }
  if c.async then d.answer c stPending else d

/-- ASYNC_DONE (R424, R430). -/
def Dev.asyncDone (d : Dev) (m opcode seq status : Nat) : Dev :=
  d.event m 0x12 srcCp [(2, opcode), (2, seq), (1, status)] d.time

/-- The work of a job has ended with `status`. -/
def Dev.endJob (d : Dev) (j : Job) (status : Nat) : Dev :=
  let d : Dev := { d with cp := { d.cp with jobs := d.cp.jobs.erase j } }
  if j.held then d.respond j.mbx j.v1 j.opcode status j.seq j.hostts (respPayload status [] 0)
  else d.asyncDone j.mbx j.opcode j.seq status

/-- Every job that `f` names ends with `status`. -/
def Dev.endJobs (d : Dev) (f : Job → Bool) (status : Nat) : Dev :=
  (d.cp.jobs.filter f).foldl (fun d j => d.endJob j status) d

/-- The little-endian field of `n` bytes at payload offset `off`. -/
def Cmd.f (c : Cmd) (off n : Nat) : Nat := getLe c.payload off n
def Job.f (j : Job) (off n : Nat) : Nat := getLe j.payload off n

end Sys2Proof.Machine
end

