-- ==== Sys2Proof/Machine/Lock.lean ====
section
/-!
DEFINITION. The ring lock engine of a physical tile (chapter 10): configuration, calibration values and set-points,
dither signs and error estimates, the patch law, supervision, lock loss, acquisition and legacy table mode.
Rings are numbered 64 · row + line, modulator rings 4,096 + line.
-/
namespace Sys2Proof.Machine

/-! ### Configuration and calibration -/

def windowTc : Nat := 98304
/-- Activity units of a whole sample window. -/
def windowUnits : Nat := 1536000000
def tenSeconds : Nat := 10 * tcPerSec

/-- The lock registers of a logical tile, in the order of PTile.cfg. -/
def lockRegs : List RegName := [.LOCK_CFG, .LOCK_FE, .LOCK_SS, .LOCK_TBANDA, .LOCK_TBANDB, .LOCK_PABAND]

/-- The configuration a physical tile is to run under (R275): its logical tile's, or its region's spare one. -/
def Dev.lockSource (d : Dev) (p : Nat) : Tbl Nat :=
  match d.logicalOf p with
  | some n => (lockRegs.zip (upTo 6)).map (fun r => (r.2, d.reg r.1 (n / 4) (n % 4)))
  | none => (d.rgn (regionOfP p)).spareLock

/-- The lock engine takes the configuration it is to run under. -/
def Dev.takeCfg (d : Dev) (p : Nat) : Dev := d.modPt p (fun x => { x with cfg := d.lockSource p })

/-- A tile that takes a role takes its configuration; a MODE other than its own is staged (R275, R308). -/
def Dev.bindCfg (d : Dev) (p : Nat) : Dev :=
  (d.takeCfg p).modPt p (fun x =>
    let m : Bool := fld (tget x.cfg 0 RegName.LOCK_CFG.row.reset) 0 2 = 1
    { x with modeNext := if m = x.legacy then none else some m })

/-- Register `k` of a lock configuration; what a table does not list is at reset. -/
def cfgReg (t : Tbl Nat) (k : Nat) : Nat := tget t k ((lockRegs.getD k .LOCK_CFG).row.reset)

/-- A field of the configuration in force. -/
def PTile.cf (x : PTile) (k lo len : Nat) : Nat := fld (cfgReg x.cfg k) lo len

/-- A calibration value (R355, log entry 26): rings' hcal in 1/16 code by ring, tc 5000, ka 5001, Tcal 5002, G 5003,
response table 5010–5040, MBIAS 5100 + line, modulator gains 5200 and 5201, a modulator's slope 5300 + line in 1/512 GHz
per unit of the ratio, HEFF 6000 + ring in 1/256 code per GHz, a column's zero 20,000 + 64 · g + column at gain step g in 1/256
product unit. -/
def Dev.cal (d : Dev) (p key : Nat) : Int := (tfind (d.pt p).cal key).getD (Config.factoryCal p key)

def Dev.park (_d : Dev) (p ring : Nat) : Nat := Config.factoryPark p ring % 4096

/-- A signed 16-bit result, saturated (R284). -/
def sat16 (v : Int) : Int := clampInt (-32768) 32767 v

/-- h0 and b: Q12.4 with a sign, saturated (R284; log entry 204). -/
def satQ12 (v : Int) : Int := clampInt (-65536) 65535 v

/-- A sample of a lock ADC, 12 bits (R274), and a sum of 64 of them. -/
def lockAdc (v : Nat) : Nat := min v 4095
def lockSum (v : Nat) : Nat := min v (64 * 4095)

/-- The halfword at `off` of the image of gain set `g` in the coefficient memory (R290). -/
def Dev.gainHw (d : Dev) (p g off : Nat) : Int :=
  match tfind (d.pt p).gains g with
  | some bs => sx 16 (getLe bs off 2)
  | none => sx 16 (Config.factoryGain p g off)

def Dev.psi (d : Dev) (p g r c : Nat) : Int := d.gainHw p g (8 + 2 * (72 * r + c))
def Dev.kGain (d : Dev) (p g k m : Nat) : Int := d.gainHw p g (10376 + 2 * (72 * k + m))
def Dev.lGain (d : Dev) (p g k : Nat) : Int := d.gainHw p g (19592 + 2 * k)
def Dev.lsGain (d : Dev) (p g r : Nat) : Int := d.gainHw p g (19720 + 2 * r)

/-- A tile's own set-point of a ring in 1/16 code (R286), at duty `duty`; its park code while the tile ramps up (R292). -/
def Dev.ownPoint (d : Dev) (p ring duty : Nat) : Int :=
  let x := d.pt p
  satQ12 (if x.lock = .ramp || x.lock = .settle then 16 * (d.park p ring : Int)
    else
      let dt := match x.temp with | some t => t - d.cal p 5002 | none => 0
      d.cal p ring + roundAway (d.cal p 5000 * dt) 256 - roundAway (d.cal p 5001 * duty) windowUnits)

/-- The working tile whose operating point the spare `p` is being moved to, or tracks (R292, R353). -/
def Dev.tracked (d : Dev) (p : Nat) : Option Nat :=
  let rg := regionOfP p
  match (d.rgn rg).prep with
  | some lt => if d.spare rg = p && d.phys lt != 0xFF then some (d.phys lt) else none
  | none => none

/-- The set-point a ring is to have: that of the working tile which the tile is to follow, else its own. -/
def Dev.setPointAt (d : Dev) (p ring duty : Nat) : Int :=
  match d.tracked p with
  | some w => (tfind (d.pt w).h0 ring).getD (d.ownPoint w ring (d.pt w).duty)
  | none => d.ownPoint p ring duty
def Dev.setPoint (d : Dev) (p ring : Nat) : Int := d.setPointAt p ring (d.pt p).duty

/-- The set-point in use: the ramping one, else the one it is to have. -/
def Dev.h0Now (d : Dev) (p ring : Nat) : Int := (tfind (d.pt p).h0 ring).getD (d.setPoint p ring)

/-- Every ring of a tile. -/
def allRings : List Nat := upTo 4160

/-- A soft-start begins from the measured set-points (R292): those in use, or in legacy mode the codes. -/
def Dev.softStart (d : Dev) (p : Nat) : Dev :=
  let x := d.pt p
  let hs := allRings.map (fun r =>
    (r, if x.lock = .legacy then (tfind x.h0 r).getD (16 * (tget x.htr r 0 : Nat)) else d.h0Now p r))
  d.modPt p (fun x => { x with h0 := hs, ramping := true })

/-- LOCK_SS.RATE in force, 1/16 code per sample (R292). -/
def PTile.rate (x : PTile) : Int := (max 1 (x.cf 2 0 16) : Nat)

/-- `h` moved towards `goal` by at most `by`. -/
def towards (h goal by_ : Int) : Int := if h < goal then min goal (h + by_) else max goal (h - by_)

/-- One sample of a ring's soft-start: towards its set-point by at most RATE (R292). -/
def Dev.rampRing (d : Dev) (p ring : Nat) : Dev :=
  let x := d.pt p
  match tfind x.h0 ring with
  | none => d
  | some h =>
    let goal := d.setPoint p ring
    let h' := towards h goal x.rate
    d.setPt p { x with h0 := if h' = goal then tdrop x.h0 ring else tset x.h0 ring h' }

/-- Entry `k` of a physical tile's legacy table (R427). -/
def Dev.ltEntry (d : Dev) (p k : Nat) : Nat := (tfind (d.pt p).ltab k).getD (Config.factoryTable p k) % 4096

/-- The table's code of ring `r` at temperature `t`, 1/16 °C (R307). -/
def Dev.ltCode (d : Dev) (p r : Nat) (t : Int) : Nat :=
  let u := t - 640
  if u ≤ 0 then d.ltEntry p (16 * r)
  else if 720 ≤ u then d.ltEntry p (16 * r + 15)
  else
    let k := u.toNat / 48
    let a : Int := (d.ltEntry p (16 * r + k) : Nat)
    let b : Int := (d.ltEntry p (16 * r + k + 1) : Nat)
    (clampInt 0 4095 (a + roundAway ((b - a) * ((u.toNat % 48 : Nat) : Int)) 48)).toNat

/-- All 16 table entries of a ring move by `by_` codes (R308). -/
def Dev.shiftEntries (d : Dev) (p r : Nat) (by_ : Int) : Dev :=
  d.modPt p (fun x => { x with ltab := (upTo 16).foldl (fun m k =>
    tset m (16 * r + k) (clampInt 0 4095 ((d.ltEntry p (16 * r + k) : Nat) + by_)).toNat) x.ltab })

/-- A captured heater code becomes the ring's set-point (R296 step 4, R299 step 5); on a legacy tile, what its table gives at
the present temperature (log entry 205). -/
def Dev.capture (d : Dev) (p ring code : Nat) : Dev :=
  if (d.pt p).lock = .legacy then
    let t := (d.pt p).temp.getD 640
    (d.shiftEntries p ring ((code : Int) - (d.ltCode p ring t : Nat))).modPt p (fun x => { x with htr := tset x.htr ring code })
  else
    let v := d.cal p ring + 16 * (code : Int) - d.ownPoint p ring (d.pt p).duty
    d.modPt p (fun x => { x with
      cal := tset x.cal ring v, htr := tset x.htr ring code, h0 := tdrop x.h0 ring })

/-- The counters of a physical tile's events belong to the logical tile it is bound to (R310). -/
def Dev.bumpLock (d : Dev) (p : Nat) (n : RegName) : Dev :=
  match d.logicalOf p with
  | some l => d.bump n (l / 4) (l % 4)
  | none => d

/-! ### Error signal (R277–R281) -/

/-- Amplitude of the dither, 1/256 level (R278). -/
def PTile.damp (x : PTile) : Nat := min 51 (x.cf 0 24 6)

/-- Dither runs: the tile is powered and not in a quiet period; under its legacy table only in a recalibration burst and
while a roadworks calibration checks or recovers its rings (R302, R307, R308). -/
def PTile.dither (x : PTile) : Bool :=
  x.lock != .off && x.lock != .faulted && x.quietFrom.isNone
    && (x.lock != .legacy || x.burst.isSome || x.acq.phase != 0)

/-- The dither offset of every line's rings in chip `n` of a window, 1/256 level (R277, R278); none while dither is off. -/
def PTile.ditherOf (x : PTile) (n : Nat) : List Int :=
  if x.dither then (upTo 64).map (fun j => if ditherNeg j n then -(x.damp : Int) else (x.damp : Int)) else []

/-- Held time × response of ring (i, j) over the window w0…w1 for a response by level (R279, R280). -/
def PTile.heldResp (x : PTile) (resp : Int → Int) (w0 w1 i j : Nat) : Int :=
  let resp (m : Levels) : Int := resp ((tget m i []).getD j 0)
  let step (a : Int × Nat) (h : Nat × Levels) : Int × Nat :=
    let t := min w1 (max a.2 h.1)
    (a.1 + ((t - a.2 : Nat) : Int) * resp h.2, t)
  let (acc, t) := x.trimHist.foldl step (0, w0)
  acc + ((w1 - t : Nat) : Int) * resp x.lev

/-- Held time × expected response of ring (i, j) over the window w0…w1, in Tc / 65,536 (R279). -/
def Dev.expected (d : Dev) (p w0 w1 i j : Nat) : Int :=
  (d.pt p).heldResp (fun l => d.cal p (5025 + l).toNat) w0 w1 i j

/-- Σ s_j(n) · m_i(n) over a window: the dither response of ring (i, j) (R279). -/
def ditherSum (i j : Nat) (mons : List Nat) : Int :=
  (upTo 64).foldl (fun (a : Int) n =>
    let m : Int := (mons.getD (64 * i + n) 0 : Nat)
    if ditherNeg j n then a - m else a + m) 0

/-- Row `i`'s mean monitor signal over w0…w1 deviates by more than QLIM/256 from that of the held trims and the line
powers (R298). -/
def Dev.rowDeviates (d : Dev) (p w0 w1 i : Nat) (mons taps : List Nat) : Bool :=
  let x := d.pt p
  let got : Int := 65536 * (windowTc : Int) * (((mons.drop (64 * i)).take 64).foldl (· + ·) 0 : Nat)
  let want := sumI ((upTo 64).map (fun j =>
    (taps.getD j 0 : Nat) * x.heldResp (fun l => (Config.monShare p l : Nat)) w0 w1 i j))
  x.cf 0 8 8 * want.natAbs < 256 * (got - want).natAbs

/-- A modulator ring's error: output-tap power over input-tap power, less the ratio expected at the mean drive level of
the window, scaled by the modulator's slope (R293). -/
def Dev.modError (d : Dev) (p j tap out mean : Nat) : Int :=
  let num := (65536 * (out : Int) - (Config.modRatio p j mean : Nat) * (tap : Int)) * d.cal p (5300 + j)
  sat16 (roundAway num (65536 * tap))

/-- The window w0…w1 yields no estimate on tile `p` at all (R281). -/
def Dev.windowHeld (d : Dev) (p w0 : Nat) : Bool :=
  let x := d.pt p
  let s := d.stk (regionOfP p / 2)
  !x.dither || s.gap.isSome || (match s.gapEnd with | some t => w0 < t | none => false)
    || (match d.tl.stepAt with | some t => w0 < t | none => false)
    || (match x.quietEnd with | some t => w0 < t | none => false)
    || (x.lock = .legacy && w0 < x.burstAt)

/-- The estimate of ring (i, j) in 1/512 GHz from the samples of row i's monitor and the sum of line j's tap. -/
def Dev.estimate (d : Dev) (p w0 w1 i j : Nat) (mons : List Nat) (tap : Nat) : Int :=
  let s := ditherSum i j mons
  let g := d.cal p 5003
  let num := 512 * (65536 * s * windowTc - d.expected p w0 w1 i j * tap)
  let den := (tap : Int) * g * windowTc
  sat16 (if 0 ≤ den then roundAway num den.natAbs else roundAway (-num) den.natAbs)

/-! ### Gain bands (R287–R289) -/

/-- A band index of `v` over rising thresholds: up at once, down only by the hysteresis (R288). -/
def bandOf (old : Nat) (v : Int) (thr : List Int) (hys : Int) : Nat :=
  let up := (thr.filter (· ≤ v)).length
  let down := (thr.filter (fun t => t - hys < v)).length
  max up (min old down)

/-- The gain-set index called for at a window boundary, and the band values. -/
def Dev.gainIndex (d : Dev) (p : Nat) : Nat × (Nat × Nat × Nat) :=
  let x := d.pt p
  let (tb, pb, ab) := x.bands
  let tb := match x.temp with
    | some t => bandOf tb t [sx 16 (x.cf 3 0 16), sx 16 (x.cf 3 16 16), sx 16 (x.cf 4 0 16)] (sx 16 (x.cf 4 16 16))
    | none => tb
  let lines := (d.stk (regionOfP p / 2)).lines
  let sum := (upTo 64).foldl (fun a l => a + tget lines l 0) (0 : Int)
  let thr := 64 * sx 16 (x.cf 5 16 16)
  let pb := if sum ≤ thr then 1 else if thr + 64 * 20 < sum then 0 else pb
  let ab := if x.cf 5 8 8 * windowUnits ≤ 100 * x.duty then 1
    else if 100 * x.duty < x.cf 5 0 8 * windowUnits then 0 else ab
  (if x.cf 0 20 1 = 1 then x.cf 0 16 4 else 4 * tb + 2 * pb + ab, (tb, pb, ab))

/-- A window boundary: an index found at the last one takes effect, a new one is noted (R288, R289). Patch 63 of the
sample that still runs keeps the set before (R285), which may itself be new to it. -/
def Dev.gainBoundary (d : Dev) (p : Nat) : Dev :=
  let x := d.pt p
  let late := if x.gnewLast || x.gnew.contains 63 then [63] else []
  let x : PTile := { x with
    gsetOld := x.gset, gnewLast := false, gnew := x.gnew.filter (· != 63) ++ late }
  let d := match x.gnext with
    | some g =>
      if g = x.gset then d.setPt p { x with gnext := none }
      else (d.setPt p { x with gset := g, gnew := upTo 63 ++ late, gnewLast := true, gnext := none }).bumpLock p .LOCK_CNT_GSW
    | none => d.setPt p x
  let (g, bands) := d.gainIndex p
  d.modPt p (fun x => { x with bands, gnext := if g = x.gset then none else some g })

/-! ### Loss of lock, acquisition and leaving the map -/

/-- STALE on contributions of physical tile `p` from integrations that started at or after `t` (R295). -/
def Dev.markStale (d : Dev) (e sl p t : Nat) : Dev :=
  let d := d.modEng e (fun x => { x with areas := x.areas.map (fun a =>
    let vst := a.2.vst.map (fun v =>
      if t ≤ tget v.2.starts p 0 && (tfind v.2.starts p).isSome then (v.1, { v.2 with stale := true }) else v)
    (a.1, { a.2 with vst })) })
  d.modSlot e sl (fun s => { s with
    convs := s.convs.map (fun c => if c.2.ptile = p && t ≤ c.2.ts then (c.1, { c.2 with stale := true }) else c) })

/-- Rings not controlled any more: what the law and supervision gathered is dropped. -/
def PTile.idleLoop (x : PTile) : PTile :=
  { x with beyonds := [], clamped := [], miss := [], darkFrom := [], err := [], errOld := [], est := none, qtrip := []
           burst := none }

/-- The state a logical tile has from the lock state of its physical tile (R309). -/
def PTile.tileState (x : PTile) : TileState :=
  match x.lock with
  | .locked | .legacy => .idle
  | .relock => .lockLost
  | .off => .off
  | .faulted => .unbound
  | .ramp | .settle | .sweep | .capture | .identity => .acquiring

/-- A spare's preparation ends: it follows no working tile any more (R353). -/
def Region.unprepared (r : Region) : Region := { r with preparing := false, ready := false, prep := none }

/-- A switch or takeover is given up before its map update (R297): the tile keeps its old binding. -/
def Dev.abandonSwap (d : Dev) (rg : Nat) : Dev :=
  let r := d.rgn rg
  match r.swap with
  | none => d
  | some w =>
    if w.updated then d else
    let d := d.setRgn rg (Region.unprepared { r with swap := none, winEnd := d.time })
    let e := w.lt / 4
    let t := w.lt % 4
    let d := (d.bumpFld .DEV_RDWK_CNT 0 8 rg).logNow (srcRegion rg) 0x0505 [(1, 1), (1, w.lt)]
    let d := d.publish 0xA (srcRegion rg) [(1, 2), (1, w.lt), (1, w.old), (1, w.new)] w.inst
    if (d.slot e t).st = .swapping then
      let back := (d.pt w.old).tileState
      let d := d.modSlot e t (fun s => { s with st := back })
      if back = TileState.idle then d.kick e t else d.slotLost e t
    else d

/-- The duty a tile in lock gives its logical tile, kept as its last (R24, R286; log entry 203). -/
def Dev.keepDuty (d : Dev) (p : Nat) : Dev :=
  match d.logicalOf p with
  | some n =>
    let rg := regionOfP p
    if (d.pt p).up then d.setRgn rg { d.rgn rg with lastDuty := tset (d.rgn rg).lastDuty n ((d.pt p).duty / 64) } else d
  | none => d

/-- A full acquisition starts (R299 step 1, R300, R315), its heaters ramping from 0, or after a shutdown from the park
codes (R359). A logical tile that a switch holds stays SWAPPING: the switch proceeds (R297). -/
def Dev.startAcq (d : Dev) (p : Nat) (parked : Bool := false) : Dev :=
  let d := (d.keepDuty p).modPt p (fun x => PTile.idleLoop { x with
    lock := .ramp, since := d.time, acq := { full := true }, mlev := List.replicate 64 15
    trim := [], lev := [], trimHist := [], htr := [], xbar := [], xhat := [], bump := [], modInt := []
    quietFrom := none, quietAsk := false, quietStop := false
    drv := (upTo 64).map (fun j => d.driveCode p j 15)
    mbias := (upTo 64).map (fun j => (j, clampInt (-512) 511 (Config.factoryCal p (5100 + j))))
    h0 := allRings.map (fun r => (r, if parked then 16 * (d.park p r : Int) else 0)), ramping := true })
  match d.logicalOf p with
  | some n =>
    let e := n / 4
    let t := n % 4
    (d.modSlot e t (fun s => { s with
      st := if s.st = .swapping then .swapping else .acquiring, stale := true })).slotLost e t
  | none => d

/-- No spare is due any more in region `rg`: a REPLACING tile becomes UNBOUND (R24, log entry 151). -/
def Dev.noSpareDue (d : Dev) (rg : Nat) : Dev :=
  (upTo 16).foldl (fun d k =>
    let e := (16 * rg + k) / 4
    let t := k % 4
    if (d.slot e t).st = TileState.replacing && d.phys (16 * rg + k) = 0xFF then
      (d.modSlot e t (fun s => { s with st := .unbound })).slotLost e t else d) d

/-- The lock state becomes FAULTED (R24, R445): the tile leaves the map. -/
def Dev.faultTile (d : Dev) (p cause : Nat) : Dev :=
  let rg := regionOfP p
  let d := ((d.keepDuty p).endTest p).modPt p (fun x => PTile.idleLoop { x with
    lock := .faulted, since := d.time, gone := true, acq := {}, mlev := [], warm := none, trim := [],
    lev := [], trimHist := [], mbias := [], h0 := [], ramping := false, quietFrom := none,
    quietAsk := false, quietStop := false })
  let d := d.logNow (srcPtile p) 0x0503 [(1, cause)]
  let d := d.endJobs (fun j => j.opcode = 0x0704 && j.f 0 1 = p) stFaulted
  let d := if (d.rgn rg).cal = some p then d.setRgn rg { d.rgn rg with cal := none, step := 0 } else d
  match d.logicalOf p with
  | some n =>
    let e := n / 4
    let t := n % 4
    let sp := d.spare rg
    if sp = 0xFF then
      ((d.mapUpdate [(n, 0xFF)] []).modSlot e t (fun s => { s with st := .unbound })).slotLost e t
    else if !bit d.cp.regions rg then
      -- Before the region is ready no work runs: the spare takes the role at once (R445).
      let d := ((d.mapUpdate [(n, sp)] [(rg, 0xFF)]).bindCfg sp).endTest sp
      let up := (d.pt sp).lock = .locked || (d.pt sp).lock = .legacy
      d.modSlot e t (fun s => { s with st := if up then .idle else .acquiring, stale := true })
    else
      -- The spare is to be prepared with this tile's last duty (R24), whatever it was being prepared for.
      let d := d.setRgn rg (let r := d.rgn rg
        if r.swap.isNone then r.unprepared else r)
      ((d.mapUpdate [(n, 0xFF)] []).modSlot e t (fun s => { s with st := .replacing })).slotLost e t
  | none =>
    if d.spare rg = p then
      let d := (d.abandonSwap rg).mapUpdate [] [(rg, 0xFF)]
      (d.setRgn rg (d.rgn rg).unprepared).noSpareDue rg
    else d

/-- A loss of lock is logged, signalled and counted (R295 steps 4 to 6). -/
def Dev.recordLoss (d : Dev) (p cause row line mod good : Nat) : Dev :=
  let losses := d.time :: (d.pt p).losses.filter (fun t => d.time < t + tenSeconds)
  let d := d.modPt p (fun x => { x with losses, lastLoss := some (cause, row, line, mod, good) })
  let d := d.logNow (srcPtile p) 0x0501 [(1, cause), (1, row), (1, line), (1, mod), (8, good)]
  let lt := (d.logicalOf p).getD 0xFF
  let d := d.publish 9 (srcPtile p) [(1, cause), (1, row), (1, line), (1, mod), (1, lt), (8, good)] d.time
  d.bumpLock p .LOCK_CNT_LOST

/-- A ring as (row, line, MOD). -/
def ringName (r : Nat) : Nat × Nat × Nat := if r < 4096 then (r / 64, r % 64, 0) else (0, r - 4096, 1)

/-- An acquisition, a re-acquisition or an identity check fails on ring `r`: a loss with cause ACQ (R294, R303). A
re-acquisition becomes a full acquisition, anything else ends FAULTED (R296, R356). -/
def Dev.acqFail (d : Dev) (p r : Nat) : Dev :=
  let relock := (d.pt p).lock = .relock
  let n := ringName r
  let d := d.recordLoss p 5 n.1 n.2.1 n.2.2 (d.pt p).lastGood
  if relock then d.startAcq p else d.faultTile p 5

/-- The tile is locked (R296 step 4, R299 step 8, R464). -/
def Dev.tileUp (d : Dev) (p : Nat) : Dev :=
  let rg := regionOfP p
  let d := d.modPt p (fun x => { x with
    lock := if x.legacy then .legacy else .locked, since := d.time, acq := {}, mlev := [] })
  match d.logicalOf p with
  | some n =>
    let e := n / 4
    let t := n % 4
    let s := d.slot e t
    if s.st = .acquiring || s.st = .lockLost then
      (d.modSlot e t (fun s => { s with st := .idle })).kick e t
    else d
  | none =>
    let acq := d.cp.jobs.any (fun j => j.opcode = 0x0704 && j.f 0 1 = p)
    if acq then
      if d.spare rg = 0xFF then
        (((d.modPt p (fun x => { x with gone := false })).mapUpdate [] [(rg, p)]).takeCfg p).endJobs (fun j => j.opcode = 0x0704 && j.f 0 1 = p) stOk
      else d.endJobs (fun j => j.opcode = 0x0704 && j.f 0 1 = p) stOk
    else d

/-- LOCK_LOST is declared (R295–R298). -/
def Dev.loseLock (d : Dev) (p cause row line mod : Nat) : Dev :=
  let d := d.keepDuty p
  let x := d.pt p
  let good := x.quietFrom.getD x.lastGood
  let quiet := x.quietFrom.isSome
  let d := d.setPt p (PTile.idleLoop { x with
    lock := .relock, since := d.time, acq := { full := false }, lastGood := good
    quietAsk := false, quietStop := x.quietStop || quiet })
  let d := d.recordLoss p cause row line mod good
  let d := if quiet && !x.quietStop then d.bumpLock p .LOCK_CNT_QEND else d
  let d := match d.logicalOf p with
    | some n =>
      let e := n / 4
      let t := n % 4
      let d := d.markStale e t p good
      let s := d.slot e t
      let d := if s.st = TileState.idle then d.modSlot e t (fun s => { s with st := .lockLost }) else d
      d.slotLost e t
    | none => d
  -- R297: the incoming spare of a switch abandons it.
  let rg := regionOfP p
  let d := match (d.rgn rg).swap with
    | some w => if w.new = p && !w.updated then d.abandonSwap rg else d
    | none => d
  let d := if d.spare rg = p then d.setRgn rg { d.rgn rg with ready := false } else d
  if 3 ≤ (d.pt p).losses.length then d.startAcq p else d

/-! ### Sample windows and supervision -/

/-- A test injection's offset at sample `n` (R305); QUEUE takes its codes at its own clock. -/
def Inj.next (i : Inj) : Inj :=
  let n := i.n + 1
  if i.signal = 0 then { i with n, cur := i.amp }
  else if i.signal = 3 then { i with n }
  else { i with n, cur := Config.injWave i.signal i.amp i.f0 i.f1 i.durMs n }

/-- A signal of a capture, 16 bits (R306): e, u, the injected signal, x̂. -/
def PTile.signal (x : PTile) (i : Inj) (k : Nat) : Nat :=
  let r := i.ring
  let patch := r / 512 * 8 + r % 64 / 8
  let elem := r / 64 % 8 * 8 + r % 8
  unsx 16 (if k = 0 then tget x.err r 0 else if k = 1 then (i.u : Int)
    else if k = 2 then i.cur else (tget x.xhat patch []).getD elem 0)

/-- One window of an injection and its capture. -/
def PTile.injectWindow (x : PTile) (w1 : Nat) : PTile :=
  match x.inj with
  | none => x
  | some i =>
    let c := x.cap
    let take := c.active && i.n % 2 ^ i.decim = 0
    let word := x.signal i (i.sel % 4) + 65536 * x.signal i (i.sel / 4 % 4)
    let samples := if take then c.samples ++ [word] else c.samples
    let cap : Capture := { c with
      samples, first := if take && c.samples.isEmpty then w1 else c.first
      active := c.active && samples.length < 16384 }
    { x with cap, inj := some i.next }

/-- The tile recovers rings outside a full acquisition: in LOCK_LOST, or in roadworks calibration (R296, R355; log entry
153). -/
def PTile.recovers (x : PTile) : Bool := x.lock = .relock || (x.up && x.acq.phase != 0)

/-- A sweep runs: a full one, or a local one (R301). -/
def PTile.sweepFull (x : PTile) : Bool :=
  (x.lock = .sweep && x.acq.phase = 0) || (x.recovers && x.acq.phase = 5)
def PTile.sweepLocal (x : PTile) : Bool := (x.lock = .sweep || x.recovers) && x.acq.phase = 1

/-- Ring `r` is out of the loop: it is being moved or swept (R301, R304). -/
def PTile.out (x : PTile) (r : Nat) : Bool :=
  x.acq.moving.any (·.1 = r) || ((x.sweepFull || x.sweepLocal) && x.acq.rings.contains r)

/-- An identity check runs (R302). -/
def PTile.checking (x : PTile) : Bool :=
  (x.lock = .identity || (x.recovers && x.acq.phase = 3)) && x.acq.moving.isEmpty

/-- Levels of the input modulators while no window is open: 15 in a full acquisition (R299), else 0 (log entry 152). -/
def PTile.idleLev (x : PTile) : List Nat :=
  match x.lock with
  | .ramp | .settle | .sweep | .capture | .identity => List.replicate 64 15
  | _ => []

/-- Levels of the pilots in window `w` of a check (R302). -/
def pilotLev (w : Nat) : List Nat := (upTo 64).map (fun j => if ditherNeg j w then 11 else 15)

/-- The modulators drive the levels that they hold outside windows. -/
def Dev.driveIdle (d : Dev) (p : Nat) : Dev := d.driveLevels p (d.pt p).mlev

/-- An identity check begins. -/
def Dev.startCheck (d : Dev) (p : Nat) : Dev :=
  (d.modPt p (fun x => { x with
    mlev := pilotLev 0, acq := { x.acq with from_ := d.time, wins := 0, corr := [] } })).driveIdle p

/-- Rings whose line is to be confirmed `need` times more. -/
def Acq.toCheck (a : Acq) (need : Nat) (rs : List Nat) : Acq :=
  { a with todo := rs.foldl (fun m r => tset m r (need, 0)) a.todo }

/-- Every weight ring's line is to be confirmed `need` times, from now on. -/
def Dev.checkAll (d : Dev) (p need : Nat) : Dev :=
  (d.modPt p (fun x => { x with acq := { x.acq with todo := (upTo 4096).map (fun r => (r, (need, 0))) } })).startCheck p

/-- One window of an identity check: each ring's dither response is correlated with three pilots (R302). -/
def PTile.checkWindow (x : PTile) (w0 : Nat) (held : Bool) (mons : List Nat) : PTile :=
  if !x.checking || held || w0 + chipTc ≤ x.acq.from_ || 64 ≤ x.acq.wins then x
  else
    let w := x.acq.wins
    let corr := x.acq.todo.map (fun t =>
      let r := t.1
      let v := ditherSum (r / 64) (r % 64) mons
      let c := tget x.acq.corr r (0, 0, 0)
      let with_ (j : Nat) (a : Int) : Int := if ditherNeg j w then a - v else a + v
      (r, (if r % 64 = 0 then 0 else with_ (r % 64 - 1) c.1, with_ (r % 64) c.2.1,
        if r % 64 = 63 then 0 else with_ (r % 64 + 1) c.2.2)))
    { x with acq := { x.acq with corr, wins := w + 1 }, mlev := if w = 63 then x.idleLev else pilotLev (w + 1) }

/-- Mean level of line `j`'s modulator over the window that ends, in 1/256 (R293). -/
def PTile.meanLev (x : PTile) (j : Nat) : Nat :=
  (tget x.mdrv j 0 + x.mlev.getD j 0 * (windowUnits - min windowUnits x.winAct)) * 256 / windowUnits

/-- SAMPLE_WINDOW_END: the window that ended last is demodulated, and the next begins (R276, R279–R281, R286–R289,
R293, R298). `mons` are the 64 × 64 samples of the row monitors, `taps` and `outs` the input-tap and output-tap sums by
line. A spare that is being prepared takes up its working tile's duty (R353). -/
def Dev.windowEnd (d : Dev) (p : Nat) (mons taps outs : List Nat) : Dev :=
  let mons := mons.map lockAdc
  let taps := taps.map lockSum
  let outs := outs.map lockSum
  let w1 := d.time / windowTc * windowTc
  let x := d.pt p
  if w1 < windowTc || x.lock = .off || x.lock = .faulted then d
  else
    let w0 := w1 - windowTc
    let held := d.windowHeld p w0
    let tap (j : Nat) : Nat := taps.getD j 0
    -- A line is dark below 1/8 of its commissioning power (R281).
    let dark := (upTo 64).filter (fun j => 8 * tap j < Config.tapFull p j)
    let ok := (upTo 64).filter (fun j => !dark.contains j && tap j != 0)
    let weights : Tbl Int := if held then [] else
      (upTo 64).flatMap (fun i => ok.map (fun j => (64 * i + j, d.estimate p w0 w1 i j mons (tap j))))
    let modEs : Tbl Int := if held then [] else
      ok.map (fun j => (4096 + j, d.modError p j (tap j) (outs.getD j 0) (x.meanLev j)))
    let s := d.stk (regionOfP p / 2)
    let forced := match s.gap with | some g => g.forced | none => false
    let darkFrom : Tbl Nat := if forced then [] else
      (upTo 64).filterMap (fun j => if dark.contains j then some (j, tget x.darkFrom j w0) else none)
    let qtrip := if x.quietFrom.isSome && x.cf 0 8 8 != 0 then
      (upTo 64).filter (fun i => d.rowDeviates p w0 w1 i mons taps) else []
    let d := d.setPt p (PTile.checkWindow (PTile.injectWindow { x with
      est := some (w1, weights ++ modEs, dark), qtrip, darkFrom, trimHist := [], winAt := w1
      dutyOld := x.duty, duty := x.winAct, winAct := 0, mdrv := []
      warm := match d.tracked p with | some w => x.warm.map (fun _ => (d.pt w).duty / 64) | none => x.warm } w1) w0 held mons)
    ((d.takeCfg p).gainBoundary p).driveIdle p

/-- The first loss cause of R294 that applies to tile `p`, with row, line and MOD; a ring that is being moved or swept is not
judged. -/
def Dev.lossCause (d : Dev) (p w1 : Nat) : Option (Nat × Nat × Nat × Nat) :=
  let x := d.pt p
  let hard : Int := (8 * x.cf 1 20 12 : Nat)
  let time := max 1 (x.cf 1 0 8)
  let follow := allRings.find? (fun r => time ≤ tget x.beyonds r 0 || time ≤ tget x.clamped r 0)
  match follow with
  | some r => some (0, ringName r)
  | none =>
    match x.err.find? (fun e => (hard < e.2 || e.2 < -hard) && !x.out e.1) with
    | some (r, _) => some (1, ringName r)
    | none =>
      match x.darkFrom.find? (fun l => l.2 + quietLimitTc ≤ w1) with
      | some (l, _) => some (3, 0, l, 0)
      | none =>
        match (if x.quietFrom.isSome then x.qtrip.head? else none) with
        | some i => some (4, i, 0, 0)
        | none => none

/-- Of a swept ring, its last estimate and the codes found so far, after one more estimate at code `code` (R301; log
entry 198). -/
def PTile.sweepSeen (x : PTile) (p r code : Nat) (e : Int) : PTile :=
  let crossed := match tfind x.acq.lastE r with
    | some o => if Config.flank p r then decide (o < 0 ∧ 0 ≤ e) else decide (0 < o ∧ e ≤ 0)
    | none => false
  { x with acq := { x.acq with
      lastE := tset x.acq.lastE r e, found := if crossed then x.acq.found ++ [(r, code)] else x.acq.found } }

/-- A sweep of rings `rs` begins: each ring's code goes to the low end of its range (R301). -/
def Dev.startSweep (d : Dev) (p : Nat) (full : Bool) (rs : List Nat) : Dev :=
  let x := d.pt p
  let mid (r : Nat) : Nat := if full then d.park p r else tget x.htr r 0
  let span := if full then 1536 else 256
  d.setPt p { x with
    htr := rs.foldl (fun h r => tset h r (mid r - span)) x.htr
    acq := { x.acq with
      rings := rs, lastE := [], found := []
      goal := rs.map (fun r => (r, min 4095 (mid r + span))) } }

/-- A legacy tile's burst: its windows' errors are summed, and after the last each ring's table entries move by the mean of
the errors it had (R308). A window without estimates is one of the eight too. -/
def Dev.burstWindow (d : Dev) (p w1 : Nat) (es : Tbl Int) : Dev :=
  let x := d.pt p
  match x.burst with
  | none => d
  | some (n, sums) =>
    if w1 < x.burstAt + windowTc then d
    else
      let add (s : Int × Nat) (v : Int) : Int × Nat := (s.1 + v, s.2 + 1)
      let sums := es.foldl (fun m e => tset m e.1 (add (tget m e.1 (0, 0)) e.2)) sums
      if 1 < n then d.setPt p { x with burst := some (n - 1, sums) }
      else sums.foldl (fun d e => d.shiftEntries p e.1 (roundAway (e.2.1 * d.cal p (6000 + e.1)) (e.2.2 * 131072)))
        (d.setPt p { x with burst := none })

/-- ESTIMATES_READY: the window's estimates reach the law, after supervision (R279, R294–R296), and a sweep that runs looks for
crossings in them, in an acquisition as in roadworks calibration (R301). -/
def Dev.estimatesReady (d : Dev) (p : Nat) : Dev :=
  let x := d.pt p
  match x.est with
  | none => d
  | some (w1, es, _) =>
    let limit : Int := (8 * x.cf 1 8 12 : Nat)
    let beyond (v : Int) : Bool := limit < v || v < -limit
    -- A held ring's count freezes, and that of a ring out of the loop.
    let beyonds := es.foldl (fun m e =>
      if x.out e.1 then m else if beyond e.2 then tset m e.1 (tget m e.1 0 + 1) else tdrop m e.1) x.beyonds
    let good := es.length = 4160 && !es.any (fun e => beyond e.2)
    let d := d.setPt p { x with est := none, err := es, errAt := w1, errOld := x.err, beyonds
                                lastGood := if good then w1 else x.lastGood }
    let judged := x.lock = .locked || (x.lock = .legacy && (x.burst.isSome || x.acq.phase != 0))
    match (if judged then d.lossCause p w1 else none) with
    | some (c, r, l, m) => d.loseLock p c r l m
    | none =>
    let d := d.burstWindow p w1 es
    if x.lock = .relock && x.acq.phase = 0 && x.since + windowTc ≤ w1 && !es.isEmpty then
      let bad := (es.filter (fun e => beyond e.2)).map (·.1)
      if bad.isEmpty then (d.modPt p (fun x => { x with acq := { x.acq with phase := 3 } })).checkAll p 1
      else (d.modPt p (fun x => { x with acq := { x.acq with phase := 1 } })).startSweep p false bad
    else if x.sweepFull || x.sweepLocal then
      es.foldl (fun d e =>
        if x.acq.rings.contains e.1 then d.modPt p (fun y => y.sweepSeen p e.1 (tget x.htr e.1 0) e.2) else d) d
    else d

/-! ### The patch law (R282–R293) -/

/-- Ring `k` of patch `q` (R282). -/
def patchRing (q k : Nat) : Nat := 64 * (8 * (q / 8) + k / 8) + 8 * (q % 8) + k % 8

/-- The number of the chip that is the slot of patch `q`, now or up to its end now (R285); the modulators' laws, 64 + line,
have the slot of patch 0 (R293). -/
def Dev.slotOf (d : Dev) (q : Nat) : Option Nat :=
  let want := if q < 64 then (q + 1) % 64 else 1
  let c := d.time / chipTc
  if c % 64 = want then some c
  else if 0 < d.time && (d.time - 1) / chipTc % 64 = want then some ((d.time - 1) / chipTc) else none

/-- The slot of patch or modulator ring `q` in which it has neither run nor missed yet. -/
def Dev.freeSlot (d : Dev) (p q : Nat) : Option Nat :=
  match d.slotOf q with
  | some c => if tget (d.pt p).ran q 0 = c + 1 then none else some c
  | none => none

/-- The estimates of the sample that runs in chip `c` (R285): patch 63 runs one window later than the others. None where
they are late (R291). -/
def PTile.sampleErr (x : PTile) (q c : Nat) : Option (Tbl Int) :=
  let w := c / 64 * windowTc
  if q = 63 then
    if x.errAt = w then some x.errOld else if x.errAt + windowTc = w then some x.err else none
  else if x.errAt = w then some x.err else none

/-- The loop is closed; in RAMP and SETTLE it is open (R299). -/
def PTile.closed (x : PTile) : Bool := x.lock != .ramp && x.lock != .settle

/-- The states in which the laws run: not in a full sweep of a full acquisition, nor under a legacy table (log
entry 153). -/
def PTile.loop (x : PTile) : Bool :=
  x.lock != .off && x.lock != .faulted && !(x.lock = .sweep && x.acq.phase = 0) && x.lock != .legacy

/-- A sample of patch `q`, or of modulator ring 64 + line, in chip `c` is dropped (R291, R293). -/
def Dev.missSample (d : Dev) (p q c : Nat) : Dev :=
  let x := d.pt p
  let n := tget x.miss q 0 + 1
  let d := (d.setPt p { x with
    miss := tset x.miss q n, ran := tset x.ran q (c + 1), dlmiss := true }).bumpLock p .LOCK_CNT_DLMISS
  if 4 ≤ n && x.lock = .locked then
    if q < 64 then d.loseLock p 2 (8 * (q / 8)) (8 * (q % 8)) 0 else d.loseLock p 2 0 (q - 64) 1
  else d

/-- A coefficient word fails in chip `c` (R291, R461). -/
def Dev.coefFails (d : Dev) (p q c word : Nat) : Dev :=
  let x := d.pt p
  let again := x.coefBad = some word
    && (match x.coefAt with | some t => decide (d.time < t + tenSeconds) | none => false)
  let d := d.logNow (srcPtile p) 0x0205 [(4, word)]
  if again then d.faultTile p (match x.lastLoss with | some l => l.1 | none => 5)
  else (d.modPt p (fun x => { x with coefBad := some word, coefAt := none })).missSample p q c

/-- A heater code written to a ring: the law's output with an injected offset (R305). -/
def PTile.drive (x : PTile) (ring : Nat) (u : Int) : PTile :=
  match x.inj with
  | some i =>
    if i.ring = ring then
      let base : Int := match i.frozen with | some f => (f : Nat) | none => u
      { x with
        inj := some { i with u := (clampInt 0 4095 base).toNat }
        htr := tset x.htr ring (clampInt 0 4095 (base + i.cur)).toNat }
    else { x with htr := tset x.htr ring (clampInt 0 4095 u).toNat }
  | none => { x with htr := tset x.htr ring (clampInt 0 4095 u).toNat }

/-- The ring of `rs` that a test drives takes the signal's present offset over its last code, unless it is out (R305). -/
def PTile.driveTest (x : PTile) (rs : List Nat) : PTile :=
  match x.inj with
  | some i => if rs.contains i.ring && !x.out i.ring then x.drive i.ring i.u else x
  | none => x

/-- The law's last output for a ring: its heater code, ahead of an injected offset. -/
def PTile.lawCode (x : PTile) (ring : Nat) : Nat :=
  match x.inj with
  | some i => if i.ring = ring then i.u else tget x.htr ring 0
  | none => tget x.htr ring 0

/-- A code of the law, with the count of clamped samples of R294; a held ring's count freezes. -/
def PTile.law (x : PTile) (ring : Nat) (u : Int) (held : Bool) : PTile :=
  let c := if held then x.clamped
    else if u < 0 || 4095 < u then tset x.clamped ring (tget x.clamped ring 0 + 1) else tdrop x.clamped ring
  PTile.drive { x with clamped := c } ring (clampInt 0 4095 u)

/-- One sample of a heater's move at 16 codes per sample towards `goal` (R301, R304, R313, R358). -/
def PTile.stepCode (x : PTile) (ring : Nat) (goal : Nat) : PTile :=
  { x with htr := tset x.htr ring (towards (tget x.htr ring 0 : Nat) goal 16).toNat }

/-- The rings of `rs` that are out of the loop make their sample's step (R301, R304). -/
def PTile.stepOut (x : PTile) (rs : List Nat) : PTile :=
  rs.foldl (fun y r => if y.out r then
      match tfind y.acq.goal r with | some g => y.stepCode r g | none => y
    else y) x

/-- The law of modulator ring `j` in chip `c` with error `e`; none while the ring is held (R293). -/
def Dev.modLawWith (d : Dev) (p c j : Nat) (e : Option Int) : Dev :=
  let r := 4096 + j
  let x := d.pt p
  let x : PTile := { x with miss := tdrop x.miss (64 + j), ran := tset x.ran (64 + j) (c + 1) }
  if x.out r then d.setPt p (x.stepOut [r])
  else
    let i := tget x.modInt j 0 + d.cal p 5201 * e.getD 0
    let u := roundAway (8192 * d.h0Now p r - (d.cal p 5200 * e.getD 0 + i)) 131072
    d.setPt p (PTile.law { x with modInt := tset x.modInt j i } r u e.isNone)

/-- The law of modulator ring `j` runs in chip `c`, or misses for want of its error (R291, R293). -/
def Dev.modLaw (d : Dev) (p c j : Nat) : Dev :=
  if tget (d.pt p).ran (64 + j) 0 = c + 1 then d
  else
    let d := d.rampRing p (4096 + j)
    let x := d.pt p
    match x.sampleErr 0 c with
    | none => if x.closed then d.missSample p (64 + j) c else d.modLawWith p c j none
    | some es => d.modLawWith p c j (if x.closed && x.quietFrom.isNone then tfind es (4096 + j) else none)

/-- The laws of the modulator rings, in the slot of patch 0 whatever becomes of patch 0 (R293). -/
def Dev.modLaws (d : Dev) (p c : Nat) : Dev := (upTo 64).foldl (fun d j => d.modLaw p c j) d

/-- The observer control law of patch `q` in chip `c` with the estimates `es` (R283, R284, R289, R292). -/
def Dev.patchLaw (d : Dev) (p q c : Nat) (es : Tbl Int) : Dev :=
  let d := (upTo 64).foldl (fun d k => d.rampRing p (patchRing q k)) d
  let x := d.pt p
  -- Patch 63 belongs to the sample before the last boundary (R285).
  let old : Bool := q = 63 && x.winAt = c / 64 * windowTc
  let g := if old then x.gsetOld else x.gset
  let duty := if old then x.dutyOld else x.duty
  let open_ (r : Nat) : Bool := match x.inj with | some i => i.ring = r && i.frozen.isSome | none => false
  let heldK (k : Nat) : Bool :=
    !x.closed || x.quietFrom.isSome || (tfind es (patchRing q k)).isNone || open_ (patchRing q k)
  let xb (k : Nat) : Int := (tget x.xbar q []).getD k 0
  let nu (k : Nat) : Int :=
    if heldK k then 0 else sat16 (tget es (patchRing q k) 0 - xb k)
  let xhat : List Int :=
    (upTo 64).map (fun k => sat16 (xb k + roundAway (d.lGain p g k * nu k) 32768)) ++
    (upTo 8).map (fun r => sat16 (xb (64 + r) +
      roundAway (d.lsGain p g r * sumI ((upTo 8).map (fun c => nu (8 * r + c)))) 262144))
  let kx (k : Nat) : Int := sumI ((upTo 72).map (fun m => d.kGain p g k m * xhat.getD m 0))
  let xbar := (upTo 72).map (fun r =>
    sat16 (roundAway (sumI ((upTo 72).map (fun c => d.psi p g r c * xhat.getD c 0))) 16384))
  let late := q = 63 && !old && x.gnewLast
  let fresh := x.gnew.contains q || late
  let b (k : Nat) : Int := (tget x.bump q []).getD k 0
  let prev (k : Nat) : Int := (x.lawCode (patchRing q k) : Nat)
  let h0 (k : Nat) : Int := (tfind x.h0 (patchRing q k)).getD (d.setPointAt p (patchRing q k) duty)
  let b' (k : Nat) : Int :=
    let v := if fresh then satQ12 (16 * (prev k - roundAway (8192 * h0 k - kx k) 131072)) else b k
    v - roundAway v 8
  let u (k : Nat) : Int := roundAway (8192 * (h0 k + b k) - kx k) 131072
  let x := (upTo 64).foldl (fun (x : PTile) k =>
    if x.out (patchRing q k) then x
    else if fresh then x.drive (patchRing q k) (prev k) else x.law (patchRing q k) (u k) (heldK k)) x
  d.setPt p (PTile.stepOut { x with
    xbar := tset x.xbar q xbar, xhat := tset x.xhat q xhat, bump := tset x.bump q ((upTo 64).map b')
    miss := tdrop x.miss q, ran := tset x.ran q (c + 1)
    gnewLast := x.gnewLast && !late
    gnew := if fresh then x.gnew.filter (· != q) else x.gnew } ((upTo 64).map (patchRing q)))

/-- PATCH_SAMPLE: one sample of one patch in its chip slot (R283–R289, R291, R292). `ce` coefficient words needed ECC
correction, `ue` names one that could not be corrected. -/
def Dev.patchSample (d : Dev) (p q ce : Nat) (ue : Option Nat) : Dev :=
  match d.freeSlot p q with
  | none => d
  | some c =>
    let x := d.pt p
    if x.lock = .faulted || x.parking then
      d.modPt p (fun x =>
        let rs := (upTo 64).map (patchRing q) ++ (if q = 0 then (upTo 64).map (4096 + ·) else [])
        rs.foldl (fun y r => y.stepCode r (d.park p r)) { x with ran := tset x.ran q (c + 1) })
    else if x.lock = .sweep && x.acq.phase = 0 then
      d.modPt p (fun x => PTile.stepOut { x with ran := tset x.ran q (c + 1) }
        ((upTo 64).map (patchRing q) ++ (if q = 0 then (upTo 64).map (4096 + ·) else [])))
    else if x.lock = .legacy then
      -- No law runs under a table: rings that are moved or swept step, and a test signal goes on (R304, R305, R307).
      let rs := (upTo 64).map (patchRing q) ++ (if q = 0 then (upTo 64).map (4096 + ·) else [])
      d.modPt p (fun x => PTile.driveTest (PTile.stepOut { x with ran := tset x.ran q (c + 1) } rs) rs)
    else if !x.loop then d
    else
      let d := if q = 0 then d.modLaws p c else d
      match ue with
      | some w => d.coefFails p q c w
      | none =>
        if 1 < ce then d.missSample p q c
        else match (d.pt p).sampleErr q c with
          | some es => d.patchLaw p q c es
          | none => if x.closed then d.missSample p q c else d.patchLaw p q c []

/-- PATCH_DEADLINE_MISS: the slot of patch `q`, or of modulator ring 64 + line, ends with its sample incomplete (R291,
R293). -/
def Dev.deadlineMiss (d : Dev) (p q : Nat) : Dev :=
  match d.freeSlot p q with
  | none => d
  | some c =>
    if !(d.pt p).loop then d
    else (if q = 0 then d.modLaws p c else d).missSample p q c

/-! ### Acquisition (R296–R304) -/

/-- The identity of the rings is confirmed. -/
def Dev.identityOk (d : Dev) (p : Nat) : Dev :=
  let x := d.pt p
  if x.lock = .relock then
    (d.setPt p { x with mlev := [], acq := { x.acq with phase := 4, rings := [] } }).softStart p
  else if x.lock = .identity then d.tileUp p
  else d.setPt p { x with mlev := [], acq := { x.acq with phase := 6, rings := [] } }

/-- SOFT_START_COMPLETE (R292): every ring has reached its set-point; nothing while one has not. -/
def Dev.softStartDone (d : Dev) (p : Nat) : Dev :=
  let x := d.pt p
  if !x.h0.isEmpty then d
  else if x.lock = .ramp then
    d.setPt p { x with lock := .settle, since := d.time, ramping := false }
  else if x.lock = .relock && x.acq.phase = 4 then
    (d.setPt p { x with ramping := false }).tileUp p
  else if x.ramping then d.setPt p { x with ramping := false }
  else d

/-- 150 ms (R299 step 3). -/
def settleTc : Nat := 294912000

/-- THERMAL_SETTLE_END (R299 step 3). -/
def Dev.settleEnd (d : Dev) (p : Nat) : Dev :=
  let x := d.pt p
  if x.lock = .settle && x.since + settleTc ≤ d.time then
    (d.setPt p { x with lock := .sweep, since := d.time, acq := { full := true } }).startSweep p true allRings
  else d

/-- Of the codes found for ring `r`, the one nearest to `c` (R301). -/
def nearestFound (found : List (Nat × Nat)) (r c : Nat) : Option Nat :=
  found.foldl (fun best f =>
    if f.1 = r then
      match best with
      | some b => if ((f.2 : Int) - c).natAbs < ((b : Int) - c).natAbs then some f.2 else best
      | none => some f.2
    else best) none

/-- The rings being swept for which a code was found are captured; the others are left. -/
def Dev.captureAll (d : Dev) (p : Nat) : Dev × List Nat :=
  let x := d.pt p
  x.acq.rings.foldl (fun a r => match nearestFound x.acq.found r (d.park p r) with
    | some c => (a.1.capture p r c, a.2)
    | none => (a.1, a.2 ++ [r])) (d, [])

/-- Every ring being swept or moved has come to the end of its way. -/
def PTile.arrived (x : PTile) : Bool := x.acq.goal.all (fun g => tget x.htr g.1 0 = g.2)

/-- The rings' codes have been found: the loop closes over them (R296 step 2, R299 step 5). -/
def Dev.toCapture (d : Dev) (p : Nat) : Dev :=
  d.modPt p (fun y => { y with
    lock := if y.lock = .sweep then .capture else y.lock, since := if y.lock = .sweep then d.time else y.since
    acq := { y.acq with
      phase := if y.lock = .sweep then 0 else 2, from_ := d.time, rings := [], goal := [], moving := [] } })

/-- SWEEP_TOOTH_END (R299 step 4, R301, R303): the tooth has reached the top of every range. -/
def Dev.toothEnd (d : Dev) (p : Nat) : Dev :=
  let x := d.pt p
  if !x.sweepFull || !x.arrived then d
  else
    let (d, left) := d.captureAll p
    match left with
    | [] => d.toCapture p
    | r :: _ =>
      if x.lock = .sweep && x.acq.teeth = 0 && !left.any x.acq.swept.contains then
        (d.modPt p (fun y => { y with acq := { y.acq with teeth := 1 } })).startSweep p true left
      else d.acqFail p r

/-- LOCAL_SWEEP_END (R296 step 2, R301, R304). -/
def Dev.localSweepEnd (d : Dev) (p : Nat) : Dev :=
  let x := d.pt p
  if !x.sweepLocal || !x.arrived then d
  else
    let (d, left) := d.captureAll p
    match left with
    | [] => d.toCapture p
    | r :: _ => d.acqFail p r

/-- 50 ms and 5 ms of capture (R296, R299). -/
def captureTc : Nat := 98304000
def recaptureTc : Nat := 9830400

/-- CAPTURE_END (R296 step 2, R299 step 5): the loop is closed, the identity check follows, of every ring that none is
running for yet. -/
def Dev.captureEnd (d : Dev) (p : Nat) : Dev :=
  let x := d.pt p
  let due := x.acq.from_ + (if x.lock = .capture && !x.acq.again then captureTc else recaptureTc) ≤ d.time
  let next (d : Dev) (need : Nat) : Dev := if x.acq.todo.isEmpty then d.checkAll p need else d.startCheck p
  if !due then d
  else if x.lock = .capture then
    next (d.setPt p { x with lock := .identity, since := d.time, acq := { x.acq with phase := 0 } }) 2
  else if x.recovers && x.acq.phase = 2 then
    next (d.setPt p { x with acq := { x.acq with phase := 3 } }) 1
  else d

/-- The line a ring was found on, relative to its own, from the magnitudes of lines j − 1, j, j + 1 (R302, R303);
none where the check is inconclusive. -/
def foundLine (c : Int × Int × Int) : Option Int :=
  let a := c.1.natAbs
  let b := c.2.1.natAbs
  let c := c.2.2.natAbs
  if 2 * max b c ≤ a && 0 < a then some (-1)
  else if 2 * max a c ≤ b && 0 < b then some 0
  else if 2 * max a b ≤ c && 0 < c then some 1
  else none

/-- The move of a ring found on line j + m, in heater codes (R304). -/
def Dev.lineStep (d : Dev) (p r : Nat) (m : Int) : Int := roundAway (m * 75 * d.cal p (6000 + r)) 256

/-- Rings found on a wrong line are taken out of the loop and moved (R304); they are checked again (R299 step 7). -/
def Dev.rescue (d : Dev) (p : Nat) (wrong : List (Nat × Int)) : Dev :=
  let place (w : Nat × Int) : Int := (tget (d.pt p).htr w.1 0 : Nat) + d.lineStep p w.1 w.2
  if wrong.any (fun w => place w < 0 || 4095 < place w) then
    d.faultTile p (match (d.pt p).lastLoss with | some l => l.1 | none => 5)
  else
    let goal := wrong.map (fun w => (w.1, (place w).toNat))
    let d := wrong.foldl (fun d w =>
      (d.bumpLock p .LOCK_CNT_WRONG).logNow (srcPtile p) 0x0502
        [(1, w.1 / 64), (1, w.1 % 64), (1, unsx 8 w.2), (2, unsx 16 (d.lineStep p w.1 w.2))]) d
    d.modPt p (fun x => { x with
      mlev := x.idleLev
      acq := Acq.toCheck { x.acq with moving := wrong, rings := wrong.map (·.1), again := true, goal } 1
        (wrong.map (·.1)) })

/-- IDENTITY_CHECK_END (R302–R304): after 64 windows, each ring's line is judged by its correlation magnitudes. Own-line
rings are confirmed once more, wrong ones moved, inconclusive ones checked again, and after four checks swept in full
once more; a further failure gives cause ACQ. -/
def Dev.identityEnd (d : Dev) (p : Nat) : Dev :=
  let x := d.pt p
  if !x.checking || x.acq.wins < 64 then d
  else
    let line (r : Nat) : Option Int := foundLine (tget x.acq.corr r (0, 0, 0))
    let wrong := x.acq.todo.filterMap (fun t => match line t.1 with
      | some m => if m = 0 then none else some (t.1, m)
      | none => none)
    let todo := x.acq.todo.filterMap (fun t =>
      let (need, made) := t.2
      if line t.1 = some 0 then (if need ≤ 1 then none else some (t.1, (need - 1, made + 1)))
      else some (t.1, (need, made + 1)))
    let stuck := (todo.filter (fun t => (line t.1).isNone && (4 ≤ t.2.2 || x.acq.swept.contains t.1))).map (·.1)
    let d := (d.setPt p { x with
      mlev := x.idleLev, acq := { x.acq with todo, checks := x.acq.checks + 1 } }).driveIdle p
    if !wrong.isEmpty then d.rescue p wrong
    else match stuck with
    | _ :: _ =>
      match stuck.find? x.acq.swept.contains with
      | some r => d.acqFail p r
      | none =>
        -- Swept once more in full (R303).
        (d.modPt p (fun y => { y with
          lock := if y.lock = .identity then .sweep else y.lock
          since := if y.lock = .identity then d.time else y.since
          acq := Acq.toCheck { y.acq with swept := y.acq.swept ++ stuck, phase := if y.lock = .identity then 0 else 5 } 1 stuck
        })).startSweep p true stuck
    | [] => if todo.isEmpty then d.identityOk p else d.startCheck p

/-- WRONG_LINE_MOVE_DONE (R304): the moved rings have arrived, and a local sweep of them follows. -/
def Dev.moveDone (d : Dev) (p : Nat) : Dev :=
  let x := d.pt p
  if x.acq.moving.isEmpty || !x.arrived then d
  else
    (d.setPt p { x with
      acq := { x.acq with phase := 1, moving := [] }, lock := if x.lock = .identity then .sweep else x.lock }).startSweep
      p false (x.acq.moving.map (·.1))

/-! ### Temperature and legacy table mode (R286, R292, R307, R308) -/

/-- TEMP_REFRESH: the tile temperature is the reading of its region's sensor (R363), or of the next one while that is
faulted. -/
def Dev.tempRefresh (d : Dev) (p : Nat) : Dev :=
  let rg := regionOfP p
  let s0 := 8 * (rg / 2) + 4 + 2 * (rg % 2)
  let s := if (tget d.th.sensors s0 {}).fault then s0 + 1 else s0
  let t := (tget d.th.sensors s {}).temp
  let x := d.pt p
  let jump := match x.temp with | some o => decide (x.cf 2 16 16 < (t - o).natAbs) | none => false
  let d := if jump && x.loop && x.closed then d.softStart p else d
  d.modPt p (fun x => { x with temp := some t })

/-- One set-point of a legacy tile that is ramping in, 20 samples on (R292, R308), with an injected offset (R305). -/
def Dev.legacyRamp (d : Dev) (p r code : Nat) : Dev :=
  let x := d.pt p
  if x.out r then d
  else match tfind x.h0 r with
  | none => d.setPt p (x.drive r code)
  | some h =>
    let h' := towards h (16 * (code : Int)) (20 * x.rate)
    d.setPt p (PTile.drive { x with
      h0 := if h' = 16 * (code : Int) then tdrop x.h0 r else tset x.h0 r h' } r (clampInt 0 4095 (roundAway h' 16)))

/-- LEGACY_TABLE_UPDATE (R307): every ring's code is the table's, with an injected offset (R305), reached by soft-start after a
change of mode; rings that are moved or swept keep their way. -/
def Dev.legacyUpdate (d : Dev) (p : Nat) : Dev :=
  let x := d.pt p
  match x.temp with
  | some t =>
    if x.legacy && x.lock = .legacy then
      if x.h0.isEmpty then
        let y : PTile := { x with
          htr := allRings.map (fun r => (r, if x.out r then tget x.htr r 0 else d.ltCode p r t)) }
        d.setPt p (match x.inj with
          | some i => if x.out i.ring then y else y.drive i.ring (d.ltCode p i.ring t : Nat)
          | none => y)
      else allRings.foldl (fun d r => d.legacyRamp p r (d.ltCode p r t)) d
    else d
  | none => d

/-- LEGACY_RECAL_BURST (R308): every RECAL seconds a burst of 8 windows with dither begins; its estimates are supervised
window by window, and at its end the table moves (`Dev.burstWindow`). -/
def Dev.legacyBurst (d : Dev) (p : Nat) : Dev :=
  let x := d.pt p
  let every := max 1 (x.cf 0 2 6) * tcPerSec
  if x.legacy && x.lock = .legacy && x.burst.isNone && x.burstAt + every ≤ d.time then
    d.setPt p { x with burst := some (8, []), burstAt := d.time }
  else d

end Sys2Proof.Machine
end

