-- ==== Sys2Proof/Machine/Mac.lean ====
section
/-!
DEFINITION. The digital MAC array (R87–R89, R108–R111): its jobs by priority, exact conversions for splits,
fallbacks, redirections and range checks, SENS products and DMM.
-/
namespace Sys2Proof.Machine

/-! ### Exact conversions -/

/-- Rows of component `c`, digit `p` that slot `t` multiplies by in digital work: the shadow where it holds them,
else the planes (R87, R100). -/
def Dev.digitRows (d : Dev) (e : Nat) (o : TileOp) (c p : Nat) : Levels :=
  let s := d.slot e o.slot
  match o.wset with
  | some w => if w.planes.isNone || w.spread || s.held = (c, p) then s.shadow else d.setRows e o.slot w c p
  | none => s.shadow

/-- Column values of vector `v` from one component into the area of operation `o` (R70, R104). -/
def Dev.addCols (d : Dev) (e : Nat) (o : TileOp) (c v : Nat) (s : Int) (words : List Int) (f : ColFlag)
    (ts : Nat) : Dev :=
  let cols := words.mapIdx (fun i x => (i, shiftRound x s, f))
  d.modArea e o.aid (fun a =>
    if o.op = 3 then a.addComplex (mvArow o.word) c v cols (·.seen ts)
    else a.addReal (o.wset.bind (·.sparse)) (mvArow o.word) (mvNvec o.word) v cols (·.seen ts))

/-- Number of times a segment is sent: K with ARR = 1. -/
def sendCount (w : Tw) : Nat := if mvArr w then 2 ^ mvKlog w else 1

/-- The exact words of one conversion of digit segments. -/
def exactWords (w : Tw) (rows : Levels) (segs : List (List Int)) : List Int :=
  (upTo 64).map (fun i =>
    (sendCount w : Int) * sumI (segs.map (dotI (Levels.row rows i))))

/-- The remaining conversions of operation `o` up to stage `last`, one after another; returns how many there were. Their
segments pass the input buffer as a tile's do, fed from engine SRAM (R102, R103). -/
def Dev.macRest (d : Dev) (e : Nat) (bad : List Nat) (f : ColFlag) (ts last : Nat) : Nat → TileOp → Nat → Dev × Nat
  | 0, _, k => (d, k)
  | fuel + 1, o, k =>
    match d.seek e bad none (seekFuel o.word) o 0 with
    | (none, _, sk) => (d.bump .ENG_CNT_SKIP e 0 sk, k)
    | (some n, o, sk) =>
      if last < o.stage then (d, k) else
      let d := d.bump .ENG_CNT_SKIP e 0 sk
      let s := passShift o.word (d.ashiftOf e o.aid) n.p n.q
      let d := d.addCols e o n.comp n.v s (exactWords o.word (d.digitRows e o n.comp n.p) n.segs) f ts
      d.macRest e bad f ts last fuel { o with grp := o.grp + 1 } (k + 1)

/-- Conversions an operation can have at most. -/
def macFuel (w : Tw) : Nat := 2 * mvDw w * mvDx w * (mvNvec w + 1) * mvNseg w + 1

/-- The whole product of vector `v` without slicing it (R72): per component and weight digit, conversion by
conversion as the segments stand. -/
def Dev.macWhole (d : Dev) (e : Nat) (o : TileOp) (v : Nat) (f : ColFlag) (ts : Nat) : Dev × Nat :=
  let w := o.word
  let segs := segsOf (o.wset.bind (·.sparse)) (d.fedVec e o.slot o.num w v)
  let groups := if mvArr w then segs.map (fun s => [s]) else chunk (2 ^ mvKlog w) 256 segs
  (stagesOf w o.slot).foldl (fun dk st =>
    let (c, p, q) := st
    if !(stageVecs w o.slot c o.mask []).contains v then dk
    else if q != 0 then (dk.1, dk.2 + groups.length)
    else
      let rows := dk.1.digitRows e o c p
      let s := passShift w (dk.1.ashiftOf e o.aid) p 0
      (groups.foldl (fun d g =>
        d.addCols e o c v s (exactWords w rows (g.map (·.map (inputComp w c)))) f ts) dk.1,
       dk.2 + groups.length)) (d, 0)

/-- Vectors out of range, each whole. -/
def Dev.macRange (d : Dev) (e : Nat) (o : TileOp) (vs : List Nat) (f : ColFlag) (ts : Nat) : Dev × Nat :=
  vs.foldl (fun dk v => let (d, k) := dk.1.macWhole e o v f ts; (d, dk.2 + k)) (d, 0)

/-- Active vectors of an operation that are out of range for DX. -/
def Dev.badVecs (d : Dev) (e : Nat) (o : TileOp) : List Nat :=
  (upTo (mvNvec o.word)).filter (fun v =>
    activeVec o.mask (mvIgrp o.word) v && !inputOk o.word (d.inputVec e o.word v))

/-- Rows of component `c`, digit `p` in a SENS product: from the set's planes, or from the shadow of a set without planes
(R87). -/
def Dev.sensRows (d : Dev) (e : Nat) (o : TileOp) (c p : Nat) : Levels :=
  match o.wset with
  | some w => if w.planes.isNone then (d.slot e o.slot).shadow else d.setRows e o.slot w c p
  | none => (d.slot e o.slot).shadow

/-- A SENS product on one tile of its set: exact, without skips or flags (R87). -/
def Dev.macSens (d : Dev) (e : Nat) (o : TileOp) (ts : Nat) : Dev :=
  let bad := d.badVecs e o
  let w := o.word
  let d := (stagesOf w o.slot).foldl (fun d st =>
    let (c, p, q) := st
    let rows := d.sensRows e o c p
    let s := passShift w (d.ashiftOf e o.aid) p q
    (stageVecs w o.slot c o.mask bad).foldl (fun d v =>
      let segs := (segsOf (o.wset.bind (·.sparse)) (d.inputVec e w v)).map (segDigits w c q)
      let groups := if mvArr w then segs.map (fun s => [s]) else chunk (2 ^ mvKlog w) 256 segs
      groups.foldl (fun d g => d.addCols e o c v s (exactWords w rows g) .clean ts) d) d) d
  (d.macRange e o bad .clean ts).1

/-! ### DMM (R147, R148) -/

/-- Real parts of the elements of a byte list in a DMM format, or both parts one after the other. -/
def dmInts (bs : List Byte) : List Int := sInts 1 bs

/-- The binary format of a float element part. -/
def dmFmt (f : Nat) : FFmt :=
  if f = 1 then fE4M3 else if f = 2 then fE5M2 else if f = 3 || f = 7 then fBF16
  else if f = 4 || f = 8 then fFP16 else fFP32

/-- Exact values of the parts of a byte list. -/
def dmVals (f : Nat) (bs : List Byte) : List FV :=
  let n := if dmCplx f then dmSize f / 2 else dmSize f
  (upTo (bs.length / n)).map (fun i => (dmFmt f).decode (getLe bs (n * i) n))

/-- Insertion of a summand by its place. -/
def putPlace (x : Nat × FV) : List (Nat × FV) → List (Nat × FV)
  | [] => [x]
  | y :: l => if x.1 ≤ y.1 then x :: y :: l else y :: putPlace x l

/-- Sum in FP32, each addition rounded, in the order the configuration fixes (R89). -/
def sumFp32 (op : Nat) (l : List FV) : FV :=
  let placed := (l.mapIdx (fun i v => (Config.sumPlace op l.length i, v))).foldr putPlace []
  placed.foldl (fun acc v => fFP32.round (acc.add v.2)) (.fin false 0 0)

/-- Products of two rows: exact, or rounded once for FP32 operands (R89). -/
def mulFp (f : Nat) : List FV → List FV → List FV
  | a :: as, b :: bs => (if f = 5 then fFP32.round (a.mul b) else a.mul b) :: mulFp f as bs
  | _, _ => []

def evens {α : Type} : List α → List α
  | a :: _ :: l => a :: evens l
  | l => l
def odds {α : Type} : List α → List α
  | _ :: b :: l => b :: odds l
  | _ => []

/-- Bytes of a row of A, padded to 64. -/
def dmRowBytes (w : Tw) : Nat := alignUp (dmKd w * dmSize (dmA w)) 64

/-- Bytes of one part of a result element with DEST = 1. -/
def dmOutPart (w : Tw) : Nat := if dmOsel w = 0 then 4 else 2

/-- Bytes of one result vector. -/
def dmVecBytes (w : Tw) : Nat := dmM w * dmOutPart w * (if dmCplx (dmA w) then 2 else 1)

def dmPitch (w : Tw) : Nat := if dmDstride w = 0 then alignUp (dmVecBytes w) 64 else dmDstride w

/-- Integer result of row `a` by vector `b`: real and imaginary part. -/
def dmIntDot (w : Tw) (a b : List Int) : Int × Int :=
  if dmA w = 6 then
    (dotI (evens a) (evens b) - dotI (odds a) (odds b), dotI (evens a) (odds b) + dotI (odds a) (evens b))
  else (dotI a b, 0)

/-- Float result of row `a` by vector `b`. -/
def dmFpDot (w : Tw) (a b : List FV) : FV × FV :=
  let f := dmA w
  let dotf (x y : List FV) : FV := sumFp32 4 (mulFp f x y)
  if dmCplx f then
    (fFP32.round ((dotf (evens a) (evens b)).add (dotf (odds a) (odds b)).neg),
     fFP32.round ((dotf (evens a) (odds b)).add (dotf (odds a) (evens b))))
  else (dotf a b, .fin false 0 0)

/-- The pattern of an output part; a NaN's payload is a free value of the operation and its place. -/
def dmOut (w : Tw) (v : FV) (i : Nat) : List Byte :=
  let free := Config.openResult 4 [i]
  if dmOsel w = 0 then leBytes 4 (fFP32.encode v free)
  else if dmOsel w = 1 then leBytes 2 (fBF16.encode v free)
  else leBytes 2 (fFP16.encode v free)

/-- One B vector of a DMM. -/
def Dev.dmVec (d : Dev) (e : Nat) (w : Tw) (aid n ts : Nat) : Dev :=
  let bbytes := d.sram e (dmBaddr w + n * dmBstride w) (dmKd w * dmSize (dmB w))
  let row (m : Nat) : List Byte := d.sram e (dmAaddr w + m * dmRowBytes w) (dmKd w * dmSize (dmA w))
  let isInt := dmA w = 0 || dmA w = 6
  if dmDest w then
    let bytes := (upTo (dmM w)).flatMap (fun m =>
      if isInt then
        let r := dmIntDot w (dmInts (row m)) (dmInts bbytes)
        if dmA w = 6 then leBytes 4 (unsx 32 r.1) ++ leBytes 4 (unsx 32 r.2) else leBytes 4 (unsx 32 r.1)
      else
        let r := dmFpDot w (dmVals (dmA w) (row m)) (dmVals (dmB w) bbytes)
        if dmCplx (dmA w) then dmOut w r.1 (2 * m) ++ dmOut w r.2 (2 * m + 1) else dmOut w r.1 m)
    d.wrBytes (sramBase e + dmDaddr w + n * dmPitch w) bytes
  else
    let s : Int := -(d.ashiftOf e aid : Int)
    let rs := (upTo (dmM w)).map (fun m => (m, dmIntDot w (dmInts (row m)) (dmInts bbytes)))
    d.modArea e aid (fun a =>
      let re := if dmA w = 6 then dmArow w + 2 * n else dmArow w + n
      let a := a.addRow re (rs.map (fun r => (r.1, shiftRound r.2.1 s)))
      let a := if dmA w = 6 then a.addRow (re + 1) (rs.map (fun r => (r.1, shiftRound r.2.2 s))) else a
      a.status (a.vecOf re) (·.seen ts))

/-- A whole DMM over its active vectors, each B vector read before its C vector is written. -/
def Dev.dmm (d : Dev) (e : Nat) (w : Tw) (aid : Nat) (mask : BitVec 256) (ts : Nat) : Dev :=
  ((upTo (dmN w)).filter (fun n => activeVec mask (dmIgrp w) n)).foldl (fun d n => d.dmVec e w aid n ts) d

/-! ### Jobs (R109) -/

/-- Job `a` goes before job `b`: kind first, then list order. -/
def MacJob.before (a b : MacJob) : Bool := a.kind < b.kind || (a.kind = b.kind && a.num < b.num)

/-- The first job by priority among those that `ok` admits, with its place in the queue. -/
def pickJob (ok : MacJob → Bool) : List MacJob → Nat → Option (Nat × MacJob) → Option (Nat × MacJob)
  | [], _, best => best
  | j :: js, i, best =>
    pickJob ok js (i + 1)
      (if !ok j then best else match best with
        | none => some (i, j)
        | some b => if j.before b.2 then some (i, j) else some b)

/-- The stage that the rest of an operation is at. -/
def TileOp.stageNow (o : TileOp) : Option (Nat × Nat × Nat) := (stagesOf o.word o.slot)[o.stage]?

/-- A task word whose products job `j` computes must wait for the range check of an earlier LOADW on one of its tiles: it is
discarded if that fails (R145). -/
def Engine.uncheckedJob (x : Engine) (j : MacJob) : Bool :=
  let tiles (o : TileOp) : Bool := x.uncheckedLoad (mvTmask o.word) j.num
  match j.piece with
  | .rest o => tiles o
  | .range o _ => tiles o
  | .sens os => os.any tiles
  | _ => false

/-- Job `j` can start: it stands in its queue (R109), every LOADW before it on its tiles has run (R115) and passed its range
check on all the tiles of its task word (R145), and k1 and k2 are in the accumulator before the k3 that it computes (R118).
A job that cannot start is passed over, and a later one or one of a lower kind starts first (DESIGN CHOICE, log entry
220). -/
def Engine.macReady (x : Engine) (j : MacJob) : Bool :=
  j.started.isNone && (if j.kind = 1 then (x.splits.take 64).contains j else (x.macWords.take 8).contains j.num)
    && (match j.piece with
      | .split .. | .conv .. => true
      | _ => j.piece.slots.all (fun t => !x.loadBefore t j.num))
    && !x.uncheckedJob j
    && (match j.piece with
      | .rest o => match o.stageNow with
        | some (2, p, _) => !x.pairBehind o p
        | _ => true
      | _ => true)

/-- MAC_ARRAY_JOB_START: the array takes its next job, unless inside a throttle pause (R109, R369). -/
def Dev.macStart (d : Dev) (e : Nat) : Dev :=
  if inPause (d.throttle (e / 8)) (chipPos d.time 0) then d
  else
    let x := d.eng e
    match pickJob x.macReady x.macq 0 none with
    | some (i, j) => d.setEng e { x with macq := x.macq.set i { j with started := some d.time } }
    | none => d

/-- A reading's exact columns arrive from the array; the conversion resolves once nothing is outstanding. -/
def Dev.exactCols (d : Dev) (e t cid r : Nat) (cols : List Nat) (lo n : Nat) (whole : Bool) : Dev :=
  match tfind (d.slot e t).convs cid with
  | none => d
  | some c =>
    let c := c.modReading r (fun rd =>
      let rd := cols.foldl (fun rd i => rd.exact i (c.exact i lo n) whole) rd
      { rd with openWins := rd.openWins - 1 })
    ((d.modSlot e t (fun s => { s with convs := tset s.convs cid c })).resolve e t cid).kick e t

/-- The results of a finished job. -/
def Dev.macResult (d : Dev) (e : Nat) (j : MacJob) : Dev :=
  let ts := j.started.getD d.time
  match j.piece with
  | .split t cid r lo n col => d.exactCols e t cid r [col] lo n false
  | .conv t cid r cols =>
    match tfind (d.slot e t).convs cid with
    | none => d
    | some c =>
      let d := if c.mac.isSome then
        (d.modSlot e t (fun s => { s with convs := tset s.convs cid { c with mac := some ts } })).bump
          .ENG_CNT_FALLBACK e
        else d
      d.exactCols e t cid r cols 0 c.len true
  | .rest o =>
    let bad := (((d.eng e).workOf o.num).bad).getD (d.badVecs e o)
    -- Its share of the vectors out of range, unless its first window has handed them over already (R72).
    let mine := if o.begun then [] else bad
    let n := (stagesOf o.word o.slot).length
    -- An MVMC runs one stage at a time, so that k3 keeps its place (R118).
    let last := if o.op = 3 then o.stage else n
    let (d, k) := d.macRest e bad .fallback ts last (macFuel o.word) o 0
    let (d, k') := d.macRange e o mine .fallback ts
    let d := d.bump .ENG_CNT_FALLBACK e 0 (k + k')
    if o.op = 3 && o.stage + 1 < n then
      d.modEng e (fun x => x.addMac o.num 2 (.rest { o with stage := o.stage + 1, vec := 0, grp := 0, begun := true }))
    else d
  | .range o vs =>
    let (d, k) := d.macRange e o vs .fallback ts
    d.bump .ENG_CNT_FALLBACK e 0 k
  | .sens os => os.foldl (fun d o => d.macSens e o ts) d
  | .dmm w aid mask => d.dmm e w aid mask ts

/-- A started job of the wanted kinds ends: the highest by priority (R109). -/
def Dev.macDone (d : Dev) (e : Nat) (split : Bool) : Dev :=
  let x := d.eng e
  match pickJob (fun j => j.started.isSome && (j.kind = 1) = split) x.macq 0 none with
  | none => d
  | some (i, j) =>
    let d := d.setEng e { x with macq := x.macq.eraseIdx i }
    ((d.macResult e j).endLive e j.num .mac).kickAll e

end Sys2Proof.Machine
end

