-- ==== Sys2Proof/Machine/Functions.lean ====
section
/-!
DEFINITION. The vector unit's functions (R113, R150): the transcendental functions within their stated error, the gating
functions, SOFTMAX, the normalisations, the confidence measures and the FFT butterflies. What the manual leaves open of
them (last bits, orders of steps, the layout of an FFT) is free (log entries 18, 31, 173).
-/
namespace Sys2Proof.Machine

/-! ### Ideal values, as ratios of natural numbers to about 2^−80 -/

/-- The largest number whose square is at most `n`, below 2^bits beyond `acc`. -/
def isqrtFrom (n : Nat) : Nat → Nat → Nat
  | 0, acc => acc
  | b + 1, acc => isqrtFrom n b (if (acc + 2 ^ b) * (acc + 2 ^ b) ≤ n then acc + 2 ^ b else acc)
def isqrt (n : Nat) : Nat := isqrtFrom n 170 0

/-- Fixed-point numbers of this file count 2^−160. -/
def fixOne : Nat := 2 ^ 160
/-- log2 e, and 2·√(2/π)·log2 e. -/
def fixLog2e : Nat := 2108501164428393954197770173035669514763056903505
def fixGelu : Nat := 3364681051064558598807434901850383712753106257853

/-- x·2^e, cut to an integer. -/
def shiftBy (x : Int) (e : Int) : Int := if 0 ≤ e then x * ((2 ^ e.toNat : Nat) : Int) else x / ((2 ^ (-e).toNat : Nat) : Int)

/-- Product of the roots 2^(1/2), 2^(1/4), … that a fixed-point fraction calls for. -/
def pow2Frac : Nat → (root frac acc : Nat) → Nat
  | 0, _, _, acc => acc
  | n + 1, root, frac, acc =>
    let r := isqrt (root * fixOne)
    pow2Frac n r (2 * frac % fixOne) (if fixOne ≤ 2 * frac then acc * r / fixOne else acc)

/-- 2^t for a fixed-point t, held within ±512. -/
def pow2 (t : Int) : Nat × Nat :=
  let t := clampInt (-(512 * fixOne : Nat)) (512 * fixOne : Nat) t
  let i := t / (fixOne : Int)
  let p := pow2Frac 80 (2 * fixOne) (t % (fixOne : Int)).toNat fixOne
  if 0 ≤ i then (p * 2 ^ i.toNat, fixOne) else (p, fixOne * 2 ^ (-i).toNat)

/-- 1 ÷ (1 + 2^−t). -/
def sigOfFix (t : Int) : Nat × Nat :=
  let (p, q) := pow2 (-t)
  (q, q + p)

/-- 80 bits of the logarithm to base 2 of a fixed-point number in 1…2, by squaring. -/
def log2Frac : Nat → Nat → Nat → Nat
  | 0, _, acc => acc
  | n + 1, y, acc =>
    let y := y * y / fixOne
    if 2 * fixOne ≤ y then log2Frac n (y / 2) (2 * acc + 1) else log2Frac n y (2 * acc)

/-! ### Floats from ratios -/

/-- n ÷ d to 64 bits, its last bit set where that is not exact, so that a rounding of it is that of the quotient. -/
def FV.ratio (neg : Bool) (n d : Nat) : FV :=
  let k := 64 + Nat.log2 d
  let q := n * 2 ^ k / d
  .fin neg (2 * q + b2n (q * d != n * 2 ^ k)) (-(k + 1 : Nat))

/-- A value divided by a count. -/
def FV.over (v : FV) (n : Nat) : FV :=
  match v with
  | .fin s m e => match FV.ratio s m n with
    | .fin s m f => .fin s m (e + f)
    | x => x
  | x => x

/-- An FP32 number within a relative error of 2^−21 of n ÷ d; `free` selects which. Where no FP32 number lies that near
(in the denormals, beyond the largest), the nearest. -/
def near (neg : Bool) (n d free : Nat) : FV :=
  let p := match FV.ratio false n d with
    | .fin _ m e => fFP32.roundMag m e
    | _ => 0
  let ok (c : Nat) : Bool :=
    match fFP32.decode c with
    | .fin _ m e =>
      let x : Nat := m * 2 ^ (e + 149).toNat * d
      let y : Nat := n * 2 ^ 149
      decide (((x : Int) - (y : Int)).natAbs * 2 ^ 42 ≤ y * (2 ^ 21 + 1)) && c ≤ fFP32.maxPat
    | _ => false
  let cs := ((upTo 17).map (p + · - 8)).filter ok
  if fFP32.maxPat < p then .inf neg
  else match fFP32.decode (cs.getD (free % max 1 cs.length) p) with
    | .fin _ m e => .fin neg m e
    | v => v

/-! ### Transcendental and gating functions -/

/-- VOP 0x10–0x13 and 0x18–0x1B where the operand is finite and the function has a value there (R113, R150). -/
def vFn (op free : Nat) (v : FV) : Option FV :=
  match v with
  | .fin s m e =>
    let x := signed s m
    if op = 0x10 then
      let r := pow2 (shiftBy (x * fixOne) (min e 200))
      some (near false r.1 r.2 free)
    else if op = 0x11 then
      if s || m = 0 then none
      else
        let l := Nat.log2 m
        let f := log2Frac 80 (m * fixOne / 2 ^ l) 0
        let t := ((l : Int) + e) * ((2 ^ 80 : Nat) : Int) + f
        some (near (decide (t < 0)) t.natAbs (2 ^ 80) free)
    else if op = 0x12 then
      if m = 0 then none else some (near s (2 ^ (200 - e).toNat) (m * 2 ^ 200) free)
    else if op = 0x13 then
      if s || m = 0 then none
      else
        let m2 := if e % 2 = 0 then m else 2 * m
        let h := e / 2
        some (near false (isqrt (2 ^ 320 / m2) * 2 ^ (200 - h).toNat) (2 ^ 360) free)
    else
      let t := shiftBy (x * fixLog2e) (min e 200)
      if op = 0x18 then
        let r := sigOfFix t
        some (near false r.1 r.2 free)
      else if op = 0x19 then
        -- Below 2^−30 the function differs from its operand by less than 2^−60 of it.
        if m * 2 ^ 30 < 2 ^ (-e).toNat then some (near s m (2 ^ (-e).toNat) free)
        else
          let r := pow2 (2 * (t.natAbs : Int))
          some (near s (r.1 - r.2) (r.1 + r.2) free)
      else
        let r := if op = 0x1A then sigOfFix t
          else sigOfFix (shiftBy (x * fixGelu) (min e 200)
            + shiftBy (x * ((m * m * 44715 * fixGelu : Nat) : Int)) (min (3 * e) 600) / 1000000)
        some (near s (m * r.1 * 2 ^ e.toNat) (r.2 * 2 ^ (-e).toNat) free)
  | _ => none

/-- The unit's function on an FP32 value: one of the patterns that its error admits; any pattern where the manual gives no
value (an infinity, a NaN, the logarithm or a root of 0 or of a negative number, the reciprocal of 0). -/
def unitFn (op : Nat) (v : FV) : FV :=
  let free := Config.vecFn op (fFP32.encode v)
  (vFn op free v).getD (fFP32.decode free)

/-! ### Row functions, in FP32 steps (log entry 173) -/

def rAdd (a b : FV) : FV := fFP32.round (a.add b)
def rMul (a b : FV) : FV := fFP32.round (a.mul b)
/-- e^x as 2^(x · log2 e). -/
def rExp (x : FV) : FV := unitFn 0x10 (rMul x (fFP32.decode 0x3FB8AA3B))

/-- The largest of a row; NaNs are passed over. -/
def rMax (l : List FV) : FV :=
  l.foldl (fun m v => if m.cmp v = some (-1) || m.cmp m = none then v else m) (l.headD .nan)

/-- Softmax with the row's maximum subtracted. -/
def softmaxRow (l : List FV) : List FV :=
  let m := rMax l
  let es := l.map (fun x => rExp (rAdd x m.neg))
  let r := unitFn 0x12 (sumFp32 5 es)
  es.map (rMul · r)

/-- The mean of a row. -/
def rMean (l : List FV) : FV := fFP32.round ((sumFp32 5 l).over l.length)

/-- LNORM (0x29) and RMSNORM (0x2A) of a row: ε = `eps`, gains, or gain and bias pairs, where there are any. -/
def normRow (op eps : Nat) (gains : List Nat) (l : List FV) : List FV :=
  let g (i : Nat) : FV := match gains[i]? with | some p => fFP32.decode p | none => .fin false 1 0
  let c := if op = 0x29 then (rMean l).neg else .fin false 0 0
  let dev := l.map (fun x => if op = 0x29 then rAdd x c else x)
  let r := unitFn 0x13 (rAdd (rMean (dev.map (fun x => rMul x x))) (fFP32.decode eps))
  dev.mapIdx (fun i x =>
    let y := rMul x r
    if gains.isEmpty then y
    else if op = 0x29 then fFP32.round ((y.mul (g (2 * i))).add (fFP32.decode (gains.getD (2 * i + 1) 0)))
    else rMul y (g i))

/-- CONF (0x60) of a row of logits: maximum probability, top-2 margin, or 1 − H/ln ROWLEN; none for the margin or the
entropy of a single logit. -/
def confRow (param : Nat) (l : List FV) : Option FV :=
  let ps := softmaxRow l
  let top := rMax ps
  if param = 0 then some top
  else if l.length < 2 then none
  else if param = 1 then some (rAdd top (rMax (ps.erase top)).neg)
  else
    let h := sumFp32 5 (ps.map (fun p => match p with
      | .fin _ 0 _ => .fin false 0 0
      | p => rMul p (unitFn 0x11 p)))
    some (rAdd (.fin false 1 0) (rMul h (unitFn 0x12 (unitFn 0x11 (FV.ofInt l.length)))))

/-! ### FFT stages (log entry 18) -/

/-- A value in the unit: an exact integer or a float. -/
inductive VVal where
  | i (x : Int)
  | f (x : FV)

def VVal.fv : VVal → FV
  | .i x => FV.ofInt x
  | .f x => x

/-- Sum of two values; floats in FP32 (R112). -/
def vAdd (a b : VVal) : VVal :=
  match a, b with
  | .i x, .i y => .i (x + y)
  | a, b => .f (fFP32.round (a.fv.add b.fv))

def vNeg : VVal → VVal
  | .i x => .i (-x)
  | .f x => .f x.neg

def vMul (a b : VVal) : VVal :=
  match a, b with
  | .i x, .i y => .i (x * y)
  | a, b => .f (fFP32.round (a.fv.mul b.fv))

/-- Partwise sum, product of reals or complex numbers. -/
def vAddL : List VVal → List VVal → List VVal
  | a :: as, b :: bs => vAdd a b :: vAddL as bs
  | _, _ => []

def vMulL (a b : List VVal) : List VVal :=
  match a, b with
  | [x, y], [u, v] => [vAdd (vMul x u) (vNeg (vMul y v)), vAdd (vMul x v) (vMul y u)]
  | [x], [u] => [vMul x u]
  | _, _ => []

/-- `k` quarter turns of a complex value, clockwise. -/
def quarterTurns (k : Nat) (z : List VVal) : List VVal :=
  match z, k % 4 with
  | [x, y], 1 => [y, vNeg x]
  | [x, y], 2 => [vNeg x, vNeg y]
  | [x, y], 3 => [vNeg y, x]
  | z, _ => z

/-- A product with a twiddle: exact integers are brought back to the data's scale. -/
def byTwiddle (z t : List VVal) : List VVal :=
  (vMulL z t).map (fun v => match v with
    | .i x => .i (Config.fftCut x)
    | v => v)

/-- Half of a part. -/
def halved : VVal → VVal
  | .i x => .i ((x + (b2n (Config.fftHalfUp x) : Nat)) / 2)
  | .f x => .f (fFP32.round (x.mul (.fin false 1 (-1))))

/-- Element `k` of one stage of a transform of length `n`: leg `leg` of a butterfly of radix 2 (0x30) or 4 (0x31).
Every leg of a butterfly, leg 0 included, is multiplied by a twiddle of the table (DESIGN CHOICE, log entry 221). -/
def fftElem (op n stage : Nat) (half : Bool) (row tw : Nat → List VVal) (k : Nat) : List VVal :=
  let r := if op = 0x30 then 2 else 4
  let leg := Config.fftLeg op n stage k % r
  let turn := if op = 0x30 then 2 else if Config.fftInv then 3 else 1
  let t (j : Nat) : List VVal := tw (Config.fftTw op n stage k j % n)
  let term (j : Nat) : List VVal :=
    let x := row (Config.fftIn op n stage k j % n)
    quarterTurns (turn * j * leg) (if Config.fftDit then byTwiddle x (t j) else x)
  let sum := (upTo (r - 1)).foldl (fun a j => vAddL a (term (j + 1))) (term 0)
  let y := if Config.fftDit then sum else byTwiddle sum (t 0)
  if half then y.map halved else y

end Sys2Proof.Machine
end

