-- ==== Sys2Proof/Machine/VecUnit.lean ====
section
/-!
DEFINITION. The vector unit (R112, R113, R149–R151): element formats, operations, and what a VEC task word stores.
Where the manual states no result for the operands at hand, the stored pattern is `Config.openResult` of the
operation, the element's index and the operand patterns.
-/
namespace Sys2Proof.Machine

/-- An element format: bits of one part, complex or not, and the float format of a part. -/
structure VFmt where
  bits : Nat
  cplx : Bool
  flt : Option FFmt

/-- The formats of R149. -/
def vFmt (f : Nat) : VFmt :=
  if f = 0 then ⟨8, false, none⟩ else if f = 1 then ⟨16, false, none⟩ else if f = 2 then ⟨32, false, none⟩
  else if f = 3 then ⟨16, false, some fBF16⟩ else if f = 4 then ⟨16, false, some fFP16⟩
  else if f = 5 then ⟨32, false, some fFP32⟩ else if f = 6 then ⟨16, true, none⟩
  else if f = 7 then ⟨16, true, some fBF16⟩ else if f = 8 then ⟨32, true, some fFP32⟩
  else if f = 9 then ⟨4, false, none⟩ else if f = 0xA then ⟨8, false, some fE4M3⟩
  else if f = 0xB then ⟨8, false, some fE5M2⟩ else ⟨8, true, none⟩

/-- Bits of a whole element. -/
def VFmt.size (f : VFmt) : Nat := if f.cplx then 2 * f.bits else f.bits
def vIsFloat (f : Nat) : Bool := f = 3 || f = 4 || f = 5 || f = 0xA || f = 0xB
def vIsInt (f : Nat) : Bool := f = 0 || f = 1 || f = 2 || f = 9

/-- The value of a part's pattern. -/
def VFmt.val (f : VFmt) (p : Nat) : VVal :=
  match f.flt with
  | some g => .f (g.decode p)
  | none => .i (sx f.bits p)

/-- The exact integer of a value, a fraction rounded to nearest even (R112); none for an infinity or a NaN. -/
def VVal.int? : VVal → Option Int
  | .i x => some x
  | .f (.fin s m e) =>
    if 0 ≤ e then some (signed s (m * 2 ^ e.toNat))
    else
      let k := (-e).toNat
      let q := m / 2 ^ k
      let r := m % 2 ^ k
      some (signed s (if 2 * r < 2 ^ k then q else if 2 ^ k < 2 * r then q + 1 else q + q % 2))
  | .f _ => none

/-- An exact integer brought into `bits` bits: wrapped or saturated (R112). -/
def vInt (bits : Nat) (sat : Bool) (x : Int) : Nat :=
  if sat then
    let hi : Int := ((2 ^ (bits - 1) : Nat) : Int) - 1
    unsx bits (clampInt (-hi - 1) hi x)
  else unsx bits x

/-- The pattern stored for a value; `free` is stored where the manual states none: an infinity or a NaN to an
integer format, an overflow of an 8-bit float format, the payload of a NaN. -/
def VFmt.store (f : VFmt) (sat : Bool) (free : Nat) (v : VVal) : Nat :=
  match f.flt with
  | none =>
    match v.int? with
    | some x => vInt f.bits sat x
    | none => free % 2 ^ f.bits
  | some g =>
    match v.fv with
    | .fin s m e =>
      if f.bits = 8 && g.maxPat < g.roundMag m e then free % 256 else g.encode (.fin s m e) free
    | v => g.encode v free

/-! ### Addressing -/

/-- Bit address of element `k` of an operand at SRAM offset `base` whose elements have `bits` bits. -/
def vAddr (w : Tw) (base bits k : Nat) : Nat :=
  if vcRowlen w = 0 || vcPitch w = 0 then 8 * base + k * bits
  else 8 * (base + k / vcRowlen w * vcPitch w) + k % vcRowlen w * bits

/-- The `bits`-bit pattern at a bit address of engine SRAM. -/
def Dev.getBits (d : Dev) (e a bits : Nat) : Nat :=
  if bits = 4 then (d.rd (sramBase e + a / 8)).toNat / (if a % 8 = 4 then 16 else 1) % 16
  else d.rdLe (sramBase e + a / 8) (bits / 8)

/-- A pattern stored at a bit address. -/
def Dev.putBits (d : Dev) (e a bits v : Nat) : Dev :=
  if bits = 4 then
    let b := (d.rd (sramBase e + a / 8)).toNat
    d.wrLe (sramBase e + a / 8) 1 (setFld b (a % 8) 4 v)
  else d.wrLe (sramBase e + a / 8) (bits / 8) v

/-- The parts of an element at a bit address. -/
def Dev.getElem (d : Dev) (e : Nat) (f : VFmt) (a : Nat) : List Nat :=
  if f.cplx then [d.getBits e a f.bits, d.getBits e (a + f.bits) f.bits] else [d.getBits e a f.bits]

/-- An element stored. -/
def Dev.putElem (d : Dev) (e : Nat) (f : VFmt) (a : Nat) : List Nat → Dev
  | [x] => d.putBits e a f.bits x
  | x :: y :: _ => (d.putBits e a f.bits x).putBits e (a + f.bits) f.bits y
  | [] => d

/-! ### Elementwise operations -/

/-- Fused multiply-add. -/
def vFma (a b c : VVal) : VVal :=
  match a, b, c with
  | .i x, .i y, .i z => .i (x * y + z)
  | a, b, c => .f (fFP32.round ((a.fv.mul b.fv).add c.fv))

/-- Order of two values; none where one is a NaN. -/
def vCmp (a b : VVal) : Option Int :=
  match a, b with
  | .i x, .i y => some (if x < y then -1 else if x = y then 0 else 1)
  | a, b => a.fv.cmp b.fv

def vFmaL (a b c : List VVal) : List VVal :=
  match a, b, c with
  | [x], [u], [z] => [vFma x u z]
  | a, b, c => vAddL (vMulL a b) c

/-- Reversed order of the low `n` bits. -/
def revBits : Nat → Nat → Nat
  | 0, _ => 0
  | n + 1, x => x % 2 * 2 ^ n + revBits n (x / 2)

/-- Number of set bits among the low `n`. -/
def popBits : Nat → Nat → Nat
  | 0, _ => 0
  | n + 1, x => x % 2 + popBits n (x / 2)

/-- Comparison of R150 code 0x07. -/
def cmpHolds (param : Nat) (c : Int) : Bool :=
  if param = 0 then c = 0 else if param = 1 then c ≠ 0 else if param = 2 then c < 0
  else if param = 3 then c ≤ 0 else if param = 4 then 0 < c else 0 ≤ c

/-- IMM as a shift count; none where it is negative as an INT32. -/
def immShift (w : Tw) : Option Nat := if vcImm w < 2 ^ 31 then some (vcImm w) else none

/-- Result parts of one element of an elementwise operation: `a`, `b` and `c` are the patterns at SRCA, SRCB and
DST. The second component is the format stored. -/
def vElem (w : Tw) (k : Nat) (a b c : List Nat) : List Nat × VFmt :=
  let f := vFmt (vcFmt w)
  let g := vFmt (vcDfmt w)
  let op := vcOp w
  let sat := vcSat w
  let free (i : Nat) : Nat := Config.openResult 5 ([op, vcParam w, vcImm w, k, i] ++ a ++ b ++ c)
  let va := a.map f.val
  let vb := b.map f.val
  let vc := c.map f.val
  let out (h : VFmt) (l : List VVal) : List Nat × VFmt := (l.mapIdx (fun i v => h.store sat (free i) v), h)
  let open_ (h : VFmt) : List Nat × VFmt := ((if h.cplx then [0, 1] else [0]).map (fun i => free i % 2 ^ h.bits), h)
  let bits (v : Nat) : List Nat × VFmt := ([v % 2 ^ f.bits], f)
  let x := a.headD 0
  let y := b.headD 0
  if op = 0 then out f (vAddL va vb)
  else if op = 1 then out f (vAddL va (vb.map vNeg))
  else if op = 2 then out f (vMulL va vb)
  else if op = 3 then out f (vFmaL va vb vc)
  else if op = 4 || op = 5 then
    match va, vb with
    | [p], [q] =>
      match vCmp p q with
      | some o =>
        if o = 0 then (if x = y then (a, f) else ([if free 0 % 2 = 0 then x else y], f))
        else if (o < 0) = (op = 4) then (a, f) else (b, f)
      | none => open_ f
    | _, _ => open_ f
  else if op = 6 then
    match va with
    | [.i p] => out f [.i p.natAbs]
    | [.f p] => out f [.f p.abs]
    | _ => open_ f
  else if op = 7 then
    let h : VFmt := ⟨8, false, none⟩
    let r : Option Bool := match va, vb with
      | [p], [q] => (vCmp p q).map (cmpHolds (vcParam w))
      | [p, p'], [q, q'] =>
        match vCmp p q, vCmp p' q' with
        | some m, some n =>
          if vcParam w = 0 then some (m = 0 && n = 0)
          else if vcParam w = 1 then some (m ≠ 0 || n ≠ 0) else none
        | _, _ => none
      | _, _ => none
    ([match r with | some t => b2n t | none => free 0 % 2], h)
  else if op = 8 then (if y % 256 = 0 then c else a, f)
  else if op = 9 then (if f.cplx = g.cplx then out g va else open_ g)
  else if op ≤ 0x1B then out f [.f (unitFn op ((va.headD (.i 0)).fv))]
  else if op = 0x38 then bits (x &&& y)
  else if op = 0x39 then bits (x ||| y)
  else if op = 0x3A then bits (x ^^^ y)
  else if op = 0x3B then bits (2 ^ f.bits - 1 - x)
  else if op ≤ 0x3F then
    match immShift w with
    | none => open_ f
    | some n =>
      if op = 0x3C then
        -- Beyond twice the width every bit has left: the exact product is 0 or out of range alike.
        out f [.i (sx f.bits x * ((2 ^ min n 64 : Nat) : Int))]
      else if op = 0x3D then out f [.i (sx f.bits x / ((2 ^ min n 64 : Nat) : Int))]
      else if op = 0x3E then bits (x / 2 ^ min n 64)
      else
        let r := n % f.bits
        bits (x * 2 ^ r + x / 2 ^ (f.bits - r))
  else if op = 0x40 then bits (popBits f.bits x)
  else if op = 0x41 then bits (revBits f.bits x)
  else if op = 0x42 then ([vInt 4 true (sx 8 x)], ⟨4, false, none⟩)
  else ([unsx 8 (sx 4 x)], ⟨8, false, none⟩)

/-- Format of the elements at SRCB. -/
def vFmtB (w : Tw) : VFmt := if vcOp w = 8 then vFmt 0 else vFmt (vcFmt w)

/-- The operation takes a second source element by element. -/
def vUsesB (op : Nat) : Bool := op ≤ 5 || op = 7 || op = 8 || (0x38 ≤ op && op ≤ 0x3A)

/-- All results of an elementwise operation from the sources as they stand, then stored. -/
def Dev.vecElementwise (d : Dev) (e : Nat) (w : Tw) : Dev :=
  let f := vFmt (vcFmt w)
  let res := (upTo (vcCount w)).map (fun k =>
    let a := d.getElem e f (vAddr w (vcA w) f.size k)
    let b := if vUsesB (vcOp w) then d.getElem e (vFmtB w) (vAddr w (vcB w) (vFmtB w).size k) else []
    let c := if vcOp w = 3 || vcOp w = 8 then d.getElem e f (vAddr w (vcD w) f.size k) else []
    let r := vElem w k a b c
    (vAddr w (vcD w) r.2.size k, r))
  res.foldl (fun d r => d.putElem e r.2.2 r.1 r.2.1) d

/-! ### Row operations -/

/-- Elements per row, and number of rows. -/
def vRowlen (w : Tw) : Nat := if vcRowlen w = 0 then vcCount w else vcRowlen w
def vRows (w : Tw) : Nat := vcCount w / vRowlen w

/-- Patterns of row `r`. -/
def Dev.vRow (d : Dev) (e : Nat) (w : Tw) (r : Nat) : List (List Nat) :=
  let f := vFmt (vcFmt w)
  (upTo (vRowlen w)).map (fun i => d.getElem e f (vAddr w (vcA w) f.size (r * vRowlen w + i)))

/-- The values of a row of reals. -/
def rowVals (f : VFmt) (l : List (List Nat)) : List FV := l.map (fun p => (f.val (p.headD 0)).fv)

/-- Position of the extreme of a row; none where a NaN stands in it. -/
def extreme (max : Bool) : List VVal → Nat → Option (Nat × VVal) → Option (Option (Nat × VVal))
  | [], _, best => some best
  | v :: vs, i, none => match vCmp v v with
    | some _ => extreme max vs (i + 1) (some (i, v))
    | none => none
  | v :: vs, i, some (j, u) => match vCmp v u with
    | some o => extreme max vs (i + 1) (some (if (if max then 0 < o else o < 0) then (i, v) else (j, u)))
    | none => none

/-- RSUM, RMAX, RMIN and ARGMAX of one row: the pattern and its format. -/
def vReduce (w : Tw) (r : Nat) (row : List (List Nat)) : Nat × VFmt :=
  let f := vFmt (vcFmt w)
  let vals := row.map (fun p => f.val (p.headD 0))
  let free := Config.openResult 5 ([vcOp w, r] ++ row.flatten)
  if vcOp w = 0x20 then (f.store (vcSat w) free (.f (sumFp32 5 (vals.map VVal.fv))), f)
  else
    match extreme (vcOp w != 0x22) vals 0 none with
    | some (some (i, _)) =>
      if vcOp w = 0x23 then (i, vFmt 2) else ((row.getD i []).headD 0, f)
    | _ =>
      if vcOp w = 0x23 then (free % vRowlen w, vFmt 2) else (free % 2 ^ f.bits, f)

/-- SOFTMAX, LNORM and RMSNORM of one row, and one FFT stage: each element's stored parts. What a stage makes of real data, whose
twiddles have no imaginary part, is not stated: free (R151; log entry 18). -/
def Dev.vecRowFn (d : Dev) (e : Nat) (w : Tw) (r : Nat) : List (List Nat) :=
  let f := vFmt (vcFmt w)
  let row := d.vRow e w r
  let n := vRowlen w
  let free (i part : Nat) : Nat := Config.openResult 5 ([vcOp w, vcParam w, i, part] ++ row.flatten)
  let store (i : Nat) (vs : List VVal) : List Nat := vs.mapIdx (fun part v => f.store (vcSat w) (free i part) v)
  if vcOp w = 0x30 || vcOp w = 0x31 then
    let tw (i : Nat) : List VVal := (d.getElem e f (8 * vcB w + i * f.size)).map f.val
    if !f.cplx then (upTo n).map (fun k => [free k 0 % 2 ^ f.bits])
    else (upTo n).map (fun k => store k
      (fftElem (vcOp w) n (vcParam w % 16) (bit (vcParam w) 4) (fun i => (row.getD i []).map f.val) tw k))
  else
    let per := if vcOp w = 0x29 then 2 else 1
    let gains := if vcB w = 0 then [] else (upTo (per * n)).map (fun i => d.rdLe (sramBase e + vcB w + 4 * i) 4)
    let res := if vcOp w = 0x28 then softmaxRow (rowVals f row) else normRow (vcOp w) (vcImm w) gains (rowVals f row)
    res.mapIdx (fun i v => store i [.f v])

/-- Insertion into a descending list of (index, value, tie key). -/
def putScore (x : Nat × FV × Nat) : List (Nat × FV × Nat) → List (Nat × FV × Nat)
  | [] => [x]
  | y :: l =>
    let first : Bool := match x.2.1.cmp y.2.1 with
      | some o => 0 < o || (o = 0 && (x.2.2 < y.2.2 || (x.2.2 = y.2.2 && x.1 < y.1)))
      | none => false
    if first then x :: y :: l else y :: putScore x l

/-- The 64 bytes of TOPK for one row (R150). The order of equal scores and the score field of an entry not used
are open. -/
def topkRow (w : Tw) (r : Nat) (row : List (List Nat)) : List Byte :=
  let f := vFmt (vcFmt w)
  let open_ (i : Nat) : Nat := Config.openResult 5 ([0x58, r, i] ++ row.flatten)
  let vals := row.map (fun p => (f.val (p.headD 0)).fv)
  let entry (i s : Nat) : List Byte := leBytes 2 i ++ zeros 2 ++ leBytes 4 s
  if f.cplx || vals.any (fun v => v.cmp v = none) then
    (upTo 8).flatMap (fun i =>
      if i < vcParam w && i < row.length then entry (open_ i % row.length) (open_ (i + 8)) else entry 0xFFFF (open_ (i + 8)))
  else
    let ranked := (vals.mapIdx (fun i v => (i, v, open_ (16 + i)))).foldr putScore []
    (upTo 8).flatMap (fun i =>
      match if i < vcParam w then ranked[i]? else none with
      | some (j, v, _) => entry j (fFP32.encode v (open_ i))
      | none => entry 0xFFFF (open_ (i + 8)))

/-! ### Block floating point, gather, scatter -/

/-- `n` bits of a byte list from bit `at_`, the most significant bit of each byte first. -/
def beBits (bs : List Byte) (at_ n : Nat) : Nat :=
  (upTo n).foldl (fun v i =>
    let b := (bs.getD ((at_ + i) / 8) 0#8).toNat
    2 * v + b / 2 ^ (7 - (at_ + i) % 8) % 2) 0

/-- Bytes of one compressed PRB: the exponent byte and 24 mantissas. -/
def prbBytes (w : Tw) : Nat := 1 + 3 * (vcParam w + 1)

/-- The 24 parts of one PRB (R113, R150): mantissa × 2^exponent, shifted right by IMM. -/
def Dev.prb (d : Dev) (e : Nat) (w : Tw) (k : Nat) : List Int :=
  let bs := d.sram e (vcA w + k * prbBytes w) (prbBytes w)
  let ex := (bs.headD 0#8).toNat % 16
  let m := vcParam w + 1
  (upTo 24).map (fun i =>
    sx m (beBits bs (8 + i * m) m) * ((2 ^ ex : Nat) : Int) / ((2 ^ min (vcImm w) 64 : Nat) : Int))

def Dev.vecBfp (d : Dev) (e : Nat) (w : Tw) : Dev :=
  let g := vFmt (vcDfmt w)
  (upTo (vcCount w)).foldl (fun d k =>
    let bytes := (d.prb e w k).flatMap (fun x => leBytes 2 (g.store true 0 (.i x)))
    d.wrBytes (sramBase e + vcD w + 48 * k) bytes) d

/-- Bit address of element `i` of `bits` bits counted from `base`, where it lies within engine SRAM. -/
def vIndexed (base bits : Nat) (i : Int) : Option Nat :=
  let a := ((8 * base : Nat) : Int) + i * bits
  if 0 ≤ a && a + bits ≤ ((8 * 0x800000 : Nat) : Int) then some a.toNat else none

/-- GATHER and SCATTER by an INT16 index vector. An index that leaves engine SRAM reads an open value, and
stores nothing. -/
def Dev.vecIndexed (d : Dev) (e : Nat) (w : Tw) : Dev :=
  let f := vFmt (vcFmt w)
  let idx (k : Nat) : Int := sx 16 (d.getBits e (vAddr w (vcB w) 16 k) 16)
  if vcOp w = 0x50 then
    let vals := (upTo (vcCount w)).map (fun k =>
      match vIndexed (vcA w) f.size (idx k) with
      | some a => d.getElem e f a
      | none => (if f.cplx then [0, 1] else [0]).map (fun p => Config.openResult 5 [0x50, k, p] % 2 ^ f.bits))
    (vals.mapIdx (fun k v => (k, v))).foldl
      (fun d kv => d.putElem e f (vAddr w (vcD w) f.size kv.1) kv.2) d
  else
    let vals := (upTo (vcCount w)).map (fun k =>
      (vIndexed (vcD w) f.size (idx k), d.getElem e f (vAddr w (vcA w) f.size k)))
    vals.foldl (fun d v => match v.1 with
      | some a => d.putElem e f a v.2
      | none => d) d

/-! ### A VEC task word -/

/-- What VEC `w` stores (R112, R150, R151). -/
def Dev.vecRun (d : Dev) (e : Nat) (w : Tw) : Dev :=
  let op := vcOp w
  let f := vFmt (vcFmt w)
  if op < 0x20 || (0x38 ≤ op && op ≤ 0x43) then d.vecElementwise e w
  else if op ≤ 0x23 then
    let res := (upTo (vRows w)).map (fun r => vReduce w r (d.vRow e w r))
    (res.mapIdx (fun r x => (r, x))).foldl (fun d rx =>
      d.putBits e (8 * vcD w + rx.1 * rx.2.2.bits) rx.2.2.bits rx.2.1) d
  else if op ≤ 0x31 then
    let res := (upTo (vRows w)).map (fun r => d.vecRowFn e w r)
    (res.flatten.mapIdx (fun k p => (k, p))).foldl (fun d kp =>
      d.putElem e f (vAddr w (vcD w) f.size kp.1) kp.2) d
  else if op = 0x48 then d.vecBfp e w
  else if op = 0x50 || op = 0x51 then d.vecIndexed e w
  else if op = 0x58 then
    let res := (upTo (vRows w)).map (fun r => topkRow w r (d.vRow e w r))
    d.wrBytes (sramBase e + vcD w) res.flatten
  else
    let vals := (upTo (vRows w)).map (fun r =>
      let row := d.vRow e w r
      let free := Config.openResult 5 ([op, vcParam w, r] ++ row.flatten)
      match confRow (vcParam w) (rowVals f row) with
      | some v => fFP32.encode v free
      | none => free % 2 ^ 32)
    d.modEng e (fun x => { x with
      conf := (vals.mapIdx (fun r v => (r, v))).foldl (fun t rv => tset t rv.1 rv.2) x.conf })

/-- VEC_COMPLETE: the first or second VEC in the vector queue with no evaluation before it ends (R112, R137). -/
def Dev.vecComplete (d : Dev) (e i : Nat) : Dev :=
  let x := d.eng e
  match x.vecq[i]? with
  | some j =>
    if (x.vecq.take (i + 1)).all (fun j => j.kind = .vec) then
      ((d.vecRun e j.word).modEng e (fun x => { x with vecq := x.vecq.eraseIdx i })).endLive e j.num .vec
    else d
  | none => d

end Sys2Proof.Machine
end

