-- ==== Sys2Proof/Machine/TaskCheck.lean ====
section
/-!
DEFINITION. The decode checks of task words (R128, R129, R133, R145, R148, R151–R153, R171, R174, R486): each opcode's
conditions as a list in the order of R486, of which the first that applies is reported.
-/
namespace Sys2Proof.Machine

/-- The first error code whose condition holds. -/
def firstError : List (Bool × Nat) → Option Nat
  | [] => none
  | (b, c) :: l => if b then some c else firstError l

/-- Bits of fields given as (byte, low bit, length). -/
def fieldMask (l : List (Nat × Nat × Nat)) : Nat :=
  l.foldl (fun m f => m ||| (2 ^ f.2.2 - 1) * 2 ^ (8 * f.1 + f.2.1)) 0

/-- A bit of `w` outside the header and the fields in use is set (R128). -/
def strayBits (w : Tw) (used : List (Nat × Nat × Nat)) : Bool :=
  w.toNat &&& (2 ^ 256 - 1 - fieldMask ([(0, 0, 8), (1, 0, 4), (2, 0, 16)] ++ used)) != 0

/-- Engine SRAM holds the whole structure of `n` bytes at `off` (R129). -/
def inSram (off n : Nat) : Bool := off + n ≤ 0x800000

/-- ADDR of a task word with the placement's bias (R129). -/
def biased (w : Tw) (bias : Nat) : Nat := (twAddr w + if twBias w then bias else 0) % 2 ^ 64

/-- The header breaks R126. -/
def badHeader (w : Tw) : Bool :=
  (twBias w && !(twOp w = 9 || twOp w = 0xB || twOp w = 0xC))
    || (!twLbl w && twLabel w != 0) || (twLbl w && 4095 < twLabel w)

/-! ### LOADW -/

def ldComps (w : Tw) : Nat := if ldComplex w then 3 else 1

def ldUsed (w : Tw) : List (Nat × Nat × Nat) :=
  [(4, 0, 5), (5, 0, 8)] ++ (if ldSrc w then [(4, 5, 3)] else [(8, 0, 32)])
    ++ (if ldSparse w then [(12, 0, 32)] else [(6, 0, 6), (7, 0, 6)])
    ++ (if ldUsesPlanes w then [(16, 0, 32)] else [])

/-- R171: the index entry breaks one of its rules. -/
def badIndex (ix : List Byte) : Bool :=
  spNblk ix != popBits 64 (getLe ix 0 8) || spNblk ix = 0
    || (upTo 8).any (fun rg =>
      let o := spOb ix rg
      if o = 0xFFFF then (upTo 8).any (fun lg => spPresent ix rg lg) else 8191 < o)
    || (upTo 8).any (fun lg => if spLine ix lg then 2047 < spCi ix lg else spCi ix lg != 0)
    || getLe ix 41 7 != 0

/-- Index entry of a sparse LOADW, as engine SRAM holds it. -/
def Dev.ldIndex (d : Dev) (e : Nat) (w : Tw) : Option (List Byte) :=
  if ldSparse w then some (d.sram e (ldIdx w) 48) else none

def Dev.checkLoadw (d : Dev) (e : Nat) (w : Tw) : List (Bool × Nat) :=
  let ix := d.ldIndex e w
  let readable := ldIdx w % 8 = 0 && inSram (ldIdx w) 48
  [(strayBits w (ldUsed w) || ldTmask w = 0 || 5 < ldFmt w
      || (!ldSparse w && 63 < ldRow0 w + (ldRows w - 1))
      || (readable && match ix with | some ix => badIndex ix | none => false), errBadField),
   (ldComplex w && (ldSpread w || ldSparse w || !(ldTmask w = 3 || ldTmask w = 12))
      || (ldSparse w && ldSpread w), errFmt),
   ((!ldSrc w && ldWaddr w % 64 != 0) || (ldSparse w && ldIdx w % 8 != 0)
      || (ldUsesPlanes w && ldPlanes w % 64 != 0), errAlign),
   ((!ldSrc w && !inSram (ldWaddr w) (loadBytes w (if readable then ix else none)))
      || (ldSparse w && !inSram (ldIdx w) 48)
      || (ldUsesPlanes w && !inSram (ldPlanes w) (4096 * ldComps w * ldDw w)), errAddr),
   (ldSpread w && popc4 (ldTmask w) < ldDw w, errSpread)]

/-! ### MVM and MVMC -/

def mvUsed : List (Nat × Nat × Nat) :=
  [(4, 0, 8), (5, 0, 8), (6, 0, 7), (7, 0, 8), (8, 0, 8), (9, 0, 4), (10, 0, 16), (12, 0, 32), (16, 0, 16),
   (18, 0, 8), (20, 0, 16), (22, 0, 16)]

/-- Weight sets of the tiles of a mask, as decode sees them. -/
def Engine.sets (x : Engine) (mask : Nat) : List (Option WSet) :=
  ((upTo 4).filter (bit mask)).map (fun t => (x.slot t).wset)

/-- The index entry common to the tiles' sets, where they are sparse. -/
def Engine.sparseOf (x : Engine) (mask : Nat) : Option (List Byte) :=
  match x.sets mask with
  | some s :: _ => s.sparse
  | _ => none

/-- The index entries of the sparse sets among the tiles' sets. -/
def Engine.indices (x : Engine) (mask : Nat) : List (List Byte) :=
  (x.sets mask).filterMap (fun s => s.bind (·.sparse))

/-- The tiles hold no set of the kind and DW that the product needs (R143, R146, R174). -/
def Engine.badSet (x : Engine) (w : Tw) : Bool :=
  let ss := x.sets (mvTmask w)
  let cplx := twOp w = 3
  let sp := x.sparseOf (mvTmask w)
  let num := match ss with | some s :: _ => s.num | _ => 0
  ss.any (fun s => match s with
    | none => true
    | some s => s.complex != cplx || s.dw != mvDw w || s.spread != mvSpread w || s.sparse != sp
        || ((cplx || mvSpread w) && s.num != num))

/-- The product names a spread arrangement its set does not have (R71, R143, R174). -/
def Engine.badSpread (x : Engine) (w : Tw) : Bool :=
  mvSpread w && twOp w = 2
    && (popc4 (mvTmask w) < mvDw w || (x.sets (mvTmask w)).any (fun s => match s with
      | some s => (s.spread && s.tmask != mvTmask w) || s.sparse.isSome
      | none => false))

/-- Conversions per vector and digit pass: segments, groups of K, or one for a sparse set (R142, R175). -/
def mvConvs (w : Tw) (ix : Option (List Byte)) : Nat :=
  match ix with
  | some _ => 1
  | none => if mvArr w then mvNseg w else (mvNseg w + 2 ^ mvKlog w - 1) / 2 ^ mvKlog w

/-- What a product adds to its area's bound (R95, R176). -/
def mvBound (w : Tw) (ix : Option (List Byte)) (ashift : Nat) : Nat :=
  let times := mvConvs w ix * (if twOp w = 3 then 2 else 1) * (match ix with | some ix => spShare ix | none => 1)
  (upTo (mvDw w)).foldl (fun n p => (upTo (mvDx w)).foldl (fun n q =>
    n + times * shiftCeil (16384 + 14400 * 2 ^ mvKlog w) (passShift w ashift p q)) n) 0

/-- Rows of the area a product reaches (R146, R176). -/
def mvRows (w : Tw) (ix : Option (List Byte)) : Nat :=
  match ix with
  | some ix => mvArow w + mvNvec w * ((spObs ix).foldl max 0 / 8 + 1)
  | none => mvArow w + mvNvec w * (if twOp w = 3 then 2 else 1)

/-- The open area with number `k`. -/
def Engine.openArea (x : Engine) (k : Nat) : Option Area := tfind x.openAreas k

def Dev.checkMvm (d : Dev) (e : Nat) (w : Tw) : List (Bool × Nat) :=
  let x := d.eng e
  let cplx := twOp w = 3
  let ix := x.sparseOf (mvTmask w)
  let seg := mvSegBytes w * mvNseg w
  let area := x.openArea (mvArea w)
  [(strayBits w mvUsed || mvTmask w = 0 || mvKlog w = 7 || 4 < mvGain w || mvRR w = 3
      || mvXfmt w = 3 || (cplx && mvXfmt w = 0) || mvNvec w = 0 || (if cplx then 4096 else 8192) < mvNvec w
      || mvXstride w % 32 != 0 || mvXstride w < seg
      || (cplx && (mvSpread w || !(mvTmask w = 3 || mvTmask w = 12)))
      || (!cplx && (x.indices (mvTmask w)).any (fun ix => (!mvArr w && mvKlog w != 0)
          || (upTo 8).any (fun lg => spLine ix lg && 8 * mvNseg w ≤ spCi ix lg))), errBadField),
   (mvXaddr w % 32 != 0, errAlign),
   (!inSram (mvXaddr w) ((mvNvec w - 1) * mvXstride w + seg), errAddr),
   (!mvSens w && mvThrM w != 0 && !mvArr w && mvKlog w != 0, errGateArr),
   (x.badSpread w, errSpread),
   (x.badSet w, errWset),
   (match area with
      | none => true
      | some a => a.cplx != cplx || a.nrows < mvRows w ix, errArea),
   (match area with
      | none => false
      | some a => 2 ^ 31 - 1 < a.bound + mvBound w ix a.ashift, errBound)]

/-! ### DMM -/

def dmUsed (w : Tw) : List (Nat × Nat × Nat) :=
  [(4, 0, 8), (5, 0, 1), (6, 0, 16), (8, 0, 16), (10, 0, 16), (12, 0, 32), (16, 0, 32), (24, 0, 16), (26, 0, 16)]
    ++ (if dmDest w then [(5, 1, 3), (20, 0, 32), (28, 0, 16)] else [(20, 0, 4), (22, 0, 16)])

def dmBound (w : Tw) (ashift : Nat) : Nat :=
  shiftCeil (16384 * dmKd w * (if dmA w = 6 then 2 else 1)) (-(ashift : Int))

/-- DMM's checks (R148). OSEL 1–2 with an integer input breaks the field's encoding: BAD_FIELD (DESIGN CHOICE, log entry 222). -/
def Dev.checkDmm (d : Dev) (e : Nat) (w : Tw) : List (Bool × Nat) :=
  let isInt := dmA w = 0 || dmA w = 6
  let area := (d.eng e).openArea (dmArea w)
  let toArea := !dmDest w
  [(strayBits w (dmUsed w) || 8 < dmA w || 8 < dmB w || (dmDest w && (2 < dmOsel w || (isInt && dmOsel w != 0)))
      || dmM w = 0 || dmKd w = 0 || dmN w = 0 || 8192 < dmN w || dmBstride w % 64 != 0
      || (dmDest w && dmDstride w % 64 != 0), errBadField),
   (!(dmA w = dmB w || (dmA w = 1 && dmB w = 2) || (dmA w = 2 && dmB w = 1))
      || (toArea && (!isInt || 64 < dmM w
        || match area with | some a => a.cplx != (dmA w = 6 : Bool) | none => false)), errFmt),
   (dmAaddr w % 64 != 0 || dmBaddr w % 64 != 0 || (dmDest w && dmDaddr w % 64 != 0), errAlign),
   (!inSram (dmAaddr w) (dmM w * dmRowBytes w)
      || !inSram (dmBaddr w) ((dmN w - 1) * dmBstride w + dmKd w * dmSize (dmB w))
      || (dmDest w && !inSram (dmDaddr w) ((dmN w - 1) * dmPitch w + dmVecBytes w)), errAddr),
   (toArea && match area with
      | none => true
      | some a => a.nrows < dmArow w + dmN w * (if dmA w = 6 then 2 else 1), errArea),
   (toArea && match area with
      | none => false
      | some a => 2 ^ 31 - 1 < a.bound + dmBound w a.ashift, errBound)]

/-! ### VEC -/

def vKnown (op : Nat) : Bool :=
  op ≤ 9 || (0x10 ≤ op && op ≤ 0x13) || (0x18 ≤ op && op ≤ 0x1B) || (0x20 ≤ op && op ≤ 0x23)
    || (0x28 ≤ op && op ≤ 0x2A) || op = 0x30 || op = 0x31 || (0x38 ≤ op && op ≤ 0x43) || op = 0x48
    || op = 0x50 || op = 0x51 || op = 0x58 || op = 0x60

/-- Row operations (R151). -/
def vRowOp (op : Nat) : Bool := (0x20 ≤ op && op ≤ 0x31) || op = 0x58 || op = 0x60

/-- The result is an integer, so SAT selects how it is cut. -/
def vIntResult (w : Tw) : Bool :=
  let op := vcOp w
  if op = 7 || op = 0x23 then true
  else if op = 9 || op = 0x48 then (vFmt (vcDfmt w)).flt.isNone
  else if op = 0x58 || op = 0x60 then false
  else (vFmt (vcFmt w)).flt.isNone

def vUsesImm (op : Nat) : Bool := (0x3C ≤ op && op ≤ 0x3F) || op = 0x29 || op = 0x2A || op = 0x48
def vUsesParam (op : Nat) : Bool := op = 7 || op = 0x30 || op = 0x31 || op = 0x48 || op = 0x58 || op = 0x60
def vUsesSrcB (op : Nat) : Bool :=
  vUsesB op || op = 0x29 || op = 0x2A || op = 0x30 || op = 0x31 || op = 0x50 || op = 0x51

/-- Fields of VEC that its operation uses; BFPUNPACK uses neither ROWLEN nor PITCH (R128, R150; log entry 177). -/
def vcUsed (w : Tw) : List (Nat × Nat × Nat) :=
  let op := vcOp w
  [(4, 0, 8), (5, 0, 4), (5, 5, 1), (6, 0, 4), (8, 0, 32), (20, 0, 32)]
    ++ (if vIntResult w then [(5, 4, 1)] else []) ++ (if vUsesParam op then [(7, 0, 8)] else [])
    ++ (if vUsesSrcB op then [(12, 0, 32)] else []) ++ (if op = 0x60 then [] else [(16, 0, 32)])
    ++ (if vUsesImm op then [(24, 0, 32)] else [])
    ++ (if op = 0x48 then [] else [(28, 0, 16)] ++ (if vcRowlen w = 0 then [] else [(30, 0, 16)]))

/-- A power of two. -/
def isPow2 (n : Nat) : Bool := n != 0 && popBits 32 n = 1

/-- PARAM and the limits of row operations (R113, R150, R151). -/
def vBadRange (w : Tw) : Bool :=
  let op := vcOp w
  let n := vcRowlen w
  (vRowOp op && (n = 0 || vcCount w % n != 0))
    || (op = 7 && 5 < vcParam w) || (op = 0x28 && 4096 < n)
    || ((op = 0x30 || op = 0x31) && (4096 < n || !isPow2 n || 31 < vcParam w))
    || (op = 0x48 && (15 < vcParam w || vcFmt w != 0))
    || (op = 0x58 && (256 < n || vcParam w = 0 || 8 < vcParam w))
    || (op = 0x60 && (4096 < n || 2 < vcParam w || 256 * n < vcCount w))

def vBadFmt (w : Tw) : Bool :=
  let op := vcOp w
  let f := vcFmt w
  (vcDfmt w != f && !(op = 9 || op = 7 || op = 0x23 || op = 0x48 || op = 0x58 || op = 0x60))
    || (((0x10 ≤ op && op ≤ 0x2A) || op = 0x60) && !vIsFloat f)
    || ((op = 0x30 || op = 0x31) && !(f = 6 || f = 7 || f = 8 || vIsFloat f))
    || (0x38 ≤ op && op ≤ 0x43 && !vIsInt f) || (op = 0x42 && f != 0) || (op = 0x43 && f != 9)
    || (op = 0x48 && !(vcDfmt w = 6 || vcDfmt w = 7))

/-- Bytes from `base` to the end of the last element of a vector operand. -/
def vExtent (w : Tw) (base bits : Nat) : Bool :=
  vcCount w = 0 || (vAddr w base bits (vcCount w - 1) + bits + 7) / 8 ≤ 0x800000

def vBadAddr (w : Tw) : Bool :=
  let op := vcOp w
  let f := vFmt (vcFmt w)
  let rows := if vcRowlen w = 0 then 1 else vcCount w / vcRowlen w
  let srcA := if op = 0x48 then inSram (vcA w) (vcCount w * prbBytes w)
    else if op = 0x50 then inSram (vcA w) 1 else vExtent w (vcA w) f.size
  let srcB := if vUsesB op then vExtent w (vcB w) (vFmtB w).size
    else if op = 0x29 then inSram (vcB w) (if vcB w = 0 then 0 else 8 * vcRowlen w)
    else if op = 0x2A then inSram (vcB w) (if vcB w = 0 then 0 else 4 * vcRowlen w)
    else if op = 0x50 || op = 0x51 then vExtent w (vcB w) 16
    else if vUsesSrcB op then inSram (vcB w) 1 else true
  let dst := if op = 0x48 then inSram (vcD w) (48 * vcCount w)
    else if op = 0x51 then inSram (vcD w) 1
    else if op = 0x58 then inSram (vcD w) (64 * rows)
    else if op = 0x60 then true
    else if 0x20 ≤ op && op ≤ 0x23 then inSram (vcD w) (rows * (if op = 0x23 then 4 else f.bits / 8))
    else if op = 7 then vExtent w (vcD w) 8 else if op = 9 then vExtent w (vcD w) (vFmt (vcDfmt w)).size
    else if op = 0x42 then vExtent w (vcD w) 4 else if op = 0x43 then vExtent w (vcD w) 8
    else vExtent w (vcD w) f.size
  !(srcA && srcB && dst)

def checkVec (w : Tw) : List (Bool × Nat) :=
  [(!vKnown (vcOp w), errBadOp),
   (strayBits w (vcUsed w) || 0xC < vcFmt w || 0xC < vcDfmt w || vBadRange w, errBadField),
   (vBadFmt w, errFmt),
   (vcA w % 64 != 0 || vcB w % 64 != 0 || vcD w % 64 != 0, errAlign),
   (vBadAddr w, errAddr)]

/-! ### ACC -/

def acUsed (w : Tw) : List (Nat × Nat × Nat) :=
  [(4, 0, 2), (4, 4, 4)]
    ++ (if acAct w = 0 then [(4, 2, 1), (5, 0, 5), (8, 0, 16)]
      else if acAct w = 2 then []
      else [(4, 3, 1), (6, 0, 4), (12, 0, 32), (16, 0, 32), (20, 0, 32)]
        ++ (if acImask w then [(10, 0, 16)] else []))

/-- Bytes of a delivered vector. -/
def acVecBytes (w : Tw) : Nat := 64 * ofmtSize (acOfmt w)

/-- Rows an OPEN asks for. -/
def acRows (w : Tw) : Nat := if acCplx w then 2 * acNvec w else acNvec w

def Dev.checkAcc (d : Dev) (e : Nat) (w : Tw) : List (Bool × Nat) :=
  let x := d.eng e
  let deliver := acAct w = 1 || acAct w = 3
  let area := x.openArea (acArea w)
  let settled : Engine := { x with areas := x.openAreas }
  [(strayBits w (acUsed w)
      || (acAct w = 0 && (acNvec w = 0 || (if acCplx w then 4096 else 8192) < acNvec w))
      || (deliver && (8 < acOfmt w || acDstride w % 8 != 0 || acDstride w < 24 + acVecBytes w)), errBadField),
   (deliver && match area with | some a => a.cplx != ofmtCplx (acOfmt w) | none => false, errFmt),
   (deliver && (acStab w % 8 != 0 || acDaddr w % 8 != 0), errAlign),
   (deliver && ((acStab w != 0 && !inSram (acStab w) 1024) || match area with
      | some a => !inSram (acDaddr w) ((a.nvec - 1) * acDstride w + 24 + acVecBytes w)
      | none => false), errAddr),
   (if acAct w = 0 then area.isSome || 16 ≤ x.openAreas.length || (settled.findRows (acRows w)).isNone
    else area.isNone, errArea)]

/-! ### The sequencer's own opcodes -/

def checkRoute (w : Tw) : List (Bool × Nat) :=
  [(strayBits w [(4, 0, 4), (6, 0, 16), (8, 0, 16), (10, 0, 16), (12, 0, 32), (16, 0, 32), (20, 0, 32)]
      || rtK w = 0 || 8 < rtK w || rtNitem w = 0 || 256 < rtNitem w || rtNexp w = 0 || 256 < rtNexp w
      || 4095 < rtJoin w, errBadField),
   (rtScores w % 8 != 0 || rtEtab w % 8 != 0 || rtWout w % 64 != 0, errAlign),
   (!inSram (rtScores w) (64 * rtNitem w) || !inSram (rtEtab w) (8 * rtNexp w) || !inSram (rtWout w) 1024, errAddr)]

def checkExit (w : Tw) : List (Bool × Nat) :=
  [(strayBits w [(6, 0, 16), (8, 0, 16), (12, 0, 32), (16, 0, 32)]
      || exNitem w = 0 || 256 < exNitem w || 4095 < exTarget w, errBadField),
   (exXmap w % 32 != 0, errAlign),
   (exXmap w != 0 && !inSram (exXmap w) 32, errAddr)]

/-- A biased device address: alignment to 8 and bits [63:41] (R129). -/
def checkDevAddr (w : Tw) (bias : Nat) : List (Bool × Nat) :=
  [(biased w bias % 8 != 0, errAlign), (2 ^ 41 ≤ biased w bias, errAddr)]

def checkSignal (w : Tw) (bias : Nat) : List (Bool × Nat) :=
  let ev := 2 ≤ sgKind w
  let mem := sgKind w != 2
  [(strayBits w ([(4, 0, 2)] ++ (if ev then [(5, 0, 8), (6, 0, 16)] else [])
        ++ (if mem then [(8, 0, 64), (16, 0, 64)] else []))
      || (ev && sgMask w = 0) || (!mem && twBias w), errBadField)]
    ++ (if mem then checkDevAddr w bias else [])

def checkFence (w : Tw) (bias : Nat) : List (Bool × Nat) :=
  [(strayBits w ([(4, 0, 5)] ++ if fnPoll w then [(8, 0, 64), (16, 0, 64), (24, 0, 16)] else [])
      || (fnScope w = 0 && !fnPoll w) || (!fnPoll w && twBias w), errBadField)]
    ++ (if fnPoll w then checkDevAddr w bias else [])

def checkWaitm (w : Tw) : List (Bool × Nat) := [(strayBits w [(4, 0, 13), (8, 0, 16)], errBadField)]

/-- Tollgates at which requester `who` holds a locked sequence, one that is closing included (R167, R267; log entry 166). -/
def Dev.locksOf (d : Dev) (who : Nat) : List Nat :=
  (d.tgs.filter (fun t => match t.2.lock with
    | some l => l.owner = who
    | none => false)).map (·.1)

/-- Those of them whose CLOSE has not been decoded. -/
def Dev.openLocks (d : Dev) (who : Nat) : List Nat :=
  (d.locksOf who).filter (fun n => match (d.tg n).lock with
    | some l => !l.closing
    | none => false)

def Dev.checkLockseq (d : Dev) (e : Nat) (w : Tw) : List (Bool × Nat) :=
  let held := d.locksOf (8 * e + lkCtx w)
  [(strayBits w ([(4, 0, 4), (5, 0, 8)] ++ if lkClose w then [] else [(6, 0, 16)]) || 53 < lkTg w, errBadField),
   (if lkClose w then !held.contains (lkTg w) else !held.isEmpty, errLock)]

/-- ARM (R159, R203, R205, R217): a full arm of a context still transferring or with a descriptor that is refused,
a re-arm of one not persistent or with one held. A descriptor in a reserved range is judged when it is read (R129). -/
def Dev.checkArm (d : Dev) (e : Nat) (w : Tw) (bias : Nat) : List (Bool × Nat) :=
  let n := 8 * e + arCtx w
  let c := d.ctx n
  let a := d.localAddr (biased w bias)
  let b := if usableRange a 96 then d.rdBytes a 96 else zeros 96
  [(strayBits w [(4, 0, 4), (8, 0, 64)], errBadField)] ++ checkDevAddr w bias
    ++ [(if arRearm w then !c.takesRearm
         else !c.takesArm || (usableRange a 96 && (d.descBad n b || d.reserveShort n (Desc.ofBytes b).resv)), errStream)]

/-- A locked sequence of the engine's contexts is open when the list's END is decoded (R133); one whose CLOSE has been
decoded is not. -/
def Dev.lockOpenAtEnd (d : Dev) (e : Nat) (w : Tw) : Bool :=
  let held := (upTo 8).flatMap (fun k => (d.openLocks (8 * e + k)).map (fun n => (k, n)))
  if twOp w = 0xD then
    if lkClose w then held.any (fun h => h != (lkCtx w, lkTg w)) else true
  else !held.isEmpty

/-- FLOW at decode: RET outside a section, END, EXIT or ROUTE inside one, a fifth EXIT, a list that reaches its
largest count without END (R125, R133, R155, R157). -/
def flowError (x : Engine) (w : Tw) (count : Nat) : Bool :=
  (twRet w && !x.inSection) || (twEnd w && x.inSection)
    || ((twOp w = 7 || twOp w = 8) && x.inSection) || (twOp w = 8 && 4 ≤ x.exits.length)
    || (1048576 ≤ count + 1 && !twEnd w)

/-- The conditions of one opcode. -/
def Dev.opChecks (d : Dev) (e : Nat) (w : Tw) (bias : Nat) : List (Bool × Nat) :=
  match twOp w with
  | 0x00 => [(strayBits w [], errBadField)]
  | 0x01 => d.checkLoadw e w
  | 0x02 => d.checkMvm e w
  | 0x03 => d.checkMvm e w
  | 0x04 => d.checkDmm e w
  | 0x05 => checkVec w
  | 0x06 => d.checkAcc e w
  | 0x07 => checkRoute w
  | 0x08 => checkExit w
  | 0x09 => d.checkArm e w bias
  | 0x0A => checkWaitm w
  | 0x0B => checkSignal w bias
  | 0x0C => checkFence w bias
  | 0x0D => d.checkLockseq e w
  | _ => [(true, errBadOp)]

/-- The error a task word gives at decode, if any (R486). -/
def Dev.twError (d : Dev) (e : Nat) (w : Tw) (bias count : Nat) : Option Nat :=
  let x := d.eng e
  if 0x0D < twOp w || (twOp w = 5 && !vKnown (vcOp w)) then some errBadOp
  else if badHeader w then some errBadField
  else firstError (d.opChecks e w bias
    ++ [(twEnd w && d.lockOpenAtEnd e w, errLockOpen), (flowError x w count, errFlow)])

end Sys2Proof.Machine
end

