-- ==== Sys2Proof/Machine/Sequencer.lean ====
section
/-!
DEFINITION. The sequencer (R114, R132, R135–R137, R154–R167): decoding and issuing task words, barriers and their
release, signals, EXIT and ROUTE evaluations, list starts and ends, and residency (R189–R192).
-/
namespace Sys2Proof.Machine

/-! ### Issue -/

/-- What issuing a task word comes to. -/
inductive Issued where
  /-- Passed on; `complete` if it works in no unit any more. -/
  | ok (d : Dev) (complete : Bool)
  /-- A barrier holds decoding. -/
  | held (d : Dev)
  /-- A queue it needs is full (R114). -/
  | full
  /-- An OPEN waits for a freeing (R106). -/
  | areaWait
  | error (d : Dev) (code : Nat)

/-- Tiles that work on a word with mask `m`: of a spread set the first DW (R140, R143). -/
def tilesOf (m dw : Nat) (spread : Bool) : List Nat :=
  (upTo 4).filter (fun t => bit m t && (!spread || posIn m t < dw))

/-- The issue queue takes an operation for each of these slots (R114). -/
def Engine.roomFor (x : Engine) (ts : List Nat) : Bool :=
  x.issueq.length + ts.length ≤ 16 && ts.all (fun t => (x.issueq.filter (·.slot = t)).length < 8)

/-- UNBOUND at issue (R117). -/
def Dev.unboundErr (d : Dev) (e : Nat) (ts : List Nat) : Bool :=
  fld (d.engCfg e) 16 1 = 1 && ts.any (fun t => (d.slot e t).st = .unbound)

/-- Every operation joins the issue queue. -/
def Engine.addOps (x : Engine) (ops : List TileOp) : Engine :=
  ops.foldl (fun (x : Engine) o => Engine.addLive { x with issueq := x.issueq ++ [o] } o.num .tile) x

/-- Area `k` targeted by the word being issued: its runs of rows, from the first to before the last, and what it adds
to the bound. -/
def Engine.target (x : Engine) (k : Nat) (rows : List (Nat × Nat)) (bound now : Nat) : Engine :=
  match tfind x.areas k with
  | some a =>
    let v (r : Nat) : Nat := if a.cplx then r / 2 else r
    { x with areas := tset x.areas k { a with
        bound := a.bound + bound, targets := a.targets ++ rows.map (fun r => (v r.1, v r.2, now)) } }
  | none => x

/-- The runs of rows that a product targets: of a sparse set, one for each strip of 8 output blocks that it names
(R176, R181). -/
def mvTargets (w : Tw) (ix : Option (List Byte)) : List (Nat × Nat) :=
  match ix with
  | none => [(mvArow w, mvRows w none)]
  | some b => (((spObs b).map (· / 8)).eraseDups).map (fun s =>
      (mvArow w + mvNvec w * s, mvArow w + mvNvec w * (s + 1)))

def Engine.aidOf (x : Engine) (k : Nat) : Nat := ((tfind x.areas k).map (·.aid)).getD 0

def Dev.issueLoadw (d : Dev) (e num : Nat) (w : Tw) : Issued :=
  let x := d.eng e
  let m := ldTmask w
  let ts := tilesOf m (ldDw w) (ldSpread w)
  if !x.roomFor ts then .full
  else if d.unboundErr e ts then .error d errUnbound
  else
    let set : WSet := {
      num, complex := ldComplex w, dw := ldDw w, spread := ldSpread w, tmask := m
      planes := if ldUsesPlanes w then some (ldPlanes w) else none, sparse := d.ldIndex e w }
    let mine := (upTo 4).filter (bit m)
    let x := x.setWork num { prev := mine.map (fun t => (t, (x.slot t).wset)) }
    let x : Engine := { x with slots := mine.foldl (fun s t => tset s t { tget s t ({} : Slot) with wset := some set }) x.slots }
    .ok (d.setEng e (x.addOps (ts.map (fun t => {
      num, word := w, addr := x.pc, issued := d.time, op := 1, slot := t, wset := some set })))) false

def Dev.issueMvm (d : Dev) (e num : Nat) (w : Tw) : Issued :=
  let x := d.eng e
  let ts := tilesOf (mvTmask w) (mvDw w) (mvSpread w && twOp w = 2)
  let ix := x.sparseOf (mvTmask w)
  let area := tfind x.areas (mvArea w)
  let ash := (area.map (·.ashift)).getD 0
  let ops : List TileOp := ts.map (fun t => {
    num, word := w, addr := x.pc, issued := d.time, op := twOp w, slot := t, aid := x.aidOf (mvArea w), mask := x.mask
    skipThr := d.rf .DEV_SKIPTHR 0 16 e, wset := (x.slot t).wset })
  let budget := if mvBudget w = 255 then none else some (16 * mvBudget w)
  let x := (x.setWork num { budget }).target (mvArea w) (mvTargets w ix) (mvBound w ix ash) d.time
  if mvSens w then
    if 8 ≤ x.macJobs then .full else .ok (d.setEng e (x.addMac num 3 (.sens ops))) false
  else if !x.roomFor ts then .full
  else if d.unboundErr e ts then .error d errUnbound
  else .ok (d.setEng e (x.addOps ops)) false

def Dev.issueDmm (d : Dev) (e num : Nat) (w : Tw) : Issued :=
  let x := d.eng e
  if 8 ≤ x.macJobs then .full
  else if dmDest w then .ok (d.setEng e (x.addMac num 4 (.dmm w 0 x.mask))) false
  else
    let ash := ((tfind x.areas (dmArea w)).map (·.ashift)).getD 0
    let rows := dmN w * (if dmA w = 6 then 2 else 1)
    let aid := x.aidOf (dmArea w)
    .ok (d.setEng e ((x.target (dmArea w) [(dmArow w, dmArow w + rows)] (dmBound w ash) d.time).addMac num 4
      (.dmm w aid x.mask))) false

/-- A word joins the vector queue (R114). -/
def Dev.issueVec (d : Dev) (e num : Nat) (w : Tw) (kind : VecKind) (hold : Hold) : Issued :=
  let x := d.eng e
  if 8 ≤ x.vecq.length then .full
  else
    let x := Engine.addLive { x with vecq := x.vecq ++ [{ num, kind, word := w }], hold } num .vec
    if kind = .vec then .ok (d.setEng e x) false else .held (d.setEng e x)

def Dev.issueAcc (d : Dev) (e num : Nat) (w : Tw) : Issued :=
  let x := d.eng e
  let k := acArea w
  if acAct w = 0 then
    match x.findRows (acRows w) with
    | none => .areaWait
    | some b =>
      if (tfind x.areas k).isSome || 16 ≤ x.areas.length then .areaWait
      else .ok (d.setEng e { x with areas := tset x.areas k {
        aid := num, cplx := acCplx w, ashift := acAshift w, nvec := acNvec w, base := b, nrows := acRows w } }) true
  else
    match tfind x.areas k with
    | none => .error d errArea
    | some a =>
      if acAct w = 2 then
        let left := if x.delq.any (·.aid = a.aid) then tset x.areas k { a with freeing := true } else tdrop x.areas k
        .ok (d.setEng e { x with areas := left }) true
      else if 4 ≤ x.delq.length then .full
      else
        let x : Engine := { x with
          delq := x.delq ++ [{ num, aid := a.aid, area := k, word := w, mask := x.mask }]
          areas := if acAct w = 3 then tset x.areas k { a with freeing := true } else x.areas }
        .ok (d.setEng e (x.addLive num .deliver)) false

/-- The descriptor that ARM `num` reads from another device cannot be had: the word stops with ADDR (R29, R400). -/
def Dev.armFails (d : Dev) (e num : Nat) : Dev :=
  if (d.eng e).hold = .arm num then d.taskError e errAddr 0x09 (d.eng e).pc else d

/-- The descriptor that ARM `num` reads from another device has come: it is judged now (R159, R205, R217). -/
def Dev.armArrived (d : Dev) (e num : Nat) (b : List Byte) : Dev :=
  let x := d.eng e
  match x.run with
  | some r =>
    let n := 8 * e + arCtx x.cur
    if x.hold != .arm num then d
    else if !(d.ctx n).takesArm || d.descBad n b || d.reserveShort n (Desc.ofBytes b).resv then
      d.taskError e errStream 0x09 x.pc
    else (((d.armCtx n b r.plc.mbx).modEng e (fun x => { x with armedBy := x.armedBy ++ [(num, n)] })).advance e true).kickAll e
  | none => d

/-- ARM (R158, R159): the descriptor is read now, so one at reserved addresses stops the word here (R129); one that another
device holds is asked for, and decoding waits for it (R29). -/
def Dev.issueArm (d : Dev) (e num : Nat) (w : Tw) (p : Placement) : Issued :=
  let n := 8 * e + arCtx w
  let a := biased w p.bias
  let l := d.localAddr a
  let note (d : Dev) : Dev := d.modEng e (fun x => { x with armedBy := x.armedBy ++ [(num, n)] })
  if arRearm w then .ok (note (d.rearm n a)) true
  else if !d.isLocal a then
    .held ((d.modEng e (fun x => { x with hold := .arm num })).sendXfer (0x120 + e) 1 a 96 [] (.arm e num)
      (fun d => d.armFails e num))
  else if !usableRange l 96 then .error (d.logReserved (0x120 + e) l 96) errAddr
  else .ok (note ((d.hubAccess (0x120 + e) l 96 false).armCtx n (d.rdBytes l 96) p.mbx)) true

/-- Context `n` still writes its pass into engine SRAM, or has another pass to begin (R164, R165). A FORK_RX has no pass of
its own to complete and is not waited for. -/
def Ctx.fillsSram (c : Ctx) : Bool :=
  c.desc.kind = 0 && c.st != .idle && c.st != .fault && c.st != .dropped
    && (c.st != .passEnd || c.rearm.isSome)

/-- A context that an ARM of the running list before task word `num` armed still writes into engine SRAM (R165; log entry
163). -/
def Dev.streamBusy (d : Dev) (e num : Nat) : Bool :=
  (d.eng e).armedBy.any (fun a => a.1 < num && (d.ctx a.2).fillsSram)

/-- Earlier task words in the scopes of a FENCE are not complete (R165): tile operations with what the MAC array
computes for them, MAC-array work, vector work, deliveries. Stream writes are `Dev.streamBusy`. -/
def Engine.fenceBusy (x : Engine) (num scope : Nat) : Bool :=
  x.live.any (fun p => p.1 < num &&
    ((bit scope 0 && (p.2 = .tile || (p.2 = .mac && x.macq.any (fun j => j.num = p.1 && j.kind ≤ 2))))
      || (bit scope 1 && p.2 = .mac) || (bit scope 2 && p.2 = .vec) || (bit scope 3 && p.2 = .deliver)))

/-- Something that a FENCE of task word `num` waits for is not complete (R165). -/
def Dev.fenceBusy (d : Dev) (e num scope : Nat) : Bool :=
  (d.eng e).fenceBusy num scope || (bit scope 3 && d.streamBusy e num)

/-- LOCKSEQ (R167, R266): OPEN presents its request, CLOSE releases the sequence, at once where its
context has nothing outstanding at the Tollgate. -/
def Dev.issueLockseq (d : Dev) (e : Nat) (w : Tw) : Issued :=
  let n := lkTg w
  let who := 8 * e + lkCtx w
  let t := d.tg n
  if lkClose w then
    let (d, t) := d.endLock n { t with lock := t.lock.map (fun l => { l with closing := true }) }
    .ok (d.setTg n t) true
  else
    let d := d.setTg n { t with presented := t.presented ++ [{ who, age := t.cycle + 1, lock := some (d.eng e).pc }] }
    .held (d.modEng e (fun x => { x with hold := .lock (lkCtx w) n (lkTimeout w) d.time }))

/-- A task word that passes its decode checks issues. -/
def Dev.issue (d : Dev) (e num : Nat) (w : Tw) (r : Run) : Issued :=
  let x := d.eng e
  match twOp w with
  | 0x00 => .ok d true
  | 0x01 => d.issueLoadw e num w
  | 0x02 => d.issueMvm e num w
  | 0x03 => d.issueMvm e num w
  | 0x04 => d.issueDmm e num w
  | 0x05 => d.issueVec e num w .vec .none
  | 0x06 => d.issueAcc e num w
  | 0x07 => d.issueVec e num w .route .routeEval
  | 0x08 => d.issueVec e num w .exit .exitEval
  | 0x09 => d.issueArm e num w r.plc
  | 0x0A =>
    if wmMode w && r.released.contains (wmMsid w) then .ok d true
    else .held (d.setEng e { x with hold := .waitm (wmMsid w) (wmTimeout w) d.time })
  | 0x0B =>
    if 4 ≤ x.sigq.length then .full
    else .ok (d.setEng e (Engine.addLive { x with
      sigq := x.sigq ++ [{ num, word := w, addr := biased w r.plc.bias, pc := x.pc }] } num .signal)) false
  | 0x0C =>
    if !(fnPoll w) && !(d.fenceBusy e num (fnScope w)) then .ok d true
    else .held (d.setEng e { x with
      hold := .fence num (fnScope w) (fnPoll w) (biased w r.plc.bias) (twValue w) (fnTimeout w) d.time false })
  | 0x0D => d.issueLockseq e w
  | _ => .error d errBadOp

/-! ### Decode -/

/-- The task word at the PC decodes: its label reaches EXIT targets (R182), then it is checked and issued. -/
def Dev.decodeNow (d : Dev) (e : Nat) : Dev :=
  let x := d.eng e
  match x.run with
  | none => d
  | some r =>
    let d := d.refill e
    let w := d.nextWord e
    let x := d.eng e
    let num := x.nextNum
    let x := if twLbl w then x.reach (twLabel w) else x
    let d := (d.logReserved (0x120 + e) x.pc 32).setEng e { x with
      cur := w, hold := .none, cfg := some (d.reg .ENG_CFG e) }
    -- A word read from reserved addresses is an error at its access (R129).
    if !usableRange x.pc 32 then d.taskError e errAddr (twOp w) x.pc
    else match d.twError e w r.plc.bias ((x.pc - r.plc.list) / 32) with
    | some c => d.taskError e c (twOp w) x.pc
    | none =>
      match d.issue e num w r with
      | .ok d complete => ((d.modEng e (fun x => { x with nextNum := num + 1 })).advance e complete).kickAll e
      | .held d => d.modEng e (fun x => { x with nextNum := num + 1 })
      | .full => d.modEng e (fun x => { x with hold := .queueFull })
      | .areaWait => d.modEng e (fun x => { x with hold := .areaWait })
      | .error d c => d.taskError e c (twOp w) x.pc

/-- Engine `e` decodes: a list runs, has not ended or failed, and nothing holds it. -/
def Engine.decoding (x : Engine) : Bool :=
  match x.run with
  | some r => !r.ended && r.fail.isNone
  | none => false

/-- A row of opcode `op`: the word at the PC decodes if it is of that opcode, or of one R127 does not list. -/
def Dev.taskRow (d : Dev) (e op : Nat) : Dev :=
  let x := d.eng e
  if x.decoding && x.hold = .none && (twOp (d.nextWord e) = op || 0x0D < twOp (d.nextWord e)) then d.decodeNow e else d

/-- DECODE_RESUME (R106, R114): the word that a full queue or a pending freeing stopped decodes again. -/
def Dev.decodeResume (d : Dev) (e : Nat) : Dev :=
  let x := d.eng e
  if x.decoding && (x.hold = .queueFull || x.hold = .areaWait) then d.decodeNow e else d

/-! ### Barriers -/

/-- WAITM_TIMEOUT (R160). -/
def Dev.waitmTimeout (d : Dev) (e : Nat) : Dev :=
  match (d.eng e).hold with
  | .waitm _ t s => if t = 0 || d.time < s + usTc t then d else d.taskError e errTimeout 0x0A (d.eng e).pc
  | _ => d

/-- LOCKSEQ_TIMEOUT (R166). -/
def Dev.lockTimeout (d : Dev) (e : Nat) : Dev :=
  match (d.eng e).hold with
  | .lock _ _ t s =>
    if t = 0 || d.time < s + usTc t then d else d.taskError e errTimeout 0x0D (d.eng e).pc
  | _ => d

/-- FENCE_TIMEOUT (R165). -/
def Dev.fenceTimeout (d : Dev) (e : Nat) : Dev :=
  match (d.eng e).hold with
  | .fence _ _ true _ _ t s false =>
    if t = 0 || d.time < s + usTc t then d else d.taskError e errTimeout 0x0C (d.eng e).pc
  | _ => d

/-- The poll of FENCE `num` has read `v`. A poll that has once read at least VALUE stays met (log entry 160). -/
def Dev.fenceRead (d : Dev) (e num v : Nat) : Dev :=
  match (d.eng e).hold with
  | .fence n s true a val t i m =>
    if n = num then d.modEng e (fun x => { x with hold := .fence n s true a val t i (m || decide (val ≤ v)) }) else d
  | _ => d

/-- FENCE_POLL (R165): one read of the word; that of another device goes over the peer link. -/
def Dev.fencePoll (d : Dev) (e : Nat) : Dev :=
  match (d.eng e).hold with
  | .fence n _ true a _ _ _ false =>
    if d.isLocal a then
      let l := globalLocal a
      if !usableRange l 8 then ((d.logReserved (0x120 + e) l 8).taskError e errAddr 0x0C (d.eng e).pc)
      else (d.hubAccess (0x120 + e) l 8 false).fenceRead e n (if d.poisoned l 8 then Config.openResult 0x10C [l] % 2 ^ 64 else d.rdLe l 8)
    else if d.peers.xfers.any (fun x => x.for_ = .fence e n) then d
    else d.sendXfer (0x120 + e) 1 a 8 [] (.fence e n) (fun d => d.taskError e errAddr 0x0C (d.eng e).pc)
  | _ => d

/-- A FENCE whose conditions hold lets decoding go on. -/
def Dev.fenceGo (d : Dev) (e : Nat) : Dev :=
  let x := d.eng e
  match x.hold with
  | .fence n s poll _ _ _ _ met => if (!poll || met) && !d.fenceBusy e n s then d.advance e true else d
  | _ => d

/-! ### SIGNAL (R162, R163) -/

/-- The SIGNAL at the head of the queue is done; with an event where its KIND raises one. -/
def Dev.signalDone (d : Dev) (e : Nat) (q : SigEntry) : Dev :=
  let w := q.word
  let d := if 2 ≤ sgKind w then
    d.eventMask (sgMask w) 3 (srcEngine e) [(2, sgCode w), (8, if sgKind w = 3 then twValue w else 0)] d.time
    else d
  (d.modEng e (fun x => { x with sigq := x.sigq.drop 1 })).endLive e q.num .signal

/-- A SIGNAL whose access fails: a task-word error ADDR, and the SIGNAL is gone (log entry 25). -/
def Dev.signalFails (d : Dev) (e : Nat) (q : SigEntry) : Dev :=
  ((d.taskError e errAddr 0x0B q.pc).modEng e (fun x => { x with sigq := x.sigq.filter (·.num != q.num) })).endLive
    e q.num .signal

/-- SIGNAL_EFFECT: the head of the queue, once every earlier task word is complete. -/
def Dev.signalEffect (d : Dev) (e : Nat) : Dev :=
  let x := d.eng e
  match x.sigq with
  | [] => d
  | q :: _ =>
    if x.live.any (·.1 < q.num) || d.peers.xfers.any (fun t => t.for_ = .signal e q.num) then d
    else if sgKind q.word = 2 then d.signalDone e q
    else
      let v := twValue q.word
      if d.isLocal q.addr then
        let a := globalLocal q.addr
        if !usableRange a 8 then (d.logReserved (0x120 + e) a 8).signalFails e q
        else
          (d.hubWrite (0x120 + e) a (leBytes 8 (if sgKind q.word = 0 then v else (d.rdLe a 8 + v) % 2 ^ 64))).signalDone
            e q
      else
        d.sendXfer (0x120 + e) (if sgKind q.word = 0 then 0 else 3) q.addr 8 (leBytes 8 v) (.signal e q.num)
          (fun d => d.signalFails e q)

/-! ### EXIT and ROUTE evaluation -/

/-- FP32 pattern `a` is at least `b`; a NaN never is. -/
def fp32Ge (a b : Nat) : Bool :=
  match fFP32.decode a, fFP32.decode b with
  | .nan, _ => false
  | _, .nan => false
  | x, y => match vCmp (.f x) (.f y) with
    | some c => 0 ≤ c
    | none => false

/-- A mask of the items below `n` that satisfy `f`. -/
def itemMask (n : Nat) (f : Nat → Bool) : BitVec 256 :=
  BitVec.ofNat 256 ((upTo n).foldl (fun m i => if f i then m + 2 ^ i else m) 0)

/-- EXIT_EVALUATION (R157, R182, R184). Of a list that has stopped meanwhile it writes its XMAP and no more (R132). -/
def Dev.exitEval (d : Dev) (e : Nat) : Dev :=
  let x := d.eng e
  match x.vecq with
  | q :: qs =>
    if q.kind != .exit then d
    else
      let runs : Bool := x.hold = .exitEval
      let w := q.word
      let n := exNitem w
      let cleared := itemMask n (fun i => x.mask.getLsbD i && fp32Ge (tget x.conf i 0) (exThr w))
      let mask := x.mask &&& ~~~cleared
      let d := d.setEng e { x with
        vecq := qs, hold := .none, mask := if runs then mask else BitVec.allOnes 256
        exits := if runs then x.exits ++ [{ target := exTarget w, cleared }] else x.exits }
      let d := if exXmap w = 0 then d else d.wrBytes (sramBase e + exXmap w) (leBytes 32 cleared.toNat)
      let d := d.endLive e q.num .vec
      if !runs then d
      else if (upTo n).any mask.getLsbD then d.advance e false
      else if twEnd w then d.taskError e errFlow 8 x.pc
      else d.goto e (exTarget w) (x.pc + 32) 8 x.pc
  | [] => d

/-- The first K valid entries of item `i`: expert and score (R155). -/
def Dev.routeRow (d : Dev) (e : Nat) (w : Tw) (i : Nat) : List (Nat × Nat) :=
  let b := d.sram e (rtScores w + 64 * i) 64
  ((((upTo 8).map (fun k => (getLe b (8 * k) 2, getLe b (8 * k + 4) 4))).filter
    (fun p => p.1 < rtNexp w && p.1 < 2 ^ 15)).take (rtK w))

/-- ROUTE_EVALUATION (R155): hits counted, sections in ascending expert number, else straight to JOIN. Of a list that has
stopped meanwhile it counts its hits and no more (R132). -/
def Dev.routeEval (d : Dev) (e : Nat) : Dev :=
  let x := d.eng e
  match x.vecq with
  | q :: qs =>
    if q.kind != .route then d
    else
      let runs : Bool := x.hold = .routeEval
      let w := q.word
      let rows := ((upTo (rtNitem w)).filter x.mask.getLsbD).map (fun i => (i, d.routeRow e w i))
      let picks (k : Nat) : Tbl Nat := rows.filterMap (fun r => (r.2.find? (·.1 = k)).map (fun p => (r.1, p.2)))
      let used := ((upTo (rtNexp w)).map (fun k => (k, picks k))).filter (fun p => p.2 != [])
      let tab (k : Nat) : Nat := sramBase e + rtEtab w + 8 * k
      let d := used.foldl (fun d p =>
        d.wrLe (tab p.1 + 4) 4 (min 0xFFFFFFFF (d.rdLe (tab p.1 + 4) 4 + p.2.length))) d
      let left := used.map (fun p => (d.rdLe (tab p.1) 2, itemMask 256 (fun i => (tfind p.2 i).isSome), p.2))
      let d := d.setEng e { x with
        vecq := qs, hold := .none, mask := if runs then x.mask else BitVec.allOnes 256
        route := if runs then some { mask := x.mask, join := rtJoin w, wout := rtWout w, left, from_ := x.pc + 32 }
          else none }
      let d := d.endLive e q.num .vec
      if !runs then d else if twEnd w then d.taskError e errFlow 7 x.pc else d.nextSection e
  | [] => d

/-! ### Residency (R187–R192) -/

def resF (r : BitVec 256) (byte lo len : Nat) : Nat := fld r.toNat (8 * byte + lo) len
def resSet (r : BitVec 256) (byte lo len v : Nat) : BitVec 256 := BitVec.ofNat 256 (setFld r.toNat (8 * byte + lo) len v)
def resValid (r : BitVec 256) : Bool := resF r 4 0 1 = 1
def resResident (r : BitVec 256) : Bool := resF r 4 3 1 = 1
def resScore (r : BitVec 256) : Nat := resF r 24 0 32

/-- Scores of engine `e` updated (R190). -/
def Dev.scoreAll (d : Dev) (e : Nat) : Dev :=
  d.res.foldl (fun d p =>
    let r := p.2
    if resValid r && resF r 5 0 5 = e then
      let a := sramBase e + resF r 20 0 32 + 4
      let h := d.rdLe a 4
      let s := min 0xFFFFFFFF (resScore r / 2 + h)
      let d := d.wrLe a 4 0
      { d with res := tset d.res p.1 (resSet (resSet r 28 0 32 h) 24 0 32 s) }
    else d) d

/-- No list placed on `e` has a start Milestone within `gap` Tc of now (R189). -/
def Dev.usableBoundary (d : Dev) (e gap : Nat) : Bool :=
  (d.eng e).placed.all (fun p => match p.start, p.anchor with
    | some _, some t => t + gap < d.time
    | some n, none => match d.nextFiring (d.msActive n) d.time with
      | some t => d.time + gap < t
      | none => true
    | none, _ => true)

/-- Candidate of slot `s` of engine `e`, if it is promoted (R191). -/
def Dev.promotion (d : Dev) (e s : Nat) : Option Nat :=
  let mine := d.res.filter (fun p => resValid p.2 && resF p.2 5 0 5 = e && resF p.2 5 5 2 = s)
  let cand := mine.filter (fun p => resF p.2 4 2 1 = 0 && !resResident p.2)
  let best := cand.foldl (fun (b : Option (Nat × BitVec 256)) p => match b with
    | none => some p
    | some q => if resScore q.2 < resScore p.2 then some p else b) none
  match best, mine.find? (fun p => resResident p.2) with
  | none, _ => none
  | some c, none => if 0 < resScore c.2 then some c.1 else none
  | some c, some h =>
    if resF h.2 4 1 1 = 0 && 5 * resScore h.2 + 64 ≤ 4 * resScore c.2 then some c.1 else none

/-- The ETAB label of entry `i` set, and its RESIDENT bit (R192). -/
def Dev.setResident (d : Dev) (e i : Nat) (on : Bool) : Dev :=
  let r := tget d.res i 0#256
  let d := d.wrLe (sramBase e + resF r 20 0 32) 2 (resF r (if on then 16 else 18) 0 16)
  { d with res := tset d.res i (resSet r 4 3 1 (b2n on)) }

/-- The LOADW the CP's own list runs for one image: all 64 rows of a real set, DW and PLANES as the
configuration leaves open. -/
def promoWord (i k t : Nat) : Tw :=
  let (f, dw, pl) := Config.promoLoad i
  BitVec.ofNat 256 (1 + 2 ^ (32 + t) + f % 4 * 2 ^ 40 + dw % 4 * 2 ^ 44 + 63 * 2 ^ 56
    + (pl % 480 * 16384 + 16384 * k) * 2 ^ 128)

/-- One image of entry `i` loaded into tile `t` by a LOADW of the CP's own list (R192): its shadow, offsets and set
change, and the tile takes all rows. A weight out of range stops that list with WRANGE (R72, R132): the address of its task
word is open (log entry 164). -/
def Dev.promoImage (d : Dev) (e i k t : Nat) : Dev :=
  let w := promoWord i k t
  let base := resF (tget d.res i 0#256) 8 0 64 + 64 * ldRowBytes w * k
  if (d.eng e).promoFail then d else
  let (bs, d) := d.hubRead 0x145 (globalLocal base) (64 * ldRowBytes w)
  let src := (upTo 64).map (fun r => (r, weightElems (ldFmt w) (slice bs (r * ldRowBytes w) (ldRowBytes w))))
  if src.any (fun r => r.2.any (fun x => !weightOk w x)) then
    let (n, d) := d.fresh
    (d.modEng e (fun x => { x with promoFail := true, st := .error })).logNow (srcEngine e) 0x0401
      [(1, errWrange), (1, 1), (8, Config.freeNat n % 2 ^ 41)]
  else
    let d := d.bump .ENG_CNT_TW e
    let num := (d.eng e).nextNum
    let set : WSet := {
      num, complex := false, dw := ldDw w, spread := false, tmask := 2 ^ t
      planes := if ldUsesPlanes w then some (ldPlanes w) else none, sparse := none }
    let d := if ldUsesPlanes w then d.writePlanes e w src else d
    (((d.modEng e (fun x => { x with nextNum := num + 1 })).modSlot e t (fun s =>
      { s.take (formRows w src 0 (ldDw w - 1)) with
        held := (0, ldDw w - 1), stale := true, wset := some set }))).kick e t

/-- Tiles of a resident slot, ascending. -/
def Dev.slotTiles (d : Dev) (e s : Nat) : List Nat :=
  (upTo 4).filter (bit (tget (d.eng e).rslots s { tmask := 0, gapUs := 5 }).tmask)

/-- A promotion begins (R192): the holder is demoted, then the images load. -/
def Dev.promote (d : Dev) (e s i : Nat) : Dev :=
  let r := tget d.res i 0#256
  let d := match d.res.find? (fun p =>
      resValid p.2 && resF p.2 5 0 5 = e && resF p.2 5 5 2 = s && resResident p.2) with
    | some h => d.setResident e h.1 false
    | none => d
  let d := (((d.slotTiles e s).take (resF r 6 0 8)).mapIdx (fun k t => (k, t))).foldl
    (fun d p => d.promoImage e i p.1 p.2) (d.modEng e (fun x => { x with promoFail := false }))
  -- What else the CP's list holds, END included, is open.
  (if (d.eng e).promoFail then d else d.bump .ENG_CNT_TW e 0 (Config.promoWords i)).modEng e
    (fun x => { x with promo := some i })

/-- A promotion whose tiles have taken their images, or hold them in shadow for a tile that cannot, is complete; the
candidate is resident unless the CP's list failed (R192). -/
def Dev.promoFinish (d : Dev) (e : Nat) : Dev :=
  let x := d.eng e
  match x.promo with
  | none => d
  | some i =>
    let ts := d.slotTiles e (resF (tget d.res i 0#256) 5 5 2)
    if ts.any (fun t => (x.slot t).reload.isSome) then d
    else
      let d := d.setEng e { x with promo := none, lastEnd := d.time }
      if x.promoFail then d else d.setResident e i true

/-- The roadworks boundary at the end of a list, if it is one (R189–R191). -/
def Dev.residency (d : Dev) (e : Nat) : Dev :=
  let x := d.eng e
  if !x.rdwkSeen then d
  else
    let d := (d.setEng e { x with rdwkSeen := false }).scoreAll e
    let choice := x.rslots.findSome? (fun s =>
      if d.usableBoundary e (usTc s.2.gapUs) then (d.promotion e s.1).map (fun i => (s.1, i)) else none)
    match choice with
    | some (s, i) => (d.promote e s i).promoFinish e
    | none => d

/-! ### Lists -/

/-- The anchor of a placement (R249): DSKIP and the validity of its deadline entry as they stand now; an entry
not valid is logged. -/
def Dev.anchorAt (d : Dev) (e : Nat) (p : Placement) (t : Nat) : Placement × Dev :=
  match p.deadline with
  | none => ({ p with anchor := some t }, d)
  | some n =>
    let m := d.entryAt n t
    if MsEntry.valid m then
      ({ p with anchor := some t, dleft := MsEntry.dskip m + 1, dfrom := t, dvalid := true }, d)
    else ({ p with anchor := some t }, d.logNow (srcEngine e) 0x0104 [(2, p.placeId)])

/-- LIST_START (R135, R258): the first placement, once anchored, on an engine whose previous list has ended. -/
def Dev.listStart (d : Dev) (e : Nat) : Dev :=
  let x := d.eng e
  if x.run.isSome || x.promo.isSome || !(x.st = .idle || x.st = .error || x.st = .running) then d
  else
    match x.placed with
    | p :: ps =>
      match p.anchor with
      | some a =>
        (d.setEng e { x with
          st := .running, placed := ps, pc := p.list, fetched := [], mask := BitVec.allOnes 256, conf := [], hold := .none
          exits := [], route := none, inSection := false, work := [], armedBy := []
          run := some { plc := p, startTs := max a x.lastEnd
                        released := (p.released.filter (fun r => max a x.lastEnd ≤ r.2)).map (·.1) } }).reclass e
      | none => d
    | [] => d

/-- The LIST_DONE and LIST_DONE2 entries of a run that ends now (R136, R430). -/
def Dev.listDone (d : Dev) (e : Nat) (r : Run) (late : Bool) : List Event :=
  let dl := (d.deadlineOf r.plc).getD (2 ^ 64 - 1)
  let (code, _, addr) := r.fail.getD (0, 0, 0)
  [{ ts := d.time, typ := 1, source := srcEngine e, data := padTo 16 (pack [(8, r.startTs), (8, dl)]) },
   { ts := d.time, typ := 2, source := srcEngine e
     data := padTo 16 (pack [(8, addr), (1, code), (1, b2n late), (2, r.plc.placeId)]) }]

/-- The engine's state after run `r`: ERROR where it stopped on a task-word error, which is logged now (R132). -/
def Dev.endState (d : Dev) (e : Nat) (r : Run) : Dev :=
  match r.fail with
  | some (code, op, addr) =>
    if code = statCancelled then d.modEng e (fun x => { x with st := if x.st = .running then .idle else x.st })
    else (d.modEng e (fun x => { x with st := if x.st = .running then .error else x.st })).logNow (srcEngine e) 0x0401
      [(1, code), (1, op), (8, addr)]
  | none => d.modEng e (fun x => { x with st := if x.st = .running then .idle else x.st })

/-- LIST_END (R132, R136): the list's work is complete; areas are freed, sequences close, an error is shown and logged,
the class is judged again, and residency may change. -/
def Dev.listEnd (d : Dev) (e : Nat) : Dev :=
  let x := d.eng e
  match x.run with
  | none => d
  | some r =>
    if !(r.ended || r.fail.isSome) || x.hold != .none || x.live != [] then d
    else
      let late := d.isLate e
      let d := d.endState e r
      let d := d.place r.plc.mbx (d.listDone e r late)
      let d := if late then d.bump .TL_CNT_LLIST e else d
      let d := d.modEng e (fun x => { x with
        run := none, areas := [], exits := [], route := none
        inSection := false, mask := BitVec.allOnes 256, work := [], armedBy := [], lastEnd := d.time })
      (((d.closeLocks e).reclass e).residency e)

/-- A running list is stopped as R132 does, with CANCELLED (LIST_CANCEL MODE 1, R426, R460). -/
def Dev.cancelRun (d : Dev) (e : Nat) : Dev :=
  let x := d.eng e
  match x.run with
  | some r => if r.fail.isSome then d else d.stopRun e { r with fail := some (statCancelled, 0, 0) }
  | none => d

/-- A double-bit error at engine SRAM offset `off` (R460): the list is cancelled, the 64-byte line zeroed. -/
def Dev.sramUe (d : Dev) (e off : Nat) : Dev :=
  ((d.cancelRun e).wrZero (sramBase e + off / 64 * 64) 64).logNow (srcEngine e) 0x0204 [(4, off)]

/-! ### Reloads (R39) -/

/-- The settle time of a reload of `n` rows has passed since `t0` (R39): 0.5 ns a row and 1.0 ns. -/
def reloadDue (n t0 now : Nat) : Bool := n * 15360 + 30720 ≤ (now - t0) * 15625

/-- RELOAD_COMPLETE, at the settle time: shadow, offsets and trim of the rows change, the previous trim goes to the lock
engine's record, a reload the task word made sets the gains again (R50), and the tile goes on. -/
def Dev.reloadComplete (d : Dev) (e t : Nat) : Dev :=
  let s := d.slot e t
  match s.reload with
  | none => d
  | some r =>
    if !reloadDue r.rows.length r.t0 d.aon then d else
    let p := d.phys (ltile e t)
    let d := d.modPt p (fun x => { x with trimHist := x.trimHist ++ [(d.time, x.lev)] })
    let d := (d.takeRows e t p r.rows).bump .TILE_CNT_RELOAD e t
    let held := match r.kind with
      | .loadw n => (((d.eng e).issueq.find? (fun o => o.num = n && o.slot = t)).map loadDigit).getD s.held
      | .digit c p => (c, p)
      | .ret => s.held
    let d := d.modSlot e t (fun s => { s with reload := none, held })
    let d := match r.kind with
      | .loadw n => d.popOp e n t
      | .digit _ _ => match (d.eng e).current t with
        | some o => if o.begun then d.modSlot e t (·.setGains o) else d
        | none => d
      | .ret => d
    (d.kickAll e).promoFinish e

/-- TILE_WAIT_EXPIRY (R117): the operation has waited TILE_WAIT for its tile in the state the tile is in, or on a forced gap that
has lasted beyond 2.0004 µs (R346). -/
def Dev.tileWaitExpiry (d : Dev) (e t : Nat) : Dev :=
  match (d.eng e).current t with
  | some o =>
    match o.waitFrom, d.tileWait e with
    | some (st, s), some w =>
      if s + w ≤ d.time && (d.slot e t).st = st && (st != .idle || d.inForced (e / 8) (detourTc + 1)) then
        (d.redirectOp e o).kick e t
      else d
    | _, _ => d
  | none => d

end Sys2Proof.Machine
end

