-- ==== Sys2Proof/Machine/Roadworks.lean ====
section
/-!
DEFINITION. Roadworks (R350–R357, R119, R24): firings, switches and takeovers, the preparation of the spare, and the
calibration of the freed tile.
-/
namespace Sys2Proof.Machine

/-! ### Configuration and lookups -/

/-- DEV_RDWK_CFG and DEV_RDWK_WIN in force (R360). -/
def Dev.rdwkCfg (d : Dev) (rg : Nat) : Nat := match (d.rgn rg).cfg with
  | some c => c.1
  | none => RegName.DEV_RDWK_CFG.row.reset
def Dev.rdwkWin (d : Dev) (rg : Nat) : Nat := match (d.rgn rg).cfg with
  | some c => c.2
  | none => RegName.DEV_RDWK_WIN.row.reset
def Dev.rdwkMode (d : Dev) (rg : Nat) : Nat := fld (d.rdwkCfg rg) 0 2

/-- The written configuration takes effect. -/
def Dev.rdwkLatch (d : Dev) (rg : Nat) : Dev :=
  d.setRgn rg { d.rgn rg with cfg := some (d.reg .DEV_RDWK_CFG rg, d.reg .DEV_RDWK_WIN rg) }

/-- A logical tile takes no part in the rotation (R352). -/
def TileState.passedOver (s : TileState) : Bool :=
  s = .off || s = .shutdown || s = .shutdownRestart || s = .unbound || s = .replacing

def Dev.ltSlot (d : Dev) (lt : Nat) : Slot := d.slot (lt / 4) (lt % 4)

/-- NEXT (R352), if the region has a logical tile to move. -/
def Dev.nextTile (d : Dev) (rg : Nat) : Option Nat :=
  ((upTo 16).map (fun i => 16 * rg + ((d.rgn rg).next + i) % 16)).find? (fun lt => !(d.ltSlot lt).st.passedOver)

/-- NEXT steps over the logical tiles that are passed over to the one that a firing would move (R352). -/
def Dev.stepNext (d : Dev) (rg : Nat) : Dev :=
  d.setRgn rg (match d.nextTile rg with
    | some lt => { d.rgn rg with next := lt % 16, noNext := false }
    | none => { d.rgn rg with noNext := true })

/-- The logical tile that waits for the spare: a REPLACING one (R24), else an UNBOUND one (R464). -/
def Dev.waitingTile (d : Dev) (rg : Nat) : Option Nat :=
  let lts := (upTo 16).map (16 * rg + ·)
  match lts.find? (fun lt => (d.ltSlot lt).st = .replacing) with
  | some lt => some lt
  | none => lts.find? (fun lt => (d.ltSlot lt).st = .unbound)

/-! ### Firings -/

/-- A switch or takeover begins (R119 step 1, R24), which needs the spare: a test on it ends (R305). -/
def Dev.startSwap (d : Dev) (rg lt : Nat) (takeover : Bool) (inst winlen : Nat) : Dev :=
  let e := lt / 4
  let t := lt % 4
  let sp := d.spare rg
  let w : Swap := { lt, old := d.phys lt, new := sp, takeover, inst, began := d.time, loading := takeover, stepAt := d.aon }
  let d := (d.setRgn rg { d.rgn rg with swap := some w, winEnd := inst + winlen, held := none }).endTest sp
  -- The load takes the shadow as it stands now; a LOADW after it leaves the tile to take all rows again (R117).
  if takeover then d.modSlot e t (fun s => { s with stale := false })
  else ((d.modSlot e t (fun s => { s with st := .swapping })).kick e t).quietCheck e t

/-- A firing is skipped (R354). -/
def Dev.skipFiring (d : Dev) (rg inst : Nat) : Dev :=
  let n := (d.nextTile rg).getD 0xFF
  let d := (d.bumpFld .DEV_RDWK_CNT 8 8 rg).logNow (srcRegion rg) 0x0505 [(1, 0), (1, n)]
  d.publish 0xA (srcRegion rg) [(1, 1), (1, n), (1, 0xFF), (1, 0xFF)] inst

/-- What a firing does once light is there (R24, R354, R464). -/
def Dev.fireNow (d : Dev) (rg winlen inst : Nat) : Dev :=
  let r := d.rgn rg
  let sp := d.spare rg
  match d.waitingTile rg with
  | some lt =>
    let prepared := if (d.ltSlot lt).st = .replacing then r.ready && r.prep = some lt else sp != 0xFF && (d.pt sp).up
    if sp != 0xFF && prepared && r.cal.isNone && r.swap.isNone then d.startSwap rg lt true inst winlen
    else d.skipFiring rg inst
  | none =>
    match d.nextTile rg with
    | some lt =>
      if sp != 0xFF && r.cal.isNone && r.swap.isNone && r.ready && r.prep = some lt then
        d.startSwap rg lt false inst winlen
      else d.skipFiring rg inst
    | none => d.skipFiring rg inst

/-- A roadworks firing of region `rg` (R239, R349, R350). One that falls in a gap keeps its instant: its switch begins at the
gap's close, in the window that the firing opened (R248, R349). -/
def Dev.rdwkFiring (d : Dev) (rg winlen inst : Nat) : Dev :=
  if (d.stk (rg / 2)).dark || !bit d.cp.regions rg then d
  else
    let d := (upTo 4).foldl (fun d k => d.modEng (4 * rg + k) (fun x => { x with rdwkSeen := true })) d
    let d := d.stepNext rg
    if d.inGap (rg / 2) then d.setRgn rg { d.rgn rg with held := some (inst, winlen) }
    else d.fireNow rg winlen inst

/-- A ROADWORKS firing of the table: heeded in MODE MILESTONE (R350). -/
def Dev.rdwkMilestone (d : Dev) (rg winlen inst : Nat) : Dev :=
  if d.rdwkMode rg = 1 then
    let d := d.rdwkLatch rg
    if d.rdwkMode rg = 1 then d.rdwkFiring rg winlen inst else d
  else d

/-- The interval I of a region's internal firings (R350); ROT acts as at least what DEV_RDWK_WIN + LEAD need. -/
def Dev.rdwkInterval (d : Dev) (rg : Nat) : Nat :=
  let need := max 115 (fld (d.rdwkWin rg) 0 16) + fld (d.rdwkCfg rg) 24 8
  max (fld (d.rdwkCfg rg) 8 16) ((17 * need + 99) / 100) * 196608000 / 17

/-- The latest internal roadworks firing of region `rg` in (a, b] (R350). -/
def Dev.rdwkDue (d : Dev) (rg a b : Nat) : Option Nat :=
  let i : Int := d.rdwkInterval rg
  let ph : Int := rg * (i / 8)
  let t := ((b : Int) - ph) / i * i + ph
  if (a : Int) < t then some t.toNat else none

/-- An internal firing of instant `inst` (R350); rotation starts at device ready. -/
def Dev.rdwkAuto (d : Dev) (rg inst : Nat) : Dev :=
  if d.rdwkMode rg = 0 && d.cp.device then
    let d := d.setRgn rg { (d.rdwkLatch rg).rgn rg with fired := inst }
    if d.rdwkMode rg = 0 then d.rdwkFiring rg (max 115 (fld (d.rdwkWin rg) 0 16) * 1966080) inst else d
  else d

/-- ROADWORKS_AUTO_FIRING: the internal firing whose instant the last clock cycle reached (R225, R350), however many Tc a slew
gave that cycle (R233). -/
def Dev.rdwkAutoRow (d : Dev) (rg : Nat) : Dev :=
  match d.rdwkDue rg (max (d.rgn rg).fired d.tl.before) d.time with
  | some t => d.rdwkAuto rg t
  | none => d

/-- With MODE = OFF no firing comes: a takeover begins as soon as the spare is prepared (R24). -/
def Dev.offTakeover (d : Dev) (rg : Nat) : Dev :=
  let r := d.rgn rg
  let sp := d.spare rg
  if d.rdwkMode rg = 2 && sp != 0xFF && r.cal.isNone && r.swap.isNone && (d.pt sp).up && !d.inGap (rg / 2) then
    match d.waitingTile rg with
    | some lt => if (d.ltSlot lt).st = .unbound || (r.ready && r.prep = some lt) then d.startSwap rg lt true d.time 0 else d
    | none => d
  else d

/-! ### Preparing the spare (R353) -/

/-- The tile whose role the spare is to take. -/
def Dev.roleTile (d : Dev) (rg : Nat) : Option Nat :=
  match d.waitingTile rg with
  | some lt => some lt
  | none => d.nextTile rg

/-- The last estimates of some ring lie beyond LOCK_FE.LIMIT. -/
def PTile.beyondLimit (x : PTile) : Bool :=
  let limit : Int := (8 * x.cf 1 8 12 : Nat)
  x.err.any (fun e => limit < e.2 || e.2 < -limit)

/-- The spare is prepared: soft-start complete, every ring with an estimate and within LIMIT (no estimates are made under a
legacy table, R307), warm-up duty reached. -/
def Dev.spareReady (d : Dev) (rg : Nat) : Bool :=
  let sp := d.spare rg
  let x := d.pt sp
  sp != 0xFF && x.up && !x.ramping && (x.err.length = 4160 || x.lock = .legacy) && !x.beyondLimit
    && (match x.warm with | some a => decide (a ≤ x.actPrev) | none => true)

/-- Readiness is judged again while the spare is being prepared, and lost when a ring leaves LIMIT; with MODE = OFF a takeover
that has become possible begins (R24). -/
def Dev.judgeSpare (d : Dev) (rg : Nat) : Dev :=
  let r := d.rgn rg
  let ready := if r.ready then !(d.pt (d.spare rg)).beyondLimit else d.spareReady rg
  (if r.preparing && ready != r.ready then d.setRgn rg { r with ready } else d).offTakeover rg

/-- A Milestone firing of region `rg` is expected in (a, b] from entry `n`, as the active bank stands or, from its instant
on, as a commit under way will leave it (R353). -/
def Dev.rdwkEntryDue (d : Dev) (rg a b n : Nat) : Bool :=
  let due (m : MsEntry) (a b : Nat) : Bool :=
    bit (MsEntry.actions m) 2 && bit (MsEntry.rgmask m) rg && (d.latestFiring m a b).isSome
  match d.comingEntry n with
  | none => due (d.msActive n) a b
  | some (m, t) => due (d.msActive n) a (min b (t - 1)) || due m (max a (t - 1)) b

/-- LEAD ms before the firing the CP expects the spare's preparation begins (R353); a logical tile that waits for the
spare has it prepared at once (R24). -/
def Dev.prepareDue (d : Dev) (rg : Nat) : Bool :=
  let lead := fld (d.rdwkCfg rg) 24 8 * 1966080
  (d.waitingTile rg).isSome || match d.rdwkMode rg with
    | 0 => (d.rdwkDue rg d.time (d.time + lead)).isSome
    | 1 => (d.ms.active.map (·.1) ++ d.ms.shadow.map (·.1)).any (d.rdwkEntryDue rg d.time (d.time + lead))
    | _ => false

/-- SPARE_PREPARE (R353, R24): preparation begins for the tile whose role the spare is to take, anew where that tile has
changed, or is judged once it has begun. The warm-up duty is the working tile's in its last window, or the last one of a logical tile that
waits for the spare (log entry 203). -/
def Dev.sparePrepare (d : Dev) (rg : Nat) : Dev :=
  let sp := d.spare rg
  if sp = 0xFF || (d.rgn rg).cal.isSome || (d.rgn rg).swap.isSome || !(d.pt sp).up then d
  else
    let d := d.stepNext rg
    let r := d.rgn rg
    match d.roleTile rg with
    | none => d
    | some lt =>
      if r.preparing && r.prep = some lt then d.judgeSpare rg
      else if !d.prepareDue rg then d
      else
        let old := d.phys lt
        let duty := if old = 0xFF then tget r.lastDuty lt 0 else (d.pt old).duty / 64
        let d := (d.softStart sp).setRgn rg { r with preparing := true, ready := false, prep := some lt }
        d.modPt sp (fun x => { x with warm := some duty })

/-! ### The switch (R119, R120, R121) -/

/-- A tile whose last conversion is done ends its quiet period (R91). -/
def Dev.endQuiet (d : Dev) (p : Nat) : Dev :=
  d.modPt p (fun x => if x.quietFrom.isSome then { x with quietStop := true } else x)

/-- ROADWORKS_DRAIN_END: what was under way on the old tile has completed; the spare loads. -/
def Dev.drainEnd (d : Dev) (rg : Nat) : Dev :=
  let r := d.rgn rg
  match r.swap with
  | some w =>
    if w.loading || d.inGap (rg / 2) || !(d.ltSlot w.lt).quietAll then d
    else ((d.endQuiet w.old).setRgn rg { r with swap := some { w with loading := true, stepAt := d.aon } }).modSlot
      (w.lt / 4) (w.lt % 4) (fun s => { s with stale := false })
  | none => d

/-- SWAP_LOAD_DONE, 33 ns after the drain: the new tile has taken all rows from the shadow, and the map changes (R23). -/
def Dev.swapLoaded (d : Dev) (rg : Nat) : Dev :=
  let r := d.rgn rg
  match r.swap with
  | some w =>
    if !w.loading || w.updated || !reloadDue 64 w.stepAt d.aon then d
    else
      let d := d.modPt w.new (fun x => { x with trimHist := x.trimHist ++ [(d.time, x.lev)] })
      let d := d.applyTrim w.new (Levels.all (d.ltSlot w.lt).shadow)
      let gone := w.old = 0xFF || (d.pt w.old).lock = .faulted
      let d := (d.mapUpdate [(w.lt, w.new)] [(rg, if gone then 0xFF else w.old)]).bindCfg w.new
      let d := if gone then d else d.takeCfg w.old
      let d := (d.modPt w.new (fun x => { x with warm := none })).endTest w.new
      let d := d.setRgn rg { (d.rgn rg).unprepared with
        swap := some { w with updated := true, stepAt := d.aon }, lastDuty := tdrop (d.rgn rg).lastDuty w.lt }
      -- The load is a full reload of the logical tile (R119 step 3, R139).
      let d := d.bump .TILE_CNT_RELOAD (w.lt / 4) (w.lt % 4)
      if w.takeover then d.noSpareDue rg else d
  | none => d

/-- 1.5 GHz cycles of a number of Tc, begun ones counted. -/
def cyclesOf (tc : Nat) : Nat := (tc * 100000 + 131071) / 131072

/-- Time that the operations on slot `t` have waited since the switch began, in cycles: each from its issue at the
earliest (R119; log entry 61). -/
def Dev.swapWaits (d : Dev) (e t began : Nat) : Nat :=
  (((d.eng e).issueq.filter (fun o => o.slot = t && !o.ended)).map
    (fun o => cyclesOf (d.time - max began o.issued))).foldl (· + ·) 0

/-- SWAP_COMPLETE, 7 ns after the load: the logical tile returns to service and the freed tile goes to calibration. The
RDWK_SWITCH entry bears the time of this completion (log entry 154). -/
def Dev.swapDone (d : Dev) (rg : Nat) : Dev :=
  match (d.rgn rg).swap with
  | some w =>
    if !w.updated || (d.aon - w.stepAt) * 15625 < 7 * 30720 then d
    else
      let e := w.lt / 4
      let t := w.lt % 4
      let freed := if w.takeover || d.spare rg = 0xFF then none else some w.old
      let d := d.setRgn rg { (d.rgn rg).unprepared with
        swap := none, cal := freed, calInst := w.inst, step := if freed.isSome then 2 else 0
        results := [], curves := []
        next := if w.takeover then (d.rgn rg).next else (w.lt - 16 * rg + 1) % 16 }
      let d := d.stepNext rg
      let d := if w.takeover then d else d.bump .ENG_CNT_SWAPWAIT e 0 (d.swapWaits e t w.began)
      let d := d.bumpFld .DEV_RDWK_CNT 16 16 rg
      let d := d.logNow (srcRegion rg) 0x0504 [(1, w.lt), (1, w.old), (1, w.new)]
      let d := d.publish 0xA (srcRegion rg) [(1, 0), (1, w.lt), (1, w.old), (1, w.new)] w.inst
      -- A quiet task word asks the new tile before its next conversion (R121).
      let d := d.modEng e (fun x => { x with issueq := x.issueq.map (fun o =>
        if o.slot = t && !o.ended then { o with quiet := none } else o) })
      -- A part that runs without quiet after the switch is counted anew (R124).
      let d := d.modEng e (fun x => { x with work := x.work.map (fun w =>
        if x.issueq.any (fun o => o.num = w.1 && o.slot = t && !o.ended) then
          (w.1, { w.2 with denied := false }) else w) })
      let st := (d.slot e t).st
      if d.phys w.lt = w.new
          && (st = TileState.swapping || st = TileState.replacing || st = TileState.unbound) then
        let d := d.modSlot e t (fun s => { s with st := (d.pt w.new).tileState })
        d.kick e t
      else d
  | none => d

/-! ### Calibration (R355, R356) -/

/-- The identity checks of a calibration begin, while the tile is locked (R355 step 6). -/
def Dev.calChecks (d : Dev) (p : Nat) : Dev :=
  if (d.pt p).up && (d.pt p).acq.phase = 0 then
    (d.modPt p (fun x => { x with acq := { phase := 3, full := false } })).checkAll p 2
  else d

/-- Results that a step measures, by the keys of `Dev.cal` (R355): column zeros; MBIAS and the modulators; the response table
and G; hcal, tc, ka and HEFF. -/
def calKeyOk (step k : Nat) : Bool :=
  if step = 2 then 20000 ≤ k && k < 20256
  else if step = 3 then (5100 ≤ k && k < 5164) || k = 5200 || k = 5201 || (5300 ≤ k && k < 5364)
  else if step = 4 then k = 5003 || (5010 ≤ k && k ≤ 5040)
  else if step = 5 then k < 4160 || (5000 ≤ k && k ≤ 5002) || (6000 ≤ k && k < 10160)
  else false

/-- Curves that a step measures: the modulators' in step 3, the weight curve in step 4 (R355). -/
def calCurveOk (step k : Nat) : Bool := (step = 3 && k < 64) || (step = 4 && k = 64)

/-- What steps 2 to 5 use beside the tile (R355): codes on the region's CP-owned AUX channels, a CP trigger of converter A, and
calibration traffic on its way to DRAM (R257, R265; log entry 207). -/
def Dev.calEquipment (d : Dev) (rg step : Nat) : Dev :=
  if step < 2 || 5 < step then d
  else
    let d := (upTo 6).foldl (fun (d : Dev) ch => d.setReg .DAC_AUX_CODE (Config.calAux rg step ch % 65536) rg ch) d
    (d.madcTrigger rg 0 4).present (16 + bankOf (Config.calAddr rg step)) 0x148 none

/-- CALIBRATION_STEP: the step in progress ends with what it measured; while light is lacking it is repeated (R349). A
measured curve that does not meet R75 is not taken. Step 6
is the lock engine's identity checks with their recovery, and ends once they have confirmed every ring's line. -/
def Dev.calStep (d : Dev) (rg : Nat) (ok : Bool) (vals : List (Nat × Int)) (curves : List (Nat × List (Int × Int))) : Dev :=
  let r := d.rgn rg
  match r.cal with
  | some p =>
    if r.step < 2 || 6 < r.step || d.inGap (rg / 2) then d
    else if !ok then d.faultTile p 5
    else if r.step = 6 && (d.pt p).acq.phase != 6 then
      d.calChecks p
    else
      let d := d.setRgn rg { r with
        step := r.step + 1
        results := vals.foldl (fun m v => if calKeyOk r.step v.1 then tset m v.1 v.2 else m) r.results
        curves := curves.foldl (fun m c =>
          if calCurveOk r.step c.1 && curvePointsOk (c.1 = 64) c.2 then tset m c.1 c.2 else m) r.curves }
      let d := d.calEquipment rg r.step
      if r.step = 5 then d.calChecks p
      else if r.step = 6 then d.modPt p (fun x => { x with acq := {} }) else d
  | none => d

/-- Points of a curve image (R74). -/
def imagePoints (b : List Byte) : List (Int × Int) :=
  (upTo (min 32 (getLe b 2 2))).map (fun k => (sx 16 (getLe b (8 + 4 * k) 2), sx 16 (getLe b (10 + 4 * k) 2)))

/-- An image is installed on a physical tile (R77, R290, R427). -/
def PTile.install (x : PTile) (typ index : Nat) (bytes : List Byte) : PTile :=
  if typ = 1 then { x with curves := tset x.curves 64 (imagePoints bytes), tcals := tset x.tcals 64 (sx 16 (getLe bytes 4 2)) }
  else if typ = 2 then
    { x with curves := tset x.curves index (imagePoints bytes), tcals := tset x.tcals index (sx 16 (getLe bytes 4 2)) }
  else if typ = 3 then { x with gains := tset x.gains index bytes }
  else { x with ltab := (upTo 66560).map (fun k => (k, getLe bytes (8 + 2 * k) 2 % 4096)) }

/-- A staged image is installed at the end of the calibration, with its log entry and event. -/
def Dev.installStaged (d : Dev) (p : Nat) (g : Staged) : Dev :=
  ((d.modPt p (fun x => x.install g.typ g.index g.bytes)).logNow (srcPtile p) 0x0506 [(1, g.typ)]).asyncDone
    g.mbx g.opcode g.seq stOk

/-- CALIBRATION_COMPLETE: results are written, staged images and the lock mode installed; the tile is the spare. -/
def Dev.calComplete (d : Dev) (rg : Nat) : Dev :=
  let r := d.rgn rg
  match r.cal with
  | some p =>
    if r.step != 7 then d
    else
      let x := d.pt p
      let results := r.results.filter (fun v => !(5100 ≤ v.1 && v.1 < 5164))
      let bias := r.results.filter (fun v => 5100 ≤ v.1 && v.1 < 5164)
      let d := d.setPt p { x with
        cal := results.foldl (fun m v => tset m v.1 v.2) x.cal
        mbias := bias.foldl (fun m v => tset m (v.1 - 5100) (clampInt (-512) 511 v.2)) x.mbias
        curves := r.curves.foldl (fun m c => tset m c.1 c.2) x.curves
        tcals := r.curves.foldl (fun m c => tset m c.1 (tget (r.results) 5002 0)) x.tcals
        staged := [] }
      let d := x.staged.foldl (fun d g => d.installStaged p g) d
      -- The new lock mode is entered by soft-start (R308).
      let d := match x.modeNext with
        | some m =>
          if m != x.legacy then
            (d.softStart p).modPt p (fun y => { y with
              legacy := m, modeNext := none
              lock := if y.lock = LockState.locked || y.lock = LockState.legacy then
                (if m then LockState.legacy else LockState.locked) else y.lock })
          else d.modPt p (fun y => { y with modeNext := none })
        | none => d
      let d := d.setRgn rg { d.rgn rg with cal := none, step := 0, results := [], curves := [] }
      let d := d.publish 0xA (srcRegion rg) [(1, 3), (1, 0xFF), (1, p), (1, p)] r.calInst
      d.offTakeover rg
  | none => d

end Sys2Proof.Machine
end

