-- ==== Sys2Proof/Machine/Enable.lean ====
section
/-!
DEFINITION. Shutdown and re-enable of engines and tiles (R358, R359, R312, R313).
-/
namespace Sys2Proof.Machine

/-- The jobs of ENABLE commands for a block, disables or enables (R424). -/
def enableJob (kind idx : Nat) (on : Bool) (j : Job) : Bool :=
  j.opcode = 0x0103 && !j.v1 && j.f 0 1 = kind && (j.f 1 1 = 1) = on && j.f 2 2 = idx

/-! ### Tiles -/

/-- Physical tiles of a stack (R22). -/
def stackTiles (s : Nat) : List Nat := (upTo 32).map (32 * s + ·) ++ [128 + 2 * s, 129 + 2 * s]

/-- A physical tile begins to run to its safe point. -/
def Dev.parkTile (d : Dev) (p : Nat) : Dev :=
  d.modPt p (fun x => PTile.idleLoop { x with
    lock := .off, since := d.time, parking := true, acq := { goal := allRings.map (fun r => (r, d.park p r)) }, mlev := [], dith := []
    drv := (upTo 64).map (fun j => d.driveCode p j 0), ramping := false, h0 := [], warm := none, inj := none
    cap := { x.cap with active := false, trunc := x.cap.trunc || x.cap.active }
    quietFrom := none, quietAsk := false, quietStop := false })

/-- A logical tile is disabled. -/
def Dev.disableTile (d : Dev) (lt : Nat) : Dev :=
  let e := lt / 4
  let t := lt % 4
  let rg := lt / 16
  let st := (d.slot e t).st
  if st = .off then d.endJobs (enableJob 1 lt false) stOk
  else if st = .shutdown then d
  else if st = .shutdownRestart then
    ((d.modSlot e t (fun s => { s with st := .shutdown })).kick e t).endJobs (enableJob 1 lt true) stConflict
  else
    let d := match (d.rgn rg).swap with
      | some w => if w.lt = lt then d.abandonSwap rg else d
      | none => d
    let p := d.phys lt
    if p = 0xFF then
      ((d.modSlot e t (fun s => { s with st := .off })).slotLost e t).endJobs (enableJob 1 lt false) stOk
    else ((d.modSlot e t (fun s => { s with st := .shutdown })).slotLost e t).parkTile p

/-- A tile that is OFF starts up: a full acquisition from its park codes (R300, R359). -/
def Dev.startTile (d : Dev) (lt : Nat) : Dev :=
  let e := lt / 4
  let t := lt % 4
  let p := d.phys lt
  let d := if p = 0xFF then (d.modSlot e t (fun s => { s with st := .unbound })).kick e t else d.startAcq p true
  d.endJobs (enableJob 1 lt true) stOk

/-- A logical tile is enabled. -/
def Dev.enableTile (d : Dev) (lt : Nat) : Dev :=
  let st := (d.ltSlot lt).st
  if st = .off then d.startTile lt
  else if st = .shutdown then
    (d.modSlot (lt / 4) (lt % 4) (fun s => { s with st := .shutdownRestart })).kick (lt / 4) (lt % 4)
  else d

/-- Every tile of a dark stack has reached its safe point: its regions' AUX channels return to their power-up values
(R312). -/
def Dev.auxFault (d : Dev) (s : Nat) : Dev :=
  let off (lt : Nat) : Bool := (d.ltSlot lt).st = .off
  if (d.stk s).dark && (upTo 32).all (fun k => off (32 * s + k)) && (stackTiles s).all (fun p => !(d.pt p).parking) then
    (upTo 2).foldl (fun d r => (upTo 8).foldl (fun d n => d.auxPowerUp (2 * s + r) n) d) d
  else d

/-- A physical tile reaches its safe point once every heater has come to its park code: heaters at park, trims and bias
at mid scale, integrators reset. -/
def Dev.tileSafe (d : Dev) (p : Nat) : Dev :=
  if !(d.pt p).parking || !(d.pt p).arrived then d
  else
    let busy := match d.logicalOf p with
      | some lt => !(d.ltSlot lt).quietAll
      | none => false
    if busy then d
    else
      let d := d.modPt p (fun x => { x with
        parking := false, acq := {}, htr := allRings.map (fun r => (r, d.park p r)), trim := [], lev := [], trimHist := []
        mbias := [], modInt := [], xbar := [], xhat := [], bump := [] })
      match d.logicalOf p with
      | none => d.auxFault (regionOfP p / 2)
      | some lt =>
        let e := lt / 4
        let t := lt % 4
        let st := (d.slot e t).st
        let d := d.endJobs (enableJob 1 lt false) stOk
        if st = .shutdownRestart then d.startTile lt
        else if st = .shutdown then
          ((d.modSlot e t (fun s => { s with st := .off })).kick e t).auxFault (regionOfP p / 2)
        else d

/-! ### Engines -/

/-- An engine is disabled: it decodes nothing more, its open areas are freed without delivery, its tiles shut down. -/
def Dev.disableEngine (d : Dev) (e : Nat) : Dev :=
  let st := (d.eng e).st
  if st = .off then d.endJobs (enableJob 0 e false) stOk
  else if st = .shutdown then d
  else if st = .shutdownRestart then
    (d.modEng e (fun x => { x with st := .shutdown })).endJobs (enableJob 0 e true) stConflict
  else
    let d := (d.cancelRun e).modEng e (fun x => { x with
      st := .shutdown, areas := x.areas.filter (fun a => x.delq.any (·.aid = a.2.aid)) })
    (upTo 4).foldl (fun d t => d.disableTile (4 * e + t)) d

/-- An engine starts up (R359), and its tiles with it. -/
def Dev.startEngine (d : Dev) (e : Nat) : Dev :=
  let d := d.modEng e (fun x => { x with st := .idle })
  ((upTo 4).foldl (fun d t => d.enableTile (4 * e + t)) d).endJobs (enableJob 0 e true) stOk

/-- An engine is enabled. -/
def Dev.enableEngine (d : Dev) (e : Nat) : Dev :=
  let st := (d.eng e).st
  if st = .off then d.startEngine e
  else if st = .shutdown then d.modEng e (fun x => { x with st := .shutdownRestart })
  else d

/-- An engine reaches its safe point: its queues are empty and its tiles at their safe points. -/
def Dev.engineSafe (d : Dev) (e : Nat) : Dev :=
  let x := d.eng e
  let going := x.st = .shutdown || x.st = .shutdownRestart
  let idle := x.run.isNone && x.issueq.isEmpty && x.macq.isEmpty && x.vecq.isEmpty && x.delq.isEmpty && x.sigq.isEmpty
  let tiles := (upTo 4).all (fun t => (d.slot e t).st = .off)
  if !(going && idle && tiles) then d
  else
    let d := d.endJobs (enableJob 0 e false) stOk
    if x.st = .shutdownRestart then d.startEngine e
    else d.modEng e (fun x => { x with st := .off, areas := [] })

end Sys2Proof.Machine
end

