-- ==== Sys2Proof/Machine/Light.lean ====
section
/-!
DEFINITION. Light sources and detours (R336–R349, R462): combs, line monitoring and its levels, scheduled and forced
detours, loss of all light.
-/
namespace Sys2Proof.Machine

/-- A monitor round of 8 µs (R327). -/
def roundTc : Nat := 15729
/-- End of the verification reading, 1,350 ns from the gap's origin (R343). -/
def verifyTc : Nat := 2655

/-! ### Combs -/

def StackSt.comb (x : StackSt) (c : Nat) : Comb := if c = 0 then x.combA else x.combB
def StackSt.setComb (x : StackSt) (c : Nat) (v : Comb) : StackSt :=
  if c = 0 then { x with combA := v } else { x with combB := v }
/-- The comb that is not in use. -/
def StackSt.spareComb (x : StackSt) : Nat := 1 - x.active

def Dev.modComb (d : Dev) (s c : Nat) (f : Comb → Comb) : Dev :=
  d.setStk s ((d.stk s).setComb c (f ((d.stk s).comb c)))

/-- A comb that is off for good until it is readmitted. -/
def CombState.out (c : CombState) : Bool := c = .degraded || c = .failed

/-- The CP brings a comb to ALIGNED: powered, and aligning once it stands by. -/
def Dev.wantComb (d : Dev) (s c : Nat) : Dev :=
  d.modComb s c (fun x =>
    if x.st.out then x
    else { x with powered := true, want := true, st := if x.st = .standby then .aligning else x.st })

/-- The weakest line of the last round, and its power. -/
def StackSt.worst (x : StackSt) : Nat × Int :=
  (upTo 64).foldl (fun b l => if tget x.lines l 0 < b.2 then (l, tget x.lines l 0) else b) (0, tget x.lines 0 0)

/-- LSA_STATUS.DSTATE. -/
def StackSt.dstate (x : StackSt) : Nat :=
  match x.gap with
  | some g => if g.forced then 4 else 3
  | none => if x.level = 3 then 4 else if x.level = 2 && !x.disarmed then 2 else if x.level = 0 then 0 else 1

/-! ### Loss of all light (R462) -/

/-- A forced gap ends: its dark interval is logged and published with both instants (R347). -/
def Dev.forcedEnd (d : Dev) (s : Nat) (g : Gap) : Dev :=
  let src := srcComb s (d.stk s).active
  (d.logNow src 0x0604 [(8, g.dark), (8, d.time)]).publish 0xD src [(8, g.dark), (8, d.time)] g.t0

/-- The stack has no usable light: both combs off, its tiles run to their safe points, no firing waits for a gap's close. A
forced gap that is open ends here. -/
def Dev.goDark (d : Dev) (s : Nat) : Dev :=
  let x := d.stk s
  let d := match x.gap with
    | some g => if g.forced then d.forcedEnd s g else d
    | none => d
  let off (c : Comb) : Comb := { c with powered := false, want := false, st := if c.st.out then c.st else .off }
  let d := d.setStk s { x with
    combA := off x.combA, combB := off x.combB, dark := true, gap := none
    gapEnd := if x.gap.isSome then some d.time else x.gapEnd }
  let d := (upTo 2).foldl (fun d k => d.setRgn (2 * s + k) { d.rgn (2 * s + k) with held := none }) d
  let d := d.logNow (srcStack s) 0x0605 []
  let d := (upTo 32).foldl (fun d k => d.disableTile (32 * s + k)) d
  let d := (stackTiles s).foldl (fun d p =>
    if (d.logicalOf p).isNone && (d.pt p).lock != .faulted && (d.pt p).lock != .off then d.parkTile p else d) d
  let d := d.auxFault s
  { d with cp := { d.cp with
    regions := setFld (setFld d.cp.regions (2 * s) 1 0) (2 * s + 1) 1 0, degraded := true } }

/-! ### Gaps -/

/-- A gap opens: every quiet period of the stack's tiles ends (R343, R348). -/
def Dev.openGap (d : Dev) (s : Nat) (g : Gap) : Dev :=
  let d := d.setStk s { d.stk s with gap := some g }
  let d := (stackTiles s).foldl (fun d p => d.modPt p (fun x =>
    if x.quietFrom.isSome then { x with quietStop := true } else x)) d
  -- A tile operation begins to wait on a forced gap (R346).
  if g.forced then (upTo 8).foldl (fun d k => d.kickAll (8 * s + k)) d else d

/-- STALE on contributions from windows that overlap the dark interval, from `t` on (R347). -/
def Dev.markDark (d : Dev) (s t : Nat) : Dev :=
  (upTo 8).foldl (fun d k =>
    let e := 8 * s + k
    let mine (p : Nat) : Bool := (stackTiles s).contains p
    let d := d.modEng e (fun x => { x with areas := x.areas.map (fun a =>
      let vst := a.2.vst.map (fun v =>
        if v.2.ends.any (fun w => mine w.1 && t ≤ w.2) then (v.1, { v.2 with stale := true }) else v)
      (a.1, { a.2 with vst })) })
    (upTo 4).foldl (fun d sl => d.modSlot e sl (fun y => { y with
      convs := y.convs.map (fun c => if t ≤ c.2.close then (c.1, { c.2 with stale := true }) else c) })) d) d

/-- A forced gap opens at once (R346), or the stack goes dark where neither comb can give light (R462). Loss of light outranks
a scheduled gap that is open (R20): the forced gap takes its place. FORCED counts forced detours: not a loss of light that
finds no comb to change to. -/
def Dev.forcedDetour (d : Dev) (s : Nat) : Dev :=
  let x := d.stk s
  if x.dark then d
  else
    let c := x.spareComb
    let d := d.markDark s x.lastFair
    if (x.comb c).st.out then d.goDark s
    else
      let d := d.setReg .LSA_CNT (setFld (d.reg .LSA_CNT (2 * s)) 16 16 (min 65535 (d.rf .LSA_CNT 16 16 (2 * s) + 1))) (2 * s)
      if (x.comb c).st = .aligned then
        d.openGap s { t0 := d.time, forced := true, close := some (d.time + detourTc), switched := true, origin := d.time, dark := x.lastFair }
      else (d.wantComb s c).openGap s { t0 := d.time, forced := true, close := none, switched := false, dark := x.lastFair }

/-- A DETOUR firing (R342, R343). -/
def Dev.detourFiring (d : Dev) (s winlen inst : Nat) : Dev :=
  let x := d.stk s
  if x.dark || x.gap.isSome || x.level != 2 || x.disarmed || (x.comb x.spareComb).st != .aligned then d
  else d.openGap s { t0 := inst, forced := false, close := some (inst + winlen), switched := true, origin := inst }

/-! ### Levels (R340) -/

/-- A level sets or clears: log, event, and on a set the FADE trigger of both regions. -/
def Dev.fade (d : Dev) (s level : Nat) : Dev :=
  let x := d.stk s
  let (l, p) := x.worst
  let src := srcComb s x.active
  let d := d.logNow src 0x0601 [(1, level), (1, l), (2, unsx 16 p)]
  let d := d.publish 0xB src [(1, level), (1, l), (2, unsx 16 p)] d.time
  if level = 0 then d else (d.madcTriggerRg (2 * s) 0).madcTriggerRg (2 * s + 1) 0

/-- A sensor of the laser source assembly stands at its throttle level (R371). -/
def Dev.laserHot (d : Dev) (s : Nat) : Bool := (upTo 4).any (fun k => (tget d.th.sensors (48 + 4 * s + k) {}).throt)

/-- The spare comb under the laser throttle (R371): off while the level stands and no detour is warned, armed or forced
(LSA_STATUS.DSTATE), and back to STANDBY when the level is clear. A comb that a COMB_READMIT brings up keeps its power until
the command is done. -/
def Dev.laserThrottle (d : Dev) (s : Nat) : Dev :=
  let x := d.stk s
  let c := x.spareComb
  let k := x.comb c
  let readmit := d.cp.jobs.any (fun j => j.opcode = 0x0802 && j.f 0 1 = s && j.f 1 1 = c)
  if d.laserHot s then
    if x.dstate = 0 && !k.st.out && k.st != .inUse && !readmit then
      d.modComb s c (fun y => { y with st := .off, powered := false, want := false })
    else d
  else if k.st = .off && !k.powered && !x.dark then d.modComb s c (fun y => { y with powered := true })
  else d

/-- Level `n` is reached. Each level not yet set whose own condition holds sets, in order: `sets` names them (R340). -/
def Dev.setLevel (d : Dev) (s n : Nat) (sets : List Nat) : Dev :=
  let old := (d.stk s).level
  if n ≤ old then d
  else
    let d := d.setStk s { d.stk s with
      level := n, clearFrom := none
      armedAt := if old < 2 && 2 ≤ n then d.time else (d.stk s).armedAt
      waited := if old < 2 then false else (d.stk s).waited
      disarmed := if old < 2 then false else (d.stk s).disarmed }
    let d := (upTo 4).foldl (fun d k => if old < k && sets.contains k then d.fade s k else d) d
    let d := d.wantComb s (d.stk s).spareComb
    if n = 3 then d.forcedDetour s else d

/-- LINE_MONITOR_ROUND: the 64 line powers of one round of both regions' converters A. -/
def Dev.lineRound (d : Dev) (s : Nat) (powers : List Int) : Dev :=
  let x := d.stk s
  if x.dark then d
  else
    let thr := d.reg .LSA_THR (2 * s)
    let warn : Int := (fld thr 0 10 : Nat)
    let sched : Int := (fld thr 10 10 : Nat)
    let force : Int := (fld thr 20 10 : Nat)
    let lines : Tbl Int := (upTo 64).map (fun l => (l, clampInt (-32768) 32767 (powers.getD l 0)))
    let any (t : Int) : Bool := lines.any (fun l => l.2 ≤ -t)
    let count (n : Nat) (t : Int) : Nat := if any t then n + 1 else 0
    let clear := lines.all (fun l => -(warn - 20) < l.2)
    let clearFrom := if x.level = 1 && clear then some (x.clearFrom.getD d.time) else none
    let y : StackSt := { x with
      lines, warnN := count x.warnN warn, schedN := count x.schedN sched, forceN := count x.forceN force, clearFrom
      lastFair := if any force then x.lastFair else d.time - roundTc }
    let d := d.setStk s y
    let lost := lines.any (fun l => l.2 < -1000)
    let sets := (if 2 ≤ y.warnN then [1] else []) ++ (if 2 ≤ y.schedN then [2] else [])
      ++ (if lost || 2 ≤ y.forceN then [3] else [])
    let d := d.setLevel s (sets.getLast?.getD 0) sets
    let z := d.stk s
    match z.clearFrom with
    | some t =>
      if z.level = 1 && t + 196608000 ≤ d.time then
        ((d.setStk s { z with level := 0, clearFrom := none }).fade s 0).laserThrottle s
      else d
    | none => d

/-- LOSS_DETECTOR: the loss detector of the comb in use fires; an open gap does not hold it back (R20, R340). -/
def Dev.lossDetector (d : Dev) (s : Nat) : Dev :=
  if (d.stk s).dark then d else d.setLevel s 3 [3]

/-- DETOUR_WAIT (R342): the armed detour has waited 1 s. -/
def Dev.detourWait (d : Dev) (s : Nat) : Dev :=
  let x := d.stk s
  if x.level = 2 && !x.disarmed && !x.waited && x.gap.isNone && x.armedAt + tcPerSec ≤ d.time then
    (d.setStk s { x with waited := true }).publish 0xC (srcComb s x.active) [(1, 2), (1, 0)] d.time
  else d

/-! ### The detour's steps (R343–R347) -/

/-- DETOUR_VERIFY, 1,350 ns from the origin: the verification reading of every line against its commissioning power, and
the settings the equaliser iterations reached. -/
def Dev.detourVerify (d : Dev) (s : Nat) (powers : List Int) (eq : List Nat) : Dev :=
  let x := d.stk s
  match x.gap with
  | none => d
  | some g =>
    if !g.switched || g.verified || d.time < g.origin + verifyTc then d
    else
      let c := x.spareComb
      let dev := (upTo 64).map (fun l => (l, clampInt (-32768) 32767 (powers.getD l 0)))
      let worst := dev.foldl (fun (b : Nat × Int) l => if b.2.natAbs < l.2.natAbs then l else b) (0, 0)
      if worst.2.natAbs ≤ 50 then
        let new := { x.comb c with
          st := .inUse, want := false, eq := (upTo 64).map (fun l => (l, min 600 (eq.getD l 0))) }
        let old := { x.comb x.active with st := .degraded, powered := false, want := false }
        let y : StackSt := { ((x.setComb c new).setComb x.active old) with
          active := c, level := 0, warnN := 0, schedN := 0, forceN := 0, clearFrom := none, waited := false
          disarmed := false, lines := dev, gap := some { g with verified := true } }
        let d := d.setStk s y
        let d := d.setReg .LSA_CNT
          (setFld (d.reg .LSA_CNT (2 * s)) 0 16 (min 65535 (d.rf .LSA_CNT 0 16 (2 * s) + 1))) (2 * s)
        let d := d.logNow (srcComb s c) 0x0602 [(1, b2n g.forced)]
        let d := d.publish 0xC (srcComb s c) [(1, 0), (1, b2n g.forced)] g.t0
        d.fade s 0
      else if g.forced then
        -- The stack stays on the new comb (R346), and is dark (R462).
        let new := { x.comb c with st := .failed, powered := false, want := false }
        let old := { x.comb x.active with st := .degraded, powered := false, want := false }
        (d.setStk s { ((x.setComb c new).setComb x.active old) with active := c }).goDark s
      else
        let new := { x.comb c with st := .failed, powered := false, want := false }
        let y : StackSt := { (x.setComb c new) with disarmed := true, gap := some { g with verified := true } }
        let d := (d.setStk s y).logNow (srcComb s c) 0x0603 [(1, worst.1), (2, unsx 16 worst.2)]
        d.publish 0xC (srcComb s x.active) [(1, 1), (1, 0)] g.t0

/-- DETOUR_GAP_CLOSE: at the gap's close, once the reading has been judged (R248, R343, R346) tiles resume; a firing held
by the gap begins its switch (R349). -/
def Dev.gapClose (d : Dev) (s : Nat) : Dev :=
  let x := d.stk s
  match x.gap with
  | none => d
  | some g =>
    if !(g.close.any (· ≤ d.time)) || !g.verified then d
    else
      let d := d.setStk s { x with gap := none, gapEnd := some d.time }
      let d := (if g.forced then d.forcedEnd s g else d).laserThrottle s
      let d := (upTo 2).foldl (fun d k =>
        let rg := 2 * s + k
        match (d.rgn rg).held with
        | some (inst, w) => (d.setRgn rg { d.rgn rg with held := none }).fireNow rg w inst
        | none => d) d
      let d := (upTo 2).foldl (fun d k => d.judgeSpare (2 * s + k)) d
      (upTo 8).foldl (fun d k => d.kickAll (8 * s + k)) d

/-! ### Bring-up of combs, alignment and readmission (R339, R345) -/

/-- The job of a COMB_READMIT for this comb, if one runs. -/
def Dev.readmitting (d : Dev) (s c : Nat) : Bool :=
  d.cp.jobs.any (fun j => j.opcode = 0x0802 && j.f 0 1 = s && j.f 1 1 = c)
def Dev.endReadmit (d : Dev) (s c st : Nat) : Dev :=
  d.endJobs (fun j => j.opcode = 0x0802 && j.f 0 1 = s && j.f 1 1 = c) st

/-- The comb in use gives its light again after the stack was dark: full acquisitions follow. -/
def Dev.relight (d : Dev) (s c : Nat) : Dev :=
  let d := d.setStk s { (d.stk s) with dark := false, active := c, level := 0, disarmed := false
                                       warnN := 0, schedN := 0, forceN := 0 }
  let d := d.modComb s c (fun x => { x with st := .inUse, want := false })
  let d := (upTo 32).foldl (fun d k => d.enableTile (32 * s + k)) d
  [128 + 2 * s, 129 + 2 * s].foldl (fun d p =>
    if (d.logicalOf p).isNone && (d.pt p).lock = .off then d.startAcq p true else d) d

/-- No comb of the stack is in use. -/
def StackSt.unlit (x : StackSt) : Bool := x.combA.st != .inUse && x.combB.st != .inUse

/-- A comb fails to come up (R338, R445, R346). -/
def Dev.combFails (d : Dev) (s c : Nat) : Dev :=
  let d := (d.modComb s c (fun x => { x with st := .failed, powered := false, want := false })).endReadmit s c stFaulted
  let x := d.stk s
  let o := 1 - c
  if x.dark then d
  else if (match x.gap with | some g => g.forced && !g.switched | none => false) then d.goDark s
  else if x.unlit then
    if (x.comb o).st.out then d.goDark s
    else if (x.comb o).st = .standby then
      (d.setStk s { x with active := o }).modComb s o (fun y => { y with st := .inUse })
    else d.setStk s { x with active := o }
  else d

/-- COMB_STANDBY: a powered comb's TEC has settled, or it failed to come up. -/
def Dev.combStandby (d : Dev) (s c : Nat) (ok : Bool) : Dev :=
  let x := d.stk s
  let k := x.comb c
  if !k.powered || k.st != .off then d
  else if !ok then d.combFails s c
  else if x.unlit && !x.dark && x.active = c then d.modComb s c (fun y => { y with st := .inUse, want := false })
  else d.modComb s c (fun y => { y with st := if y.want then .aligning else .standby })

/-- The bounds of R339: L00 within ±0.10 GHz of the L00 of the comb in use and the line spacing within ±2 MHz of 75 GHz,
from the two differences in MHz. Without a comb in use there is no L00 to compare with (log entry 202). -/
def StackSt.gridOk (x : StackSt) (grid : Int × Int) : Bool :=
  (x.unlit || grid.1.natAbs ≤ 100) && grid.2.natAbs ≤ 2

/-- COMB_ALIGNED: the alignment of a comb reaches a grid, or fails; `lines` are what the reference ring reads of it (R345).
A grid outside the bounds of R339 is not yet aligned. -/
def Dev.combAligned (d : Dev) (s c : Nat) (grid : Option (Int × Int)) (lines : List Int) : Dev :=
  let x := d.stk s
  let k := x.comb c
  if k.st != .aligning then d
  else if grid.isNone then d.combFails s c
  else if !(grid.all x.gridOk) then d
  else
    let sched : Int := (fld (d.reg .LSA_THR (2 * s)) 10 10 : Nat)
    let fair := (upTo 64).all (fun l => -sched < lines.getD l 0)
    if d.readmitting s c && !fair then d.combFails s c
    else
      let d := (d.modComb s c (fun y => { y with st := .aligned, want := false })).endReadmit s c stOk
      if x.dark then d.relight s c
      else
        let d := (d.setStk s { d.stk s with disarmed := false }).laserThrottle s
        match x.gap with
        | some g =>
          if g.forced && !g.switched then
            d.setStk s { d.stk s with gap := some { g with
              switched := true, origin := d.time, close := some (d.time + detourTc) } }
          else d
        | none => d

/-- ALIGNMENT_CHECK: a spare comb whose grid is found outside the bounds of R339 is aligned again. -/
def Dev.alignCheck (d : Dev) (s : Nat) (grid : Int × Int) : Dev :=
  let x := d.stk s
  if (x.comb x.spareComb).st = .aligned && !x.gridOk grid then
    d.modComb s x.spareComb (fun y => { y with st := .aligning, want := true })
  else d

/-- COMB_READMIT begins its work (R345). -/
def Dev.readmit (d : Dev) (s c : Nat) : Dev :=
  d.modComb s c (fun y => { y with st := .off, powered := true, want := true })

end Sys2Proof.Machine
end

