-- ==== Sys2Proof/Machine/Timeline.lean ====
section
/-!
DEFINITION. Device time and its discipline (R225–R234, R487), Milestone firings (R239–R242), banks and commits
(R243–R247), and the configuration of carrier timelines (R237).
-/
namespace Sys2Proof.Machine

/-! ### Firings -/

/-- A START action (R239, R249): placements made by then that wait for entry `n` are anchored at `t` (R135). -/
def Dev.fireStart (d : Dev) (n t : Nat) : Dev :=
  (upTo 32).foldl (fun d e =>
    (upTo (d.eng e).placed.length).foldl (fun d i =>
      match (d.eng e).placed[i]? with
      | some p =>
        if p.start = some n && p.anchor.isNone && p.made ≤ t then
          let (p, d) := d.anchorAt e p t
          d.modEng e (fun x => { x with placed := x.placed.set i p })
        else d
      | none => d) d) d

/-- A RELEASE action at `t` (R161): WAITMs that hold on entry `n` go on if it lies in their window, and a release that
lies at or after the list's start is remembered for MODE = 1. -/
def Dev.fireRelease (d : Dev) (n t : Nat) : Dev :=
  (upTo 32).foldl (fun d e =>
    let x := d.eng e
    match x.run with
    | some r =>
      let d := if r.startTs ≤ t then d.setEng e { x with run := some { r with released := n :: r.released } } else d
      match x.hold with
      | .waitm m _ s => if m = n && (if wmMode x.cur then r.startTs else s) ≤ t then d.advance e true else d
      | _ => d
    | none =>
      match x.placed with
      | p :: ps => if p.anchor.isSome then d.setEng e { x with
                     placed := { p with released := (n, t) :: p.released } :: ps } else d
      | [] => d) d

/-- A SNAPSHOT action (R253). -/
def Dev.fireSnapshot (d : Dev) (m : MsEntry) (inst : Nat) : Dev :=
  let ct := MsEntry.ct m
  let sn : Snapshot := { ts := inst, pos := d.posAt ct inst + ct, tmap := d.tmapGen }
  { d with ms := { d.ms with snaps := tset d.ms.snaps (MsEntry.snapsel m) sn } }

/-- An EVENT action (R430): the position is the one the firing belongs to (R241). -/
def Dev.fireEvent (d : Dev) (n : Nat) (m : MsEntry) (inst : Nat) (stepped : Bool) : Dev :=
  let (f, sl) := d.firingPos m inst
  d.eventMask (MsEntry.mbxmask m) 4 srcTimeline
    [(2, n), (2, MsEntry.evcode m), (1, MsEntry.ct m), (1, b2n stepped), (2, (f % 1024).toNat), (2, sl),
     (1, MsEntry.symbol m)] inst

/-- A firing of entry `n` counts for the deadlines of a placement (R249). -/
def Placement.count (p : Placement) (n inst : Nat) : Placement :=
  if p.deadline = some n && p.dvalid && p.dhit.isNone && p.anchor.isSome && p.dfrom < inst then
    { p with dleft := p.dleft - 1, dfrom := inst, dhit := if p.dleft ≤ 1 then some inst else none }
  else p

/-- A firing of entry `n` counts for every deadline. -/
def Dev.countDeadlines (d : Dev) (n inst : Nat) : Dev :=
  (upTo 32).foldl (fun d e =>
    let x := d.eng e
    if x.placed.isEmpty && x.run.isNone then d
    else d.setEng e { x with
      placed := x.placed.map (fun p => p.count n inst)
      run := x.run.map (fun (r : Run) => { r with plc := r.plc.count n inst }) }) d

/-- One firing of version `m` of entry `n` at instant `inst`: its actions in the order of R239. -/
def Dev.fire (d : Dev) (n : Nat) (m : MsEntry) (inst : Nat) (stepped : Bool) : Dev :=
  let a := MsEntry.actions m
  let w := MsEntry.winlen m
  let rgs := (upTo 8).filter (bit (MsEntry.rgmask m))
  let sts := (upTo 4).filter (bit (MsEntry.stmask m))
  let d := if bit a 0 then d.fireStart n inst else d
  let d := if bit a 1 then d.fireRelease n inst else d
  let d := if bit a 2 then rgs.foldl (fun d rg => d.rdwkMilestone rg w inst) d else d
  let d := if bit a 3 then sts.foldl (fun d s => d.detourFiring s w inst) d else d
  let d := if bit a 4 then rgs.foldl (fun d rg => d.madcTriggerRg rg 2) d else d
  let d := if bit a 5 then d.fireSnapshot m inst else d
  let d := if bit a 6 then d.fireEvent n m inst stepped else d
  d.countDeadlines n inst

/-- A firing whose actions reach their blocks more than 24 Tc after it (R242, R459 MS_SLIP). -/
def Dev.slip (d : Dev) (n : Nat) : Dev :=
  let d := d.bump .MS_CNT_SLIP
  let k := d.time / subframeTc + 1
  if d.ms.slipLogged = k then d
  else { d with ms := { d.ms with slipLogged := k } }.logNow srcTimeline 0x0105 [(2, n)]

/-! ### Commits (R243–R247) -/

/-- The entries a commit of mailbox `m` changes (R244). -/
def Dev.changedEntries (d : Dev) (m : Nat) : List Nat :=
  let keys := d.ms.shadow.map (·.1) ++ (d.ms.active.map (·.1)).filter (fun k => (tfind d.ms.shadow k).isNone)
  keys.filter (fun k => d.inDomain m k && d.msShadow k != d.msActive k)

/-- Shadow entry `n` copied to the active bank at `t`. -/
def Dev.copyEntry (d : Dev) (t n : Nat) : Dev :=
  { d with ms := { d.ms with active := tset d.ms.active n (d.msShadow n), prior := tset d.ms.prior n (d.msActive n, t) } }

/-- The next instant at which a pending commit copies entries. -/
def Dev.nextCopy (d : Dev) : Option Nat :=
  match d.ms.commit with
  | none => none
  | some c =>
    if !c.copied then some c.b
    else c.deferred.foldl (fun (m : Option Nat) p => match m with
      | some t => some (min t p.2)
      | none => some p.2) none

/-- A commit with nothing left to copy ends (R246). -/
def Dev.endCommit (d : Dev) : Dev :=
  match d.ms.commit with
  | none => d
  | some c =>
    if c.copied && c.deferred.isEmpty then
      let g := (d.ms.gen + 1) % 2 ^ 32
      ({ d with ms := { d.ms with commit := none, gen := g } } : Dev).event c.mbx 5 srcTimeline
        [(8, c.b), (4, g), (1, c.ct)] d.time
    else d

/-- COMMIT_EFFECT: the copy at B (R244, R245), for an instant `t` of device time. -/
def Dev.commitEffect (d : Dev) (t : Nat) : Dev :=
  match d.ms.commit with
  | none => d
  | some c =>
    if c.copied || t < c.b then d
    else
      let plan := (d.changedEntries c.mbx).map (fun n => (n, d.deferTo c.ct c.b n))
      let d := plan.foldl (fun d p => if p.2.isNone then d.copyEntry c.b p.1 else d) d
      let later := plan.filterMap (fun p => p.2.map (fun t => (p.1, t)))
      Dev.endCommit { d with ms := { d.ms with commit := some { c with copied := true, deferred := later } } }

/-- DEFERRED_COPY: the deferred entries that are due at `t` are copied (R245). -/
def Dev.deferredCopy (d : Dev) (t : Nat) : Dev :=
  match d.ms.commit with
  | none => d
  | some c =>
    let (due, rest) := c.deferred.partition (fun p => p.2 ≤ t)
    let d := due.foldl (fun d p => d.copyEntry p.2 p.1) d
    Dev.endCommit { d with ms := { d.ms with commit := some { c with deferred := rest } } }

/-- What a pending commit still has to copy once time reaches `t`. -/
def Dev.copyDue (d : Dev) (t : Nat) : Dev := (d.commitEffect t).deferredCopy t

/-- An instant lies before what has been dispatched: at or before a step, or not after the last firing in the order of
instants and entries (R234, R242; log entry 184). -/
def Dev.overtaken (d : Dev) (n inst : Nat) : Bool :=
  (match d.tl.stepAt with
    | some b => decide (inst ≤ b)
    | none => false)
  || (match d.ms.last with
    | some (t, k) => inst < t || (inst = t && n ≤ k)
    | none => false)

/-- One more firing is dispatched: of entry `n`, at its instant; a timeline cycle holds 8 (R242). -/
def Dev.dispatched (d : Dev) (n inst : Nat) : Dev :=
  let k := if d.ms.cycle.1 = d.time / 4 then d.ms.cycle.2 else 0
  { d with ms := { d.ms with last := some (inst, n), cycle := (d.time / 4, k + 1) } }

/-- A dispatch slot of this timeline cycle is free. -/
def Dev.slotFree (d : Dev) : Bool := d.ms.cycle.1 != d.time / 4 || d.ms.cycle.2 < 8

/-- MILESTONE_FIRING: entry `n` fires, dispatched `late` Tc after its instant, in the version the bank held then, if its
carrier timeline was enabled then. What a commit has to copy by now is copied first (R241, R242, R244). -/
def Dev.milestone (d : Dev) (n late : Nat) : Dev :=
  let inst := d.time - late
  let e := d.copyDue d.time
  let m := e.entryAt n inst
  let on : Bool := tget d.ms.enabled (MsEntry.ct m) 0 ≤ inst
  if late ≤ d.time && e.isFiring m inst && on && !d.overtaken n inst && d.slotFree then
    ((if 24 < late then e.slip n else e).dispatched n inst).fire n m inst false
  else d

/-- When the last copy of the pending commit is due (R246). -/
def Dev.lastCopy (d : Dev) : Nat :=
  match d.ms.commit with
  | none => d.time
  | some c =>
    if c.copied then c.deferred.foldl (fun m p => max m p.2) c.b
    else (d.changedEntries c.mbx).foldl (fun m n => max m ((d.deferTo c.ct c.b n).getD c.b)) c.b

/-! ### Steps (R234, R487) -/

/-- A firing that a forward step passes: entry, version, its latest instant in the step. -/
abbrev Passed := Tbl (MsEntry × Nat)

/-- Firings of the active bank in (a, b] join those found before; each entry keeps its latest. -/
def Dev.passedIn (d : Dev) (a b : Int) (acc : Passed) : Passed :=
  d.ms.active.foldl (fun acc p =>
    match d.latestFiring p.2 a b with
    | some t => tset acc p.1 (p.2, t)
    | none => acc) acc

/-- The firings a step over (a, b] passes: up to the instant of a commit's copy those of the old versions, from it
on those of the new ones. -/
def Dev.stepOver : Nat → Dev → Int → Nat → Passed → Passed × Dev
  | 0, d, a, b, acc => (d.passedIn a b acc, d)
  | fuel + 1, d, a, b, acc =>
    match d.nextCopy with
    | some x =>
      if x ≤ b then Dev.stepOver fuel (d.copyDue x) (max a ((x : Int) - 1)) b (d.passedIn a ((x : Int) - 1) acc)
      else (d.passedIn a b acc, d)
    | none => (d.passedIn a b acc, d)

/-- `x` put into a list ordered by firing instant, then entry number. -/
def insertFiring (x : Nat × MsEntry × Nat) : List (Nat × MsEntry × Nat) → List (Nat × MsEntry × Nat)
  | [] => [x]
  | y :: ys =>
    if x.2.2 < y.2.2 || (x.2.2 = y.2.2 && x.1 < y.1) then x :: y :: ys else y :: insertFiring x ys

/-- The passed firings are made from `b` on, at most 8 per timeline cycle (R234, R242). -/
def Dev.fireStepped (d : Dev) : Nat → List (Nat × MsEntry × Nat) → Dev
  | _, [] => d
  | k, x :: xs =>
    let d := if 24 < 4 * (k / 8) then d.slip x.1 else d
    (d.fire x.1 x.2.1 x.2.2 true).fireStepped (k + 1) xs

/-- The state code of R231. -/
def Disc.code : Disc → Nat
  | .freerun => 0 | .acquiring => 1 | .locked => 2 | .holdover => 3

/-- A TIME event (R430). -/
def Dev.timeEvent (d : Dev) (step before : Nat) : Dev :=
  d.publish 6 srcTimeline [(1, d.tl.state.code), (1, step), (8, before)] d.time

/-- The record of a step from `a` to the present count (R234, R487). -/
def Dev.stepRecord (d : Dev) (a step : Nat) : Dev :=
  (({ d with tl := { d.tl with stepped := true, stepAt := some d.time } } : Dev).logNow srcTimeline 0x0101
    [(8, a), (8, d.time)]).timeEvent step a

/-- Instant `t` of a timer that runs on through a step of device time by `n` Tc. -/
def stepT (n : Int) (t : Nat) : Nat := ((t : Int) + n).toNat

def Gap.atStep (g : Gap) (n : Int) : Gap := { g with close := g.close.map (stepT n), origin := stepT n g.origin }

/-- Durations that run while device time steps by `n` Tc to `t` go on as they stood: of gaps, windows, waits (R117, R218), lock states,
converter entries and the PPS_OUT pulse (R248, R319, R326, R409; log entry 183). -/
def Dev.stepTimers (d : Dev) (n : Int) (t : Nat) : Dev :=
  { d with
    tl := { d.tl with before := t, ppsEdge := d.tl.ppsEdge.map (stepT n), ppsInAt := d.tl.ppsInAt.map (· + n) }
    engs := d.engs.map (fun x => (x.1, { x.2 with
      issueq := x.2.issueq.map (fun o => { o with waitFrom := o.waitFrom.map (fun w => (w.1, stepT n w.2)) }) }))
    str := { d.str with wdogFrom := d.str.wdogFrom.map (stepT n) }
    stks := d.stks.map (fun s => (s.1, { s.2 with
      gap := s.2.gap.map (·.atStep n), clearFrom := s.2.clearFrom.map (stepT n), armedAt := stepT n s.2.armedAt }))
    ptiles := d.ptiles.map (fun p => (p.1, { p.2 with
      since := stepT n p.2.since, burstAt := stepT n p.2.burstAt, acq := { p.2.acq with from_ := stepT n p.2.acq.from_ }
      quietFrom := p.2.quietFrom.map (stepT n), darkFrom := p.2.darkFrom.map (fun l => (l.1, stepT n l.2))
      losses := p.2.losses.map (stepT n), coefAt := p.2.coefAt.map (stepT n) }))
    rgs := d.rgs.map (fun r => (r.1, { r.2 with
      winEnd := stepT n r.2.winEnd, aux := r.2.aux.map (fun a => (a.1, a.2.atStep (0 < n) t))
      madc := r.2.madc.map (fun c => (c.1, c.2.atStep n (d.roundPeriod r.1 c.1) t)) })) }

/-- A forward step to count `b`, which a step beyond 2^64 takes on from 0 (R225). -/
def Dev.forwardStep (d : Dev) (b : Nat) : Dev :=
  let a := d.time
  let (fs, d) := Dev.stepOver 10 { d.stepTimers (b - a) (b % 2 ^ 64) with time := b % 2 ^ 64 } a b []
  let d := d.stepRecord a 1
  let d := d.fireStepped 0 (fs.foldl (fun l p => insertFiring (p.1, p.2.1, p.2.2) l) [])
  (upTo 8).foldl (fun d rg => match d.rdwkDue rg a b with
    | some t => d.rdwkAuto rg t
    | none => d) d

/-- A backward step to `b` (R233, R487): it leaves no error to slew; the ends of gaps and quiet periods, and the instants from
which carrier timelines are enabled, stay in the past (log entry 183); the active bank is that of every instant from `b` on. -/
def Dev.backwardStep (d : Dev) (b : Nat) : Dev :=
  let a := d.time
  let d := d.stepTimers ((b : Int) - a) b
  Dev.stepRecord { d with
    time := b
    tl := { d.tl with slew := 0 }
    ms := { d.ms with last := none, prior := [], enabled := d.ms.enabled.map (fun e => (e.1, min b e.2)) }
    rgs := d.rgs.map (fun p => (p.1, { p.2 with fired := min b p.2.fired }))
    ptiles := d.ptiles.map (fun p => (p.1, { p.2 with quietEnd := p.2.quietEnd.map (min b) }))
    stks := d.stks.map (fun s => (s.1, { s.2 with gapEnd := s.2.gapEnd.map (min b) })) } a 2

/-- A backward step may be made: no engine holds a placement, no active entry is valid (R233). -/
def Dev.backAllowed (d : Dev) : Bool :=
  (upTo 32).all (fun e => (d.eng e).placed.isEmpty && (d.eng e).run.isNone) && !d.ms.active.any (fun p => MsEntry.valid p.2)

/-! ### Discipline (R226–R233) -/

def Dev.tlSrc (d : Dev) : Nat := d.rf .TL_CFG 0 2
/-- The device is time locked (R232). -/
def Dev.timeLocked (d : Dev) : Bool :=
  d.tl.everLocked && (d.tl.state = .locked || d.tl.state = .holdover)

/-- A return to ACQUIRING after time lock gates the fronthaul ports again; what they had still to send is late (R385). -/
def Dev.regate (d : Dev) : Dev :=
  let d := d.ports.outq.foldl (fun d f => d.bump .PRT_FH_CNT_TXLATE f.port) d
  { d with ports := { d.ports with
      outq := []
      fh := d.ports.fh.map (fun p => (p.1, if p.2.st = .up then { p.2 with st := .upGated } else p.2)) } }

/-- The discipline state becomes `st`; the event is left to the caller. -/
def Dev.setDisc (d : Dev) (st : Disc) : Dev :=
  let was := d.timeLocked
  let d : Dev := { d with tl := { d.tl with
    state := st, everLocked := d.tl.everLocked || st = .locked, good := 0, holdFrom := d.aon } }
  if was && st = .acquiring then d.regate else d

/-- The state becomes `st`, with its event. -/
def Dev.changeDisc (d : Dev) (st : Disc) : Dev := if d.tl.state = st then d else (d.setDisc st).timeEvent 0 0

/-- One Tc, and 1/16 Tc, in the units of `Timeline.frac`. -/
def tcUnits : Int := 2000000000
def tc16Units : Int := 125000000

/-- Device time steps forward by `off` 1/16 Tc; less than one Tc moves the fraction alone. -/
def Dev.stepBy (d : Dev) (off : Int) (locks : Bool) : Dev :=
  let u := (d.tl.frac : Int) + off * tc16Units
  let b := d.time + (u / tcUnits).toNat
  let d : Dev := { d with tl := { d.tl with frac := (u % tcUnits).toNat, slew := 0 } }
  if d.time < b then d.forwardStep b else if locks then d.timeEvent 0 0 else d

/-- PHASE_MEASUREMENT (R232, R233): source time minus device time is `off`, in 1/16 Tc. -/
def Dev.phase (d : Dev) (off : Int) : Dev :=
  let never := !d.tl.everLocked && (d.tl.state = .freerun || d.tl.state = .acquiring)
  let inLimit := -1572 ≤ off && off ≤ 1572
  let good := if inLimit then min 8 (d.tl.good + 1) else 0
  let thr : Int := (max 1 (d.rf .TL_CFG 16 8) : Nat)
  let beyond := thr * 3145728 < off * 100
  let auto := d.rf .TL_CFG 12 1 = 1
  let locks := 8 ≤ good && d.tl.state != .locked && d.tl.state != .holdover
  let d : Dev := { d with tl := { d.tl with
    offset := clampInt (-(2 ^ 31)) (2 ^ 31 - 1) off, stepReq := !never && beyond && !auto } }
  let d := if locks then d.setDisc .locked else d
  let d : Dev := { d with tl := { d.tl with good } }
  if (never && 0 < off) || (beyond && auto) then d.stepBy off locks
  else
    let d : Dev := { d with tl := { d.tl with slew := off * tc16Units } }
    if locks then d.timeEvent 0 0 else d

/-- Source time minus device time in 1/16 Tc from an exchange (R227): origin and arrival of the Sync, departure and arrival of
the Delay_Req, the path taken as long in both directions. -/
def exchangeOffset (x : Nat × Nat × Nat × Nat) : Int :=
  let (t1, t2, t3, t4) := x
  8 * (((t1 : Int) - t2) + ((t4 : Int) - t3))

/-- A measurement of the selected source: under PTP the last complete exchange gives it (R227), under PPS the last edge taken
as a second (R229), and `sub` is what lies below the timestamps' Tc (log entry 208). -/
def Dev.phaseMeasurement (d : Dev) (sub : Int) : Dev :=
  if !d.tl.srcPresent then d
  else if d.tlSrc = 1 then
    match d.tl.ptp.exchange with
    | some x => Dev.phase { d with tl := { d.tl with ptp := { d.tl.ptp with exchange := none } } } (exchangeOffset x + sub)
    | none => d
  else if d.tlSrc = 2 then
    match d.tl.ppsMeas with
    | some o => Dev.phase { d with tl := { d.tl with ppsMeas := none } } (o + sub)
    | none => d
  else d

/-- SOURCE_LOSS (R232). -/
def Dev.sourceLoss (d : Dev) : Dev :=
  if d.tlSrc = 0 || d.tlSrc = 3 then d
  else
    let d : Dev := { d with tl := { d.tl with srcPresent := false } }
    if d.tl.state = .locked then
      ((d.setDisc .holdover).logNow srcTimeline 0x0102 [(4, unsx 32 d.tl.offset)]).timeEvent 0 0
    else d

/-- SOURCE_RETURN (R232). -/
def Dev.sourceReturn (d : Dev) : Dev :=
  if d.tlSrc = 0 || d.tlSrc = 3 then d
  else
    let d : Dev := { d with tl := { d.tl with srcPresent := true } }
    if d.tl.state = .holdover then d.changeDisc .acquiring else d

/-- HOLD_MAX_EXPIRY, HOLD_MAX seconds after HOLDOVER began (R232). -/
def Dev.holdMaxExpiry (d : Dev) : Dev :=
  let max := d.rf .TL_CFG 24 8
  if d.tl.state = .holdover && max != 0 && d.tl.holdFrom + max * tcPerSec ≤ d.aon then d.changeDisc .acquiring else d

/-- The timeline comes to listen on another port or not at all: what PTP and ESMC brought is gone (R227, R228). -/
def Dev.relisten (d : Dev) : Dev := { d with tl := { d.tl with esmcQl := none, ptp := {} } }

/-- The source changes (R226). -/
def Dev.sourceChange (d : Dev) : Dev :=
  let d : Dev := { d with tl := { d.tl with ppsLast := none, ppsMeas := none, good := 0 } }
  if d.tl.state = .holdover then d
  else Dev.changeDisc { d with tl := { d.tl with srcPresent := true } } .acquiring

/-- A time set under HOST (R230): its status, and the device after it. -/
def Dev.timeSet (d : Dev) (t : Nat) : Nat × Dev :=
  if d.tlSrc != 0 then (8, d)
  else if d.tl.everLocked && t < d.time && !d.backAllowed then (8, d)
  else
    let was := d.tl.state
    let d := if was = .locked then d else d.setDisc .locked
    let d : Dev := { d with tl := { d.tl with frac := 0, slew := 0 } }
    (0, if d.time < t then d.forwardStep t else if t < d.time then d.backwardStep t
        else if was = .locked then d else d.timeEvent 0 0)

/-! ### PPS (R229, R408, R409) -/

/-- PPS_IN_EDGE: a rising edge `lag` Tc ago, less the cable delay: captures resolve single Tc (R225). Its distance from the
edge before is kept for PPS_CHECK (R408). -/
def Dev.ppsIn (d : Dev) (lag : Nat) : Dev :=
  let ts : Int := (d.time : Int) - lag - d.rf .PRT_TIMING_CFG 0 16
  let d : Dev := { d with tl := { d.tl with ppsInAt := some ts, ppsGap := d.tl.ppsInAt.map (ts - ·) } }
  if d.tlSrc != 2 then d
  else
    match d.tl.ppsLast with
    | none =>
      let v := d.tl.ppsLabel.getD ((ts / tcPerSec + 1).toNat * tcPerSec)
      { d with tl := { d.tl with ppsLast := some v, ppsLabel := none, ppsMeas := some (16 * ((v : Int) - ts)) } }
    | some v =>
      let est := ts + d.tl.slew / tcUnits
      let k := max 1 ((est - v + tcPerSec / 2) / tcPerSec)
      let due := (v : Int) + k * tcPerSec
      let err := est - due
      if err < -196 || 196 < err then d.logNow srcTiming 0x0103 [(4, unsx 32 (clampInt (-(2 ^ 31)) (2 ^ 31 - 1) err))]
      else { d with tl := { d.tl with ppsLast := some due.toNat, ppsMeas := some (16 * (due - ts)) } }

/-- PPS_OUT_EDGE (R409). -/
def Dev.ppsOutEdge (d : Dev) : Dev :=
  let s := d.time + d.rf .PRT_TIMING_CFG 16 16
  let r := (s + 2) % tcPerSec
  if d.rf .TL_CFG 13 1 = 1 && d.timeLocked && r ≤ 4 then
    Dev.emit { d with tl := { d.tl with ppsEdge := some d.time } } (.ppsOut d.time)
  else d

/-- The last two PPS_IN edges lie 1 s ± 1 µs apart, and no edge is overdue (R408). -/
def Dev.ppsRegular (d : Dev) : Bool :=
  match d.tl.ppsInAt, d.tl.ppsGap with
  | some a, some g => decide (((g - tcPerSec).natAbs : Nat) ≤ 1966 ∧ (d.time : Int) - a ≤ tcPerSec + 1966)
  | _, _ => false

/-- PPS_CHECK (R408): in the time that `n25` cycles of the 25 MHz system clock took, CLK10M_IN made `n10`. -/
def Dev.ppsCheck (d : Dev) (n10 n25 : Nat) : Dev :=
  let off : Int := 5 * (n10 : Int) - 2 * (n25 : Int)
  { d with tl := { d.tl with
      ppsOk := bit d.cp.clocks 4 && 0 < n25 && decide (off.natAbs * 100000 ≤ 2 * n25) && d.ppsRegular } }

/-! ### Carrier timelines (R237) -/

/-- A valid entry of either bank that names `ct` would fall outside the slots or symbols of `n`. -/
def Dev.fallsOut (d : Dev) (ct : Nat) (n : Numer) : Bool :=
  (d.ms.shadow ++ d.ms.active).any (fun p => MsEntry.valid p.2 && MsEntry.ct p.2 = ct
    && ((MsEntry.slot p.2 != 0xFFFF && n.spf ≤ MsEntry.slot p.2) || n.syms ≤ MsEntry.symbol p.2))

/-- A carrier timeline may not be disabled now. -/
def Dev.ctInUse (d : Dev) (ct : Nat) : Bool :=
  d.ms.active.any (fun p => MsEntry.valid p.2 && MsEntry.ct p.2 = ct)
    || (match d.ms.commit with
      | some c => c.ct = ct || c.deferred.any (fun p => MsEntry.ct (d.msActive p.1) = ct)
      | none => false)

/-- The configuration of carrier timeline `ct`, whose fields are valid: refused with STATE_CONFLICT, or made. -/
def Dev.ctConfig (d : Dev) (ct mu ecp en ofs : Nat) : Option Dev :=
  let n : Numer := { mu, ecp := ecp = 1 }
  let changed := d.numer ct != n
  let bad := if d.ctEn ct then changed || d.ctOfs ct != ofs || (en = 0 && d.ctInUse ct)
    else changed && d.fallsOut ct n
  if bad then none
  else
    let d : Dev := if en = 1 && !d.ctEn ct then { d with ms := { d.ms with enabled := tset d.ms.enabled ct d.time } } else d
    some (((d.setReg .TL_CT_CFG (16 * mu + 2 * ecp + en) ct).setReg .TL_CT_OFS_LO (ofs % 2 ^ 32) ct).setReg
    .TL_CT_OFS_HI (ofs / 2 ^ 32) ct)

end Sys2Proof.Machine
end

