-- ==== Sys2Proof/Machine/Fronthaul.lean ====
section
/-!
DEFINITION. Fronthaul ports (R383–R395, R463) and their contexts (R209, R210, R394), modules (R405–R407), the host link
(R379), and the enabling of ports (R358, R359).
-/
namespace Sys2Proof.Machine

/-! ### Ports -/

def Dev.fh (d : Dev) (p : Nat) : FhPort := tget d.ports.fh p {}
def Dev.setFh (d : Dev) (p : Nat) (x : FhPort) : Dev := { d with ports := { d.ports with fh := tset d.ports.fh p x } }

/-- A PORT event (R430). -/
def Dev.portEvent (d : Dev) (src kind detail value : Nat) : Dev :=
  d.publish 0xF src [(1, kind), (1, detail), (8, value)] d.time

/-- Rate of a fronthaul port in Gb/s under its quad's MODE (R383); none while off. -/
def Dev.fhRate (d : Dev) (p : Nat) : Option Nat :=
  let m := d.rf .PRT_FH_QCFG 0 3 (p / 2)
  if p % 2 = 0 then
    [none, some 400, some 200, some 100, some 50, some 25, some 200, some 100].getD m none
  else [none, none, some 200, some 100, some 50, some 25, none, none].getD m none

/-- Both ports of quad `q` are disabled, so that its MODE may change (R383). -/
def Dev.quadDisabled (d : Dev) (q : Nat) : Bool :=
  let off (x : FhPort) : Bool := x.st = .off && !x.en
  off (d.fh (2 * q)) && off (d.fh (2 * q + 1))

/-- A frame received is dropped for a reason of R391. -/
def Dev.fhDrop (d : Dev) (p reason : Nat) : Dev :=
  (d.setFh p { d.fh p with lastDrop := reason }).bump .PRT_FH_CNT_DROP p

/-- The bus of the module that carries port `p`: one that carries both ports of a quad is on MB(2q) (R405; log entry 191). -/
def Dev.busOf (d : Dev) (p : Nat) : Nat := if (tget d.ports.mods p {}).st = 0 then p / 2 * 2 else p

def Dev.mod (d : Dev) (m : Nat) : ModBus := tget d.ports.mods m {}
def Dev.setMod (d : Dev) (m : Nat) (x : ModBus) : Dev := { d with ports := { d.ports with mods := tset d.ports.mods m x } }

/-- A MODULE log entry (R459). -/
def Dev.modLog (d : Dev) (m kind byte page : Nat) : Dev :=
  d.logNow (srcMb m) 0x0903 [(1, Config.moduleKind kind), (1, byte), (1, page)]

/-- What reading a module's flags finds: 0 nothing, 1 an alarm at a byte and page, 2 a bus timeout (R406). -/
def Dev.modFlags (d : Dev) (m found byte page : Nat) : Dev :=
  if found = 1 then (d.modLog m 0 byte page).portEvent (srcMb m) 6 0 0
  else if found = 2 then (d.setMod m { d.mod m with st := 3 }).modLog m 2 byte page
  else d

/-- The identifier bytes of modules managed under SFF-8636 (PRESUMED, the family's table SFF-8024: QSFP+, QSFP28; log entry
209). -/
def isSff (ident : Nat) : Bool := ident = 0x0D || ident = 0x11

/-- The ports that the module on bus `m` carries: with an empty odd bus of the quad, both (R405). -/
def Dev.modPorts (d : Dev) (m : Nat) : List Nat :=
  if m % 2 = 0 && (d.mod (m + 1)).st = 0 then [m, m + 1] else [m]

/-- A module with the advertised rates `rates` has an Application, or a rate, for each port it carries that the quad's MODE
gives a rate (R406). -/
def Dev.modMatches (d : Dev) (m : Nat) (rates : List Nat) : Bool :=
  (d.modPorts m).all (fun p => match d.fhRate p with
    | some r => rates.contains r
    | none => true)

/-- The Application is selected and the data path initialised, or there is none that matches (R406). -/
def Dev.modSelect (d : Dev) (m : Nat) : Dev :=
  let x := d.mod m
  if d.modMatches m x.rates then d.setMod m { x with st := 2, resetN := true, lpMode := false }
  else ((d.setMod m { x with st := 4, resetN := true, lpMode := false }).modLog m 1 0 0).portEvent (srcMb m) 7 0 0

/-- The Application is selected anew when a port of the module is enabled, since the quad's MODE may have changed (R383,
R406). -/
def Dev.modReselect (d : Dev) (m : Nat) : Dev :=
  let x := d.mod m
  if x.st = 2 || (x.st = 4 && d.modMatches m x.rates) then d.modSelect m else d

/-- Under G.8275.2 the master grants each service by unicast negotiation (R227). -/
def Dev.ptpUnicast (d : Dev) : Bool := d.rf .TL_CFG 8 2 = 1

/-- The slave clock sends a message of type `kind` on its port: multicast under G.8275.1, from its own address to the master's
that PTP_ADDR named under G.8275.2 (R227). -/
def Dev.ptpSend (d : Dev) (kind : Nat) : Dev :=
  let n := if d.tl.ptpFamily = 6 then 16 else 4
  d.emit (.ptp (d.rf .TL_CFG 4 3) kind (if d.ptpUnicast then d.tl.ptpOwn.take n ++ d.tl.ptpMaster.take n else []))

/-- The slave clock asks its master for Announce, Sync and Delay_Resp (G.8275.2). -/
def Dev.ptpNegotiate (d : Dev) : Dev := if d.tlSrc = 1 && d.ptpUnicast then d.ptpSend 0xC else d

/-- LINK_UP: a port's PCS link rises (R385, R406). -/
def Dev.fhLinkUp (d : Dev) (p : Nat) : Dev :=
  let x := d.fh p
  if x.st = .training && (d.fhRate p).isSome && (tget d.ports.mods (d.busOf p) {}).st != 4 && bit d.cp.clocks 2 then
    let d := (d.setFh p { x with link := true, st := if d.timeLocked then .up else .upGated }).portEvent (srcFh p) 1 0 0
    -- The slave clock asks its master anew over a link that has come back (R227).
    if p = d.rf .TL_CFG 4 3 then d.ptpNegotiate else d
  else d

/-- A fronthaul link falls (R463). -/
def Dev.fhLinkDown (d : Dev) (p reason : Nat) : Dev :=
  let x := d.fh p
  if x.link then
    let d := if p = d.rf .TL_CFG 4 3 then d.relisten else d
    ((d.setFh p { x with link := false, st := if x.st = .up || x.st = .upGated then .training else x.st }).logNow
      (srcFh p) 0x0901 [(1, reason)]).portEvent (srcFh p) 0 0 0
  else d

/-- A fronthaul port is enabled; one whose quad MODE gives it no lanes stays off. -/
def Dev.enableFh (d : Dev) (p : Nat) : Dev :=
  let x := d.fh p
  if x.st = .off then
    (d.setFh p { x with en := true, st := if (d.fhRate p).isSome then .training else .off }).modReselect (d.busOf p)
  else if x.st = .shutdown then d.setFh p { x with st := .shutdownRestart }
  else d

/-- A fronthaul port is disabled: no new frame. -/
def Dev.disableFh (d : Dev) (p : Nat) : Dev :=
  let x := d.fh p
  if x.st = .off then d.setFh p { x with en := false }
  else d.setFh p { x with en := false, st := .shutdown }

/-- A disabled fronthaul port reaches its safe point: link down, lanes idle. -/
def Dev.fhSafe (d : Dev) (p : Nat) : Dev :=
  let x := d.fh p
  let d := if x.link && p = d.rf .TL_CFG 4 3 && (x.st = .shutdown || x.st = .shutdownRestart) then d.relisten else d
  if x.st = .shutdown then d.setFh p { x with st := .off, link := false }
  else if x.st = .shutdownRestart then
    d.setFh p { x with link := false, en := true, st := if (d.fhRate p).isSome then .training else .off }
  else d

/-! ### Frames (R384–R389) -/

def be16 (b : List Byte) (off : Nat) : Nat := (b.getD off 0#8).toNat * 256 + (b.getD (off + 1) 0#8).toNat
def byteAt (b : List Byte) (off : Nat) : Nat := (b.getD off 0#8).toNat

/-- What the MAC sees of a frame: VLAN identifier if tagged, a second tag, Ethertype, and where its payload begins. -/
structure Eth where
  vid : Option Nat
  two : Bool
  typ : Nat
  off : Nat
  deriving DecidableEq, Repr

/-- The Ethernet header of a frame (R384). -/
def ethOf (b : List Byte) : Eth :=
  if be16 b 12 = 0x8100 then
    if be16 b 16 = 0x8100 then { vid := some (be16 b 14 % 4096), two := true, typ := be16 b 20, off := 22 }
    else { vid := some (be16 b 14 % 4096), two := false, typ := be16 b 16, off := 18 }
  else { vid := none, two := false, typ := be16 b 12, off := 14 }

/-- PTP over UDP: the ports of IPv4 or IPv6 (R386). -/
def udpPort (b : List Byte) (e : Eth) : Option (Nat × List Byte) :=
  if e.typ = 0x0800 && byteAt b (e.off + 9) = 17 then
    some (be16 b (e.off + byteAt b e.off % 16 * 4 + 2), (b.drop (e.off + 16)).take 4)
  else if e.typ = 0x86DD && byteAt b (e.off + 6) = 17 then
    some (be16 b (e.off + 42), (b.drop (e.off + 24)).take 16)
  else none

/-- The frame is a PTP frame. -/
def isPtp (b : List Byte) (e : Eth) : Bool :=
  e.typ = 0x88F7 || (match udpPort b e with
    | some (p, _) => p = 319 || p = 320
    | none => false)

/-- A PTP frame of the selected profile (R386). -/
def Dev.ptpMine (d : Dev) (b : List Byte) (e : Eth) : Bool :=
  if d.rf .TL_CFG 8 2 = 0 then
    e.typ = 0x88F7 && (b.take 6 = [0x01#8, 0x1B#8, 0x19#8, 0#8, 0#8, 0#8]
      || b.take 6 = [0x01#8, 0x80#8, 0xC2#8, 0#8, 0#8, 0x0E#8])
  else match udpPort b e with
    | some (_, a) => a = d.tl.ptpOwn.take a.length && a.length = (if d.tl.ptpFamily = 6 then 16 else 4)
    | none => false

/-- The types of PTP messages that a slave-only clock with the end-to-end mechanism takes: Sync, Follow_Up, Delay_Resp,
Announce, Signaling. Peer delay and management are not provided (R227). -/
def ptpTaken (kind : Nat) : Bool := kind = 0 || kind = 8 || kind = 9 || kind = 0xB || kind = 0xC

/-- The exchange goes on once the Sync's origin time is known: a Delay_Req leaves (R227). -/
def Dev.delayReq (d : Dev) : Dev :=
  let x := d.tl.ptp
  Dev.ptpSend { d with tl := { d.tl with
    ptp := { x with request := some (x.nextSeq, d.time), nextSeq := (x.nextSeq + 1) % 65536 } } } 1

/-- A PTP message from port identity `src` in the exchange: `seq` its sequence number, `info` the time it carries as Tc (a
Sync of a two-step master carries none), for Announce the announced data, for Signaling the service granted. -/
def Dev.ptpStep (d : Dev) (kind src seq ts : Nat) (twoStep : Bool) (time : Nat) (data : List Byte) : Dev :=
  let x := d.tl.ptp
  let set (x : Ptp) : Dev := { d with tl := { d.tl with ptp := x } }
  if kind = 0xC then set { x with granted := (data.map (fun (b : Byte) => b.toNat % 16) ++ x.granted).eraseDups }
  else if d.ptpUnicast && !x.granted.contains (if kind = 8 then 0 else kind) then d
  else if kind = 0xB then
    let ms := (src, data) :: x.masters.filter (·.1 != src)
    let best := ms.foldl (fun b m => if Config.ptpBetter (d.rf .TL_CFG 8 2) m.2 b.2 then m else b) (src, data)
    set (if x.master = some best.1 then { x with masters := ms }
      else { x with masters := ms, master := some best.1, sync := none, request := none })
  else if x.master != some src then d
  else if kind = 0 then
    let d := set { x with sync := some (seq, ts, if twoStep then none else some time) }
    if twoStep then d else d.delayReq
  else if kind = 8 then
    match x.sync with
    | some (s, t2, none) => if s = seq then Dev.delayReq (set { x with sync := some (s, t2, some time) }) else d
    | _ => d
  else
    match x.sync, x.request with
    | some (_, t2, some t1), some (s, t3) =>
      if s = seq then set { x with request := none, exchange := some (t1, t2, t3, time) } else d
    | _, _ => d

/-- PTP_MESSAGE: a message of type `kind` in `domain` on port `p`, its first bit `lag` Tc ago (R227). -/
def Dev.ptpMessage (d : Dev) (p kind domain lag src seq : Nat) (twoStep : Bool) (time : Nat) (data : List Byte) : Dev :=
  if d.tlSrc = 1 && p = d.rf .TL_CFG 4 3 && domain = d.tl.ptpDomain && ptpTaken kind && (d.fh p).link then
    Dev.ptpStep { d with tl := { d.tl with ptpSeen := (kind, d.time - lag) :: d.tl.ptpSeen } }
      kind src seq (d.time - lag) twoStep time data
  else d

/-- A number of `n` bytes, the most significant first. -/
def beNat (b : List Byte) (off n : Nat) : Nat := (upTo n).foldl (fun v i => 256 * v + byteAt b (off + i)) 0

/-- A PTP message in the format of IEEE 1588 (log entry 174): its time is that of its body with the correction field. -/
def Dev.ptpFrame (d : Dev) (p lag : Nat) (b : List Byte) : Dev :=
  let kind := byteAt b 0 % 16
  let body : Int := (beNat b 34 6 * tcPerSec + beNat b 40 4 * 196608 / 100000 : Nat)
  let corr : Int := sx 64 (beNat b 8 8) * 196608 / 6553600000
  let data := if kind = 0xB then (b.drop 47).take 16
    else if kind = 0xC && be16 b 44 = 5 then [BitVec.ofNat 8 (byteAt b 48 / 16)] else []
  d.ptpMessage p kind (byteAt b 4) lag (beNat b 20 10) (be16 b 30) (bit (byteAt b 6) 1)
    (if kind = 9 then body - corr else body + corr).toNat data

/-- ESMC_RECEIVE (R228, R386). -/
def Dev.esmcReceive (d : Dev) (p ql : Nat) : Dev :=
  if d.rf .TL_CFG 7 1 = 1 && p = d.rf .TL_CFG 4 3 && (d.fh p).link then
    { d with tl := { d.tl with esmcQl := some ql } }
  else d

/-- The quality level of an ESMC frame's payload `b`: that of the extended TLV where it gives one (ITU-T G.8264; log
entry 192). -/
def esmcQl (b : List Byte) : Nat :=
  if byteAt b 14 = 2 && byteAt b 17 != 0xFF then byteAt b 17 else byteAt b 13 % 16

/-- The quality levels SyncE is used under: PRC, SSU-A, PRTC and ePRTC, as their codes of ITU-T G.8264 (R228). -/
def goodQl (ql : Nat) : Bool := ql = 0x02 || ql = 0x04 || ql = 0x20 || ql = 0x21

/-- TL_STATUS.SYNCE_OK (R228). -/
def Dev.synceOk (d : Dev) : Bool :=
  d.tlSrc = 1 && d.rf .TL_CFG 7 1 = 1 && (d.fh (d.rf .TL_CFG 4 3)).link && (match d.tl.esmcQl with
    | some q => goodQl q
    | none => false)

/-- One eCPRI message of a frame: type, its payload, and whether its frame was concatenated. -/
structure Ecpri where
  typ : Nat
  data : List Byte
  concat : Bool
  deriving DecidableEq, Repr

/-- The messages of an eCPRI frame (R387); none where the revision is unknown or a size disagrees with the frame. -/
def ecpriSplit : Nat → List Byte → Bool → Bool → Option (List Ecpri)
  | 0, _, _, _ => none
  | fuel + 1, b, short, first =>
    let size := be16 b 2
    let more := byteAt b 0 % 2 = 1
    let m : Ecpri := { typ := byteAt b 1, data := (b.drop 4).take size, concat := more || !first }
    if b.length < 4 + size || byteAt b 0 / 16 != 1 then none
    else if more then (ecpriSplit fuel (b.drop (alignUp (4 + size) 4)) short false).map (m :: ·)
    else if short || b.length = 4 + size then some [m] else none

/-- A field of a flow entry (R388). -/
def flowF (w byte lo len : Nat) : Nat := fld w (8 * byte + lo) len

/-- The eAxC identifier and the sequence byte of a message (R388, R389). -/
def Ecpri.eaxc (m : Ecpri) : Nat := be16 m.data 0
def Ecpri.seq (m : Ecpri) : Nat := byteAt m.data 2

/-- The context a flow entry names, armed as FH_IN and not stopped in FAULT (R212). -/
def Dev.flowCtx (d : Dev) (w : Nat) : Option Nat :=
  let n := 256 + flowF w 8 0 5
  if (d.ctx n).st != .idle && (d.ctx n).st != .fault && (d.ctx n).desc.kind = 3 then some n else none

/-- The first flow entry that matches a message (R388). -/
def Dev.flowMatch (d : Dev) (p : Nat) (e : Eth) (m : Ecpri) : Option (Nat × Nat) :=
  d.ports.flows.find? (fun (x : Nat × Nat) =>
    let w := x.2
    let mask := flowF w 6 0 16
    !e.two && flowF w 0 3 1 = 1 && flowF w 0 0 3 = p && flowF w 1 0 8 = m.typ
      && (if flowF w 0 4 1 = 1 then e.vid = some (flowF w 2 0 12) else e.vid.isNone)
      && (m.eaxc &&& mask) = (flowF w 4 0 16 &&& mask) && (d.flowCtx w).isSome)

/-- EARLY and LATE of a type 0 message against its entry's window (R390). -/
def Dev.windowFlags (d : Dev) (ct w arrival : Nat) (m : Ecpri) : Bool × Bool :=
  let lo := sx 16 (flowF w 12 0 16)
  let hi := sx 16 (flowF w 14 0 16)
  if m.typ != 0 || hi ≤ lo then (false, false)
  else
    let n := d.numer ct
    let b6 := byteAt m.data 6
    let b7 := byteAt m.data 7
    let slot := b6 / 16 * n.spsf + (b6 % 16 * 4 + b7 / 64)
    let c := carrierTime arrival (d.ctOfs ct)
    let f0 := frameOf c
    let up := ((byteAt m.data 5 : Int) - f0) % 256
    let start (f : Int) : Int := f * frameTc + n.start slot (b7 % 64)
    let s1 := start (f0 + up)
    let s0 := start (f0 + up - 256)
    let s := if c - s0 ≤ s1 - c then s0 else s1
    (c < s + 256 * lo, s + 256 * hi < c)

/-- A record of the layout of R209, padded to a multiple of 64 bytes. -/
def fhRecord (ts port flags tag : Nat) (data : List Byte) : List Byte :=
  let b := leBytes 8 ts ++ leBytes 2 data.length ++ leBytes 1 port ++ leBytes 1 flags ++ leBytes 4 tag ++ data
  padTo (alignUp b.length 64) b

/-- Base of the pass buffer of pass `k` (R209, R394). -/
def Desc.passBase (s : Desc) (k : Int) : Nat :=
  unsx 64 ((s.base : Int) + k % (s.counts.getD 0 1 : Int) * s.strides.getD 0 0)

/-- A matched message written to its context, or dropped (R209, R389–R391). -/
def Dev.fhWrite (d : Dev) (p arrival i w n : Nat) (e : Eth) (m : Ecpri) : Dev :=
  let c := d.ctx n
  let gap := match tfind d.ports.lastSeq i with
    | some s => m.seq != (s + 1) % 256
    | none => false
  let d : Dev := { d with ports := { d.ports with lastSeq := tset d.ports.lastSeq i m.seq } }
  let size := alignUp (16 + m.data.length) 64
  if c.desc.esize < 16 + m.data.length then d.fhDrop p 3
  else match c.pass with
    | none => d.fhDrop p 4
    | some k =>
      if c.desc.passBytes < c.frontier + size then d.fhDrop p 4
      else
        let (early, late) := d.windowFlags c.desc.ct w arrival m
        let tag := m.eaxc + 2 ^ 16 * m.seq
          + 2 ^ 24 * (if m.typ = 0 then byteAt m.data 7 % 64 else 0)
          + 2 ^ 30 * (if m.typ = 0 then 0 else if m.typ = 2 then 1 else 2)
        let flags := b2n e.vid.isSome + 2 * b2n m.concat + 4 * b2n early + 8 * b2n late + 16 * b2n gap
        let a := (c.desc.passBase k + c.frontier) % 2 ^ 64
        let rec_ := fhRecord arrival p flags tag m.data
        let d := d.setCtx n { c with frontier := c.frontier + size, prog := c.prog + 1 }
        let d := if d.isLocal a then d.hubWrite n (globalLocal a) rec_
          else d.sendXfer n 0 a rec_.length rec_ (.fhIn n c.armed) (fun d => d.streamFault n 2 a)
        let d := d.bump .PRT_FH_CNT_RX p
        let d := if early || late then d.bump .PRT_FH_CNT_WIN p else d
        d.forkPush n arrival (globalLocal a) size rec_

/-- A frame that matches no entry is counted, and goes to the exception ring or is dropped (R391, R392). -/
def Dev.exception (d : Dev) (p arrival : Nat) (b : List Byte) : Dev :=
  match d.ports.exc with
  | none => d.fhDrop p 2
  | some (size, base, widx) =>
    let r := fhRecord arrival p (b2n (ethOf b).vid.isSome) (3 * 2 ^ 30) b
    if 2048 < b.length || size < r.length || Config.excFull d.ports.excIdx r.length then d.fhDrop p 2
    else
      let i := d.ports.excIdx % size
      let fst := r.take (size - i)
      let idx := d.ports.excIdx + r.length
      let d := ((d.hubWrite 0x145 (base + i) fst).hubWrite 0x145 base (r.drop (size - i))).hubWrite 0x145 widx
        (leBytes 8 idx)
      Dev.bump { d with ports := { d.ports with excIdx := idx } } .PRT_FH_CNT_DROP p

/-- The messages of a frame in order: those that match are written; where none matches, the frame goes to the exception
ring. -/
def Dev.ecpri (d : Dev) (p arrival : Nat) (b : List Byte) (e : Eth) : Dev :=
  match ecpriSplit 4096 (b.drop e.off) (b.length ≤ 60 || (e.vid.isSome && b.length ≤ 64)) true with
  | none => d.fhDrop p 5
  | some ms =>
    if ms.all (fun m => (d.flowMatch p e m).isNone) then d.exception p arrival b
    else ms.foldl (fun d m =>
      match d.flowMatch p e m with
      | some (i, w) =>
        match d.flowCtx w with
        | some n => d.fhWrite p arrival i w n e m
        | none => d.fhDrop p 2
      | none => d.fhDrop p 2) d

/-- FRAME_RECEIVED: a frame from the destination address without its FCS, its first byte `lag` Tc ago. -/
def Dev.frameReceived (d : Dev) (p lag : Nat) (fcsOk : Bool) (b : List Byte) : Dev :=
  let x := d.fh p
  let e := ethOf b
  let arrival := d.time - lag
  if !(x.st = .up || x.st = .upGated) || !fcsOk then d
  -- A frame above 9,216 bytes and a pause or PFC frame are dropped and counted; no reason of R391 names them (log entry 77).
  else if 9212 < b.length then d.fhDrop p (Config.lastDrop 0 % 16)
  else if e.typ = 0x8808 then d.fhDrop p (Config.lastDrop 1 % 16)
  else
    let d := if x.st = .upGated && d.timeLocked then (d.setFh p { x with st := .up }).portEvent (srcFh p) 2 0 0 else d
    let esmc := e.typ = 0x8809 && byteAt b e.off = 0x0A
    if isPtp b e then
      if p != d.rf .TL_CFG 4 3 then d.fhDrop p 6
      else if d.ptpMine b e then
        let o := if e.typ = 0x88F7 then e.off
          else if e.typ = 0x0800 then e.off + byteAt b e.off % 16 * 4 + 8 else e.off + 48
        d.ptpFrame p lag (b.drop o)
      else d.fhDrop p 6
    else if esmc then d.esmcReceive p (esmcQl (b.drop e.off))
    else if (d.fh p).st = .upGated then d.fhDrop p 1
    else if e.typ = 0xAEFE then d.ecpri p arrival b e
    else d.exception p arrival b

/-! ### FH_IN passes (R209, R210, R219–R221) -/

/-- A member that has to be dropped (R220): for each, its cause. -/
def Dev.lagCause (d : Dev) (n m : Nat) (overwrite : Option (Nat × Nat)) : Option Nat :=
  let c := d.ctx n
  let x := c.members.getD m {}
  let (dev, k) := c.desc.members.getD m (0, 0)
  -- Of a READ source an element whose read has been issued and has not arrived counts too (R220).
  let wait : Option Elem := if c.desc.kind = 0 && x.joined then c.issueTs.head?.map (fun t =>
    { no := c.elemCount, ts := t, addr := globalLocal (c.desc.addr c.prog), len := c.desc.esize }) else none
  match (c.elems.find? (fun e => x.joined && x.next ≤ e.no)).or wait with
  | none => none
  | some e =>
    let path := d.pathFrozen dev e || (c.desc.kind = 0 && e.data = [] && d.memFrozen e.addr e.len)
    if c.desc.slack * (subframeTc / 2 ^ (d.numer c.desc.ct).mu) < d.time - e.ts then
      some (if path then 2 else 0)
    else match overwrite with
      | some (a, len) => if a ≤ e.addr && e.addr < a + len && k < 256 then some 1 else none
      | none => none

/-- FORK_MEMBER_DROP: every member of source `n` whose lag exceeds its SLACK is dropped. -/
def Dev.lagDrops (d : Dev) (n : Nat) (overwrite : Option (Nat × Nat)) : Dev :=
  (upTo (d.ctx n).members.length).foldl (fun d m =>
    match d.lagCause n m overwrite with
    | some cause => d.dropMember n m cause
    | none => d) d

/-- FH_IN_PASS_ADVANCE: the pass of the slot that has begun takes over, and members join or rejoin. -/
def Dev.fhInAdvance (d : Dev) (f : Nat) : Dev :=
  let n := 256 + f
  let c := d.ctx n
  let k := d.slotNumber c.desc.ct d.time
  let newer := match c.pass with
    | some q => decide (q < k)
    | none => decide ((c.firstPass : Int) ≤ d.slotStart c.desc.ct k)
  if c.st = .idle || c.st = .fault || c.desc.kind != 3 || !newer then d
  else
    let buf (k : Int) : Nat := (k % (c.desc.counts.getD 0 1 : Int)).toNat
    let d := d.lagDrops n (some (globalLocal (c.desc.passBase k), c.desc.passBytes))
    let c := d.ctx n
    let ended := match c.pass with
      | some q => tset c.ended (buf q) c.frontier
      | none => c.ended
    (d.setCtx n { c with pass := some k, frontier := 0, prog := 0, ended := tdrop ended (buf k) }).beginPass n

/-! ### Egress (R393–R395) -/

/-- The records of a pass buffer of `size` bytes `bs` from offset `off`, where `bad` finds poison in a part of it: frames, and
what ended the buffer, with its offset and header word (R393). -/
def readRecords (n size : Nat) (bs : List Byte) (bad : Nat → Nat → Bool) :
    Nat → Nat → List OutFrame → List OutFrame × Option (Bool × Nat × Nat)
  | 0, _, acc => (acc, none)
  | fuel + 1, off, acc =>
    let f (k len : Nat) : Nat := getLe bs (off + k) len
    if size < off + 64 then (acc, none)
    else if bad off 64 then (acc, some (true, off, 0))
    else
      let len := f 8 2
      if len = 0 then (acc, none)
      else if len < 60 || 9212 < len || 8 ≤ f 10 1 || 2 ≤ f 11 1 || f 12 4 != 0 || size < off + 16 + len then
        (acc, some (false, off, f 8 4))
      else if bad off (16 + len) then (acc, some (true, off, 0))
      else
        let r : OutFrame := {
          ctx := n, send := f 0 8, port := f 10 1, dropLate := f 11 1 = 1, data := slice bs (off + 16) len }
        readRecords n size bs bad fuel (off + alignUp (16 + len) 64) (acc ++ [r])

/-- The frames of a pass buffer at global address `base` join the egress queue and are presented at Tollgate 53 (R393,
R395). -/
def Dev.queueRecords (d : Dev) (n base : Nat) (bs : List Byte) (bad : Nat → Nat → Bool) : Dev :=
  let (fs, stop) := readRecords n bs.length bs bad (bs.length / 64 + 1) 0 []
  let d : Dev := { d with ports := { d.ports with outq := d.ports.outq ++ fs } }
  let d := fs.foldl (fun d _ => d.present 53 n none) d
  let at_ (off : Nat) : Nat := globalLocal ((base + off) % 2 ^ 64)
  match stop with
  | none => d
  | some (true, off, _) => d.streamFault n 0 (at_ off)
  | some (false, off, w) => d.logNow srcPackage 0x0006 [(4, at_ off % 2 ^ 32), (4, w)]

/-- A part of FH_OUT context `n`'s pass buffer that lies on a peer has come; once all have, its records are read (R29,
R394). -/
def Dev.fhOutPart (d : Dev) (n arm : Nat) (k : Int) (off : Nat) (poison : Bool) (bs : List Byte) : Dev :=
  let c := d.ctx n
  if c.armed != arm || c.st = .idle || c.st = .fault || c.pass != some k then d
  else
    let parts := c.arrived ++ [(off, poison, bs)]
    if parts.foldl (fun s p => s + p.2.2.length) 0 < c.desc.passBytes then d.setCtx n { c with arrived := parts }
    else
      let all := (upTo parts.length).flatMap (fun i => ((tfind parts (65536 * i)).map (·.2)).getD [])
      (d.setCtx n { c with arrived := [] }).queueRecords n (c.desc.passBase k) all
        (fun o len => parts.any (fun p => p.2.1 && p.1 < o + len && o < p.1 + p.2.2.length))

/-- The pass of FH_OUT context `n` ends, if all of its records have joined the egress queue; a held re-arm takes effect
(R159, R211; log entry 196). -/
def Dev.fhOutEnd (d : Dev) (n : Nat) : Dev :=
  if (d.ctx n).moves && d.passDone n then
    let d := d.endPass n
    match (d.ctx n).rearm with
    | some b => if (d.ctx n).st = .passEnd then d.rearmNow n b else d
    | none => d
  else d

/-- FH_OUT_PASS_READ: at the boundary of slot k − 2, context F`f` reads pass buffer k, if a pass is armed: a pass that has
ended is followed by another only after a re-arm (R211, R394; log entry 196). -/
def Dev.fhOutRead (d : Dev) (f : Nat) : Dev :=
  let n := 256 + f
  let d := d.fhOutEnd n
  let c := d.ctx n
  let s := d.slotNumber c.desc.ct d.time
  let newer := match c.pass with
    | some q => decide (q < s + 2)
    | none => decide ((c.firstPass : Int) ≤ d.slotStart c.desc.ct s)
  if !c.moves || c.desc.kind != 4 || !newer || c.issued != 0 || !d.timeLocked then d
  else
    let c : Ctx := { c with pass := some (s + 2), arrived := [], issued := 1 }
    let d := d.setCtx n c
    let base := c.desc.passBase (s + 2)
    let size := c.desc.passBytes
    if d.isLocal base then
      let a := globalLocal base
      let (bs, d) := d.hubRead n a size
      d.queueRecords n base bs (fun off len => d.poisoned (a + off) len)
    else
      (upTo ((size + 65535) / 65536)).foldl (fun d i =>
        let len := min 65536 (size - 65536 * i)
        d.sendXfer n 1 ((base + 65536 * i) % 2 ^ 64) len [] (.fhOut n c.armed (s + 2) (65536 * i))
          (fun d => d.streamFault n 2 base)) d

/-- The frame that leaves next on port `p`: the first of its context, in SEND order. -/
def Dev.nextOut (d : Dev) (p : Nat) : Option OutFrame :=
  let q := d.ports.outq
  let firsts := q.filter (fun f => (q.find? (fun g => g.ctx = f.ctx)) = some f && f.port = p)
  firsts.foldl (fun (b : Option OutFrame) f => match b with
    | some g => if f.send < g.send then some f else b
    | none => some f) none

/-- Time a frame and its gap take on a port, in Tc: preamble, FCS and gap are 24 bytes. -/
def frameTcOf (len rate : Nat) : Nat := (8 * (len + 24) * 196608 + rate * 100000 - 1) / (rate * 100000)

/-- FH_OUT_FRAME_SEND: the next frame of port `p` leaves, or is judged late. -/
def Dev.fhOutSend (d : Dev) (p : Nat) : Dev :=
  match d.nextOut p with
  | none => d
  | some f =>
    let x := d.fh p
    let up := x.st = .up
    let late := f.send != 0 && f.send + 1966 < max d.time x.busyTo
    let gone : Dev := { d with ports := { d.ports with outq := d.ports.outq.erase f } }
    if late && f.dropLate then gone.bump .PRT_FH_CNT_TXLATE p
    else if !up || !f.granted || d.time < x.busyTo || d.time + 8 < f.send then d
    else
      let gone := if late then gone.bump .PRT_FH_CNT_TXLATE p else gone
      let rate := (d.fhRate p).getD 25
      (gone.setFh p { x with busyTo := d.time + frameTcOf f.data.length rate }).emit (.fhFrame p f.data)

/-- ESMC_SEND: every port whose link is up sends quality level DNU (R386). -/
def Dev.esmcSend (d : Dev) : Dev :=
  (upTo 8).foldl (fun d p => if (d.fh p).link then d.emit (.esmc p 0xF) else d) d

/-! ### Modules (R405–R407) -/

/-- MODULE_INSERTION: on an empty bus the module is reset and INIT is shown; then the device reads the identifier byte and the
rates the module advertises, which select its management and its Application, or finds no answer (R405, R406; log entry
209). -/
def Dev.modInsert (d : Dev) (m : Nat) (found : Option (Nat × List Nat)) : Dev :=
  let x := d.mod m
  if x.st = 0 then (d.setMod m { st := 1, resetN := false, lpMode := true }).portEvent (srcMb m) 4 0 0
  else if x.st != 1 then d
  else match found with
    | none => (d.setMod m { x with st := 3, resetN := true }).modLog m 2 0 0
    | some (ident, rates) => (d.setMod m { x with ident, rates }).modSelect m

/-- MODULE_REMOVAL. -/
def Dev.modRemove (d : Dev) (m : Nat) : Dev :=
  if (d.mod m).st = 0 then d else (d.setMod m {}).portEvent (srcMb m) 5 0 0

/-- MODULE_INTERRUPT. -/
def Dev.modInterrupt (d : Dev) (m found byte page : Nat) : Dev :=
  if (d.mod m).st = 0 then d else d.modFlags m found byte page

/-- MODULE_POLL; suspended while a CDB command is outstanding. -/
def Dev.modPoll (d : Dev) (m found byte page : Nat) : Dev :=
  let x := d.mod m
  let held := match x.cdbTo with
    | some t => decide (d.time < t)
    | none => false
  if x.st = 0 || held then d else Dev.modFlags (d.setMod m { x with cdbTo := none }) m found byte page

/-! ### The host link (R379) -/

/-- HOST_LINK_TRAINED at `rate` GT/s and `width` lanes. -/
def Dev.hostTrained (d : Dev) (rate width : Nat) : Dev :=
  if d.cp.perst || !bit d.cp.clocks 1 then d else
  let rate := if bit d.cp.straps 2 then min 32 rate else rate
  let d : Dev := { d with ports := { d.ports with host := some (rate, width) } }
  if rate < 64 || width < 16 then
    (d.logNow srcHost 0x0902 [(1, rate), (1, width)]).portEvent srcHost 3 0 0
  else d

end Sys2Proof.Machine
end

