-- ==== Sys2Proof/Machine/Peers.lean ====
section
/-!
DEFINITION. Peer ports (R396–R404): training and conflicts, requests served for other devices, completions of this device's
transfers, fork elements and credit, Roadbook messages, and time comparisons.
-/
namespace Sys2Proof.Machine

/-! ### Conflicts and training (R396, R397) -/

/-- A port whose link carries transfers. -/
def Dev.peerLive (d : Dev) (p : Nat) : Bool := (d.peer p).st = .up || (d.peer p).st = .conflict

/-- A port is in conflict with this device or with another port (R397). -/
def Dev.peerClash (d : Dev) (p : Nat) : Bool :=
  let x := d.peer p
  match x.pdev with
  | none => false
  | some n => d.devnum = some n || (upTo 4).any (fun q =>
      q != p && d.peerLive q && (d.peer q).pdev = some n && (d.peer q).puid != x.puid)

/-- A port enters DEVNUM_CONFLICT; what was in flight over it can no longer be delivered. -/
def Dev.enterConflict (d : Dev) (p : Nat) : Dev :=
  let x := d.peer p
  if x.st != .up then d
  else
    let n := x.pdev.getD 0
    let d := d.setPeer p { x with st := .conflict }
    let d : Dev := { d with peers := { d.peers with xfers := d.peers.xfers.map (fun t =>
      if t.port = p && t.since.isNone then { t with since := some d.time } else t) } }
    (d.logNow (srcPeer p) 0x0906 [(1, d.devnum.getD 0xFF), (1, n), (8, x.puid)]).portEvent (srcPeer p) 9 n 0

/-- Every port in conflict enters that state. -/
def Dev.checkConflicts (d : Dev) : Dev :=
  let bad := (upTo 4).filter (fun p => d.peerLive p && d.peerClash p)
  bad.foldl (fun d p => d.enterConflict p) d

/-- A link loss starts the 1 ms of a transfer over port `p` (R396). -/
def Dev.strand (d : Dev) (p : Nat) : Dev :=
  { d with peers := { d.peers with xfers := d.peers.xfers.map (fun t =>
      if t.port = p && t.since.isNone then { t with since := some d.time } else t) } }

/-- Fork members reached only through port `p` are dropped (R220, R463). -/
def Dev.dropPeerMembers (d : Dev) (dev : Nat) : Dev :=
  let d : Dev := { d with peers := { d.peers with xfers := d.peers.xfers.filter (fun t => t.typ != 5 || t.dev != dev) } }
  (d.str.ctxs.map (·.1)).foldl (fun d n =>
    (upTo (d.ctx n).members.length).foldl (fun d m =>
      let c := d.ctx n
      if (c.members.getD m {}).joined && (c.desc.members.getD m (0, 0)).1 = dev && dev != d.ownDev
      then d.dropMember n m 0 else d) (d.setCtx n { d.ctx n with batches := tdrop (d.ctx n).batches dev })) d

/-- Member `k` of this device, whose source `n` is on a peer, is dropped: it enters DROPPED and writes its gap record (R220,
R221). A member in FAULT leaves that only by a full arm (R212). -/
def Dev.remoteDrop (d : Dev) (k n cause first : Nat) : Dev :=
  let c := d.ctx k
  if c.st = .fault then d
  else (d.setCtx k { c with st := .dropped, joined := false }).gapRecord n k first (2 ^ 64 - 1) 0 cause

/-- Members of this device whose source is on `dev` are dropped: they enter DROPPED and write their gap records (R221,
R463). -/
def Dev.dropOurMembers (d : Dev) (dev : Nat) : Dev :=
  (d.str.ctxs.map (·.1)).foldl (fun d k =>
    let c := d.ctx k
    match c.source with
    | some (n, req, _) =>
      if n = dev && c.joined && c.desc.kind = 2 && (c.st = .active || c.st = .waitSpace || c.st = .passEnd) then
        -- The instant of the first element not delivered is the source's: open where the link to it is lost (log entry 197).
        let (f, d) := d.fresh
        d.remoteDrop k req 0 (Config.openResult 0x221 [f] % 2 ^ 64)
      else d
    | none => d) d

/-- No port leads to device `dev` any more: fork members on either side are dropped (R220, R463). -/
def Dev.loseDevice (d : Dev) (dev : Nat) : Dev :=
  if (d.portTo dev).isNone then (d.dropPeerMembers dev).dropOurMembers dev else d

/-- A peer link falls and retrains. -/
def Dev.peerFall (d : Dev) (p : Nat) : Dev :=
  let x := d.peer p
  if !d.peerLive p then d
  else
    let d := (d.setPeer p { st := .training }).strand p
    match x.pdev with
    | some n => d.loseDevice n
    | none => d

/-- LINK_DOWN of a peer port. -/
def Dev.peerLinkDown (d : Dev) (p reason : Nat) : Dev :=
  if d.peerLive p then
    ((d.peerFall p).logNow (srcPeer p) 0x0901 [(1, reason)]).portEvent (srcPeer p) 0 0 0
  else d

/-- PEER_TRAINING_DONE: what the partner reports; transfers in flight are replayed (R396). -/
def Dev.peerTrained (d : Dev) (p pport : Nat) (pdev : Option Nat) (puid : Nat) : Dev :=
  if (d.peer p).st != .training || !bit d.cp.clocks 3 then d
  else
    let d := d.setPeer p { st := .up, pport, pdev, puid }
    let d := (d.portEvent (srcPeer p) 1 0 0).checkConflicts
    -- A port in conflict sends no transfer (R397).
    if (d.peer p).st != .up then d
    else
      let mine := d.peers.xfers.filter (fun t => t.port = p && t.sent && !t.held && t.retryAt.isNone)
      let d : Dev := { d with peers := { d.peers with xfers := d.peers.xfers.map (fun t =>
        if t.port = p && t.retryAt.isNone then { t with since := none } else t) } }
      (mine.foldl (fun d t => d.sendAgain t) d).releaseHeld

/-- PEER_DEVNUM_EXCHANGE: the partner reports its newly valid DEVNUM. -/
def Dev.peerExchange (d : Dev) (p dev : Nat) : Dev :=
  if (d.peer p).st = .up then (d.setPeer p { d.peer p with pdev := some dev }).checkConflicts else d

/-- PEER_FRAME_REPLAY: replay number `k` of a frame (R396). -/
def Dev.peerReplay (d : Dev) (p k : Nat) : Dev :=
  if !d.peerLive p then d
  else
    let d := (d.setPeer p { d.peer p with replays := k }).bump .PRT_PEER_CNT_REPLAY p
    if 8 ≤ k then d.peerFall p else d

/-- A peer port is enabled; with PEER_EN high it may not be (R438). -/
def Dev.enablePeer (d : Dev) (p : Nat) : Dev :=
  let x := d.peer p
  if x.st = .down then d.setPeer p { st := .training }
  else if x.st = .shutdown then d.setPeer p { x with st := .shutdownRestart }
  else d

/-- A peer port is disabled. -/
def Dev.disablePeer (d : Dev) (p : Nat) : Dev :=
  let x := d.peer p
  if x.st = .down then d else d.setPeer p { x with st := .shutdown }

/-- A disabled peer port reaches its safe point. -/
def Dev.peerSafe (d : Dev) (p : Nat) : Dev :=
  let x := d.peer p
  let fall (st : PeerState) : Dev :=
    let d := (d.setPeer p { st }).strand p
    match x.pdev with
    | some n => d.loseDevice n
    | none => d
  if x.st = .shutdown then fall .down else if x.st = .shutdownRestart then fall .training else d

/-! ### Frames that arrive (R398–R401) -/

/-- A frame for another DEVNUM or of an invalid TYPE is discarded and logged. -/
def Dev.misroute (d : Dev) (p : Nat) (h : PHdr) : Dev :=
  d.logNow (srcPeer p) 0x0005 [(8, getLe (hdrBody h) 0 8), (8, getLe (hdrBody h) 8 8)]

/-- A reply to a frame: its TAG comes back. -/
def Dev.reply (d : Dev) (p typ : Nat) (h : PHdr) (status retry : Nat) (poison : Bool) (data : List Byte) : Dev :=
  d.sendFrame p { d.hdr typ h.src h.tag data.length h.addr h.req with status, retry, poison } data

/-- A request refused (R401); the manual gives no retry-after (log entry 180). -/
def Dev.notReady (d : Dev) (p : Nat) (h : PHdr) : Dev :=
  let (k, d) := d.fresh
  d.reply p 9 h 3 (Config.freeNat k % 2 ^ 16) false []

/-- The requests a device answers with NOT_READY for now. -/
def Dev.refusesPeers (d : Dev) (p : Nat) : Bool := d.devnum.isNone || !d.cp.ready || (d.peer p).st = .conflict

/-- A disabled port on its way to its safe point: what is in flight over it completes (R358). -/
def Dev.peerClosing (d : Dev) (p : Nat) : Bool := (d.peer p).st = .shutdown || (d.peer p).st = .shutdownRestart

/-- A frame of TYPE `typ` on port `p`: discarded where it is not for this device; a request may be refused. -/
def Dev.peerIn (d : Dev) (p typ : Nat) (request : Bool) (h : PHdr) (f : Dev → Dev) : Dev :=
  if !d.peerLive p && !(d.peerClosing p && (typ = 2 || typ = 4)) then d
  else if 9 < h.typ then d.misroute p h
  else if h.typ != typ then d
  else if request && d.refusesPeers p then d.notReady p h
  -- Until its DEVNUM is valid the device counts 0 as its own (R29), so its own transfers complete.
  else if d.ownDev != h.dst then d.misroute p h
  else f d

/-- Access to memory before it is usable (R443): the first one is logged. -/
def Dev.earlyLog (d : Dev) (who a : Nat) : Dev :=
  if d.cp.earlyLogged then d
  else ({ d with cp := { d.cp with earlyLogged := true } } : Dev).logNow (srcOfReq who) 0x0003 [(8, a), (2, who)]

/-- The engine whose SRAM window holds `a`. -/
def sramEngine (a : Nat) : Nat := (a - 0x7800000000) / 0x800000

/-- A peer's access at `a` is not served yet: DRAM is not ready, or the engine's region is not (R443). -/
def Dev.peerEarly (d : Dev) (a : Nat) : Bool :=
  if isSram a then !bit d.cp.regions (sramEngine a / 4) else isDram a && !d.cp.dramReady

/-- PEER_WRITE (R400). -/
def Dev.peerWrite (d : Dev) (p : Nat) (h : PHdr) (data : List Byte) : Dev :=
  d.peerIn p 0 true h (fun d =>
    let a := globalLocal h.addr
    let who := 0x141 + p
    if d.peerEarly a then (d.earlyLog who a).reply p 4 h 0 0 false []
    else
      let d := d.hubWrite who a data
      let d := if h.poison then
          let bs := (upTo ((a % 256 + data.length + 255) / 256)).map (blockOf a + ·)
          { d with str := { d.str with poison := bs.filter (fun b => b * 256 < dramEnd && !d.str.poison.contains b)
              ++ d.str.poison } }
        else d
      d.reply p 4 h (b2n (!usableRange a data.length)) 0 false [])

/-- PEER_READ (R400, R443, R460); `ue` is the SRAM offset of a double-bit error it finds. -/
def Dev.peerRead (d : Dev) (p : Nat) (h : PHdr) (ue : Option Nat) : Dev :=
  d.peerIn p 1 true h (fun d =>
    let a := globalLocal h.addr
    let who := 0x141 + p
    let ones := List.replicate h.len 0xFF#8
    if d.peerEarly a then (d.earlyLog who a).reply p 2 h 0 0 false ones
    else match isSram a, ue with
      | true, some off => (d.sramUe ((a - 0x7800000000) / 0x800000) off).reply p 2 h 0 0 true ones
      | _, _ =>
        let (bs, d) := d.hubRead who a h.len
        d.reply p 2 h 0 0 (d.poisoned a h.len) bs)

/-- PEER_ADD (R207, R400). -/
def Dev.peerAdd (d : Dev) (p : Nat) (h : PHdr) (data : List Byte) : Dev :=
  d.peerIn p 3 true h (fun d =>
    let a := globalLocal h.addr
    let who := 0x141 + p
    if d.peerEarly a then (d.earlyLog who a).reply p 4 h 0 0 false []
    else if !usableRange a 8 then (d.logReserved who a 8).reply p 4 h 1 0 false []
    else if d.poisoned a 8 then d.reply p 4 h 2 0 false []
    else (d.hubWrite who a (leBytes 8 ((d.rdLe a 8 + getLe data 0 8) % 2 ^ 64))).reply p 4 h 0 0 false [])

/-! ### This device's transfers -/

/-- The transfer a completion belongs to. -/
def Dev.xferOf (d : Dev) (p tag : Nat) (typs : List Nat) : Option Xfer :=
  d.peers.xfers.find? (fun t => t.port = p && t.tag = tag && typs.contains t.typ)

def Dev.dropXfer (d : Dev) (t : Xfer) : Dev := { d with peers := { d.peers with xfers := d.peers.xfers.erase t } }

/-- The queued SIGNAL of an engine's task word. -/
def Dev.sigOf (d : Dev) (e num : Nat) : Option SigEntry := (d.eng e).sigq.find? (fun q => q.num = num)

/-! ### COPY with a peer (R29, R400, R424) -/

/-- Job number `num` of the CP. -/
def Dev.jobOf (d : Dev) (num : Nat) : Option Job := d.cp.jobs.find? (fun j => j.num = num)

/-- Job `j` in another state. -/
def Dev.setJob (d : Dev) (j k : Job) : Dev :=
  { d with cp := { d.cp with jobs := d.cp.jobs.map (fun x => if x = j then k else x) } }

/-- One transfer of COPY `num` has failed; once none is outstanding the COPY ends in FAULTED. -/
def Dev.copyFails (d : Dev) (num : Nat) : Dev :=
  match d.jobOf num with
  | some j =>
    let k : Job := { j with left := j.left - 1, bad := true }
    if k.left = 0 then (d.setJob j k).endJob k stFaulted else d.setJob j k
  | none => d

/-- One WRITE of COPY `num` is acknowledged; with the last the COPY is complete (R400). -/
def Dev.copyWritten (d : Dev) (num : Nat) : Dev :=
  match d.jobOf num with
  | some j =>
    let k : Job := { j with left := j.left - 1 }
    if k.left = 0 then (d.setJob j k).endJob k (if k.bad then stFaulted else stOk) else d.setJob j k
  | none => d

/-- Transfers of at most 64 KiB for the `len` bytes of job `j` at global address `a` (R399): READs, or WRITEs of `bs`. -/
def Dev.copySend (d : Dev) (j : Job) (reads : Bool) (a len : Nat) (bs : List Byte) : Dev :=
  let n := (len + 65535) / 65536
  (upTo n).foldl (fun d i =>
    let off := 65536 * i
    d.sendXfer 0x145 (if reads then 1 else 0) (a + off) (min 65536 (len - off)) ((bs.drop off).take 65536)
      (.cp j.num off) (fun d => d.copyFails j.num)) (d.setJob j { j with left := n, reads, parts := [] })

/-- The data of COPY `j` reach their destination: the host, this device's memory, or a peer. -/
def Dev.copyStore (d : Dev) (j : Job) (bs : List Byte) : Dev :=
  let dst := j.f 16 8
  if j.f 0 1 = 1 then (d.emit (.hostWrite dst bs)).endJob j stOk
  else if d.isLocal dst then (d.hubWrite 0x145 (globalLocal dst) bs).endJob j stOk
  else d.copySend j false dst bs.length bs

/-- The data of one READ of COPY `num` have come; with the last they go on to their destination. -/
def Dev.copyArrived (d : Dev) (num off : Nat) (bs : List Byte) : Dev :=
  match d.jobOf num with
  | some j =>
    let k : Job := { j with left := j.left - 1, parts := j.parts ++ [(off, bs)] }
    let d := d.setJob j k
    if 0 < k.left then d
    else if k.bad then d.endJob k stFaulted
    else d.copyStore k (padTo (k.f 24 8) ((upTo k.parts.length).flatMap (fun i => (tfind k.parts (65536 * i)).getD [])))
  | none => d

/-! ### Completions (R400, R401) -/

/-- What the requester of a failed transfer sees (R400, R401). -/
def Dev.xferFails (d : Dev) (t : Xfer) : Dev :=
  let fault (n arm : Nat) : Dev :=
    if (d.ctx n).armed = arm && (d.ctx n).st != .idle && (d.ctx n).st != .fault then d.streamFault n 2 t.addr else d
  match t.for_ with
  | .stream n arm _ _ => fault n arm
  | .fhIn n arm => fault n arm
  | .fhOut n arm _ _ => fault n arm
  | .signal e num =>
    match d.sigOf e num with
    | some q => d.signalFails e q
    | none => d
  | .fence e _ => d.taskError e errAddr 0x0C (d.eng e).pc
  | .arm e num => d.armFails e num
  | .cp num _ => d.copyFails num
  -- The members it was for are reached no more (R463).
  | .fork mask _ => (upTo 8).foldl (fun d m =>
      if bit mask m && ((d.ctx t.req).members.getD m {}).joined then d.dropMember t.req m 0 else d) d

/-- PEER_READ_DATA (R196, R400). -/
def Dev.peerReadData (d : Dev) (p : Nat) (h : PHdr) (data : List Byte) : Dev :=
  d.peerIn p 2 false h (fun d =>
    match d.xferOf p h.tag [1] with
    | none => d
    | some t =>
      let d := d.dropXfer t
      match t.for_ with
      | .stream n arm i _ =>
        if (d.ctx n).armed = arm && (d.ctx n).receives then d.remoteArrive n i h.poison data else d
      | .fhOut n arm k off => d.fhOutPart n arm k off h.poison data
      | .fence e num =>
        d.fenceRead e num (if h.poison then Config.openResult 0x10C [t.addr] % 2 ^ 64 else getLe data 0 8)
      | .arm e num => d.armArrived e num data
      | .cp num off => if h.poison then d.copyFails num else d.copyArrived num off data
      | .fhIn _ _ | .signal _ _ | .fork _ _ => d)

/-- PEER_ACK (R400). -/
def Dev.peerAck (d : Dev) (p : Nat) (h : PHdr) : Dev :=
  d.peerIn p 4 false h (fun d =>
    match d.xferOf p h.tag [0, 3] with
    | none => d
    | some t =>
      let d := d.dropXfer t
      if h.status != 0 then d.xferFails t
      else match t.for_ with
        | .stream n arm i k => if (d.ctx n).armed = arm && (d.ctx n).receives then d.writeFinish n i k else d
        | .signal e num =>
          match d.sigOf e num with
          | some q => d.signalDone e q
          | none => d
        | .cp num _ => d.copyWritten num
        | .fence _ _ | .fhIn _ _ | .fhOut _ _ _ _ | .arm _ _ | .fork _ _ => d)

/-- PEER_NOT_READY (R401): the transfer is sent again after RETRY µs. -/
def Dev.peerNotReady (d : Dev) (p : Nat) (h : PHdr) : Dev :=
  d.peerIn p 9 false h (fun d =>
    { d with peers := { d.peers with xfers := d.peers.xfers.map (fun t =>
        if t.port = p && t.tag = h.tag then
          { t with since := some (t.since.getD d.time), retryAt := some (d.time + usTc h.retry) } else t) } })

/-- PEER_RETRY of the transfer with tag `tag`; its requester's earlier ones go first (R400). -/
def Dev.peerRetry (d : Dev) (tag : Nat) : Dev :=
  match d.peers.xfers.find? (fun t => t.tag = tag && t.retryAt.any (· ≤ d.time)) with
  | some t =>
    if (d.peer t.port).st != .up || d.behind t then d
    else ((d.setXfer t { t with retryAt := none }).sendAgain t).releaseHeld
  | none => d

/-- PEER_TRANSFER_TIMEOUT of the transfer with tag `tag` (R396, R401). -/
def Dev.xferTimeout (d : Dev) (tag : Nat) : Dev :=
  match d.peers.xfers.find? (fun t => t.tag = tag && t.since.any (· + subframeTc ≤ d.time)) with
  | some t => (((d.dropXfer t).peerFail t.port t.req t.typ t.addr).xferFails t).releaseHeld
  | none => d

/-! ### Forks (R402) -/

/-- One element for a member of this device. -/
def Dev.forkElem (d : Dev) (k : Nat) (bs : List Byte) : Dev :=
  let d := d.noteCredit k
  match d.space k with
  | none => d.streamFault k 1 (ctxSram k + (d.ctx k).desc.credit)
  | some free =>
    if free < (d.ctx k).desc.esize then d.setCtx k { d.ctx k with st := .waitSpace }
    else d.placeFork k bs true

/-- Bytes of the element that a batch of source `req` begins with: a record of an FH_IN source has its LEN in it (R209), an
element of a READ source is as long as the members' are (R204, R219). -/
def forkSize (req esize : Nat) (bs : List Byte) : Nat := if 256 ≤ req then alignUp (16 + getLe bs 8 2) 64 else esize

/-- The elements of a batch of source `req` for context `k`, one after another. -/
def Dev.forkElems (d : Dev) (k req : Nat) : Nat → List Byte → Dev
  | 0, _ => d
  | fuel + 1, bs =>
    let size := forkSize req (d.ctx k).desc.esize bs
    if bs.length < size || size = 0 then d else (d.forkElem k (bs.take size)).forkElems k req fuel (bs.drop size)

/-- PEER_FORK: elements for the contexts `ks`, at the start of a pass of their source or within it. A context comes with what
its source notes of a drop or a rejoin (R220, R221; log entry 197): the cause, the timestamps of the first and last
elements missed, and their count. A note within a pass drops the member, one at the start of a pass lets it rejoin. -/
def Dev.peerFork (d : Dev) (p : Nat) (h : PHdr) (ks : List (Nat × Option (Nat × Nat × Nat × Nat))) (start : Bool)
    (data : List Byte) : Dev :=
  d.peerIn p 5 false h (fun d =>
    if (d.peer p).st != .up then d
    else ks.foldl (fun d x =>
      let (k, note) := x
      let c := d.ctx k
      let full : Bool := d.space k = some c.desc.bufsz
      let runs : Bool := c.st = .active || c.st = .waitSpace || c.st = .passEnd
      let begin (d : Dev) : Dev :=
        if start then (d.setCtx k { d.ctx k with prog := 0, joined := true, rearm := none, st := .active }).writeProg k else d
      -- A poisoned element ends the member's elements (R196, R399); the frame does not say at which block.
      let take (d : Dev) : Dev :=
        if h.poison then
          let (f, d) := d.fresh
          d.streamFault k 0 (Config.freeNat f % 2 ^ 64)
        else d.forkElems k h.req data.length data
      let src (d : Dev) : Dev := d.setCtx k { d.ctx k with source := some (h.src, h.req, h.members) }
      if c.desc.kind != 2 || !c.desc.persist then d
      else match note with
        | none => if runs then take (begin (src d)) else d
        | some (cause, first, last, missed) =>
          if !start then (if runs then (src d).remoteDrop k h.req cause first else d)
          else if c.st = .dropped && full then take ((begin (src d)).gapRecord h.req k first last missed cause)
          else d) d)

/-- CREDIT returned by a member whose source is on a peer: its free space has grown by 64 KiB, or its ring is empty. -/
def Dev.giveCredit (d : Dev) (k : Nat) : Dev :=
  let d := d.noteCredit k
  let c := d.ctx k
  match c.source, d.space k with
  | some (dev, n, bits), some free =>
    if c.credited + 65536 ≤ free || (free = c.desc.bufsz && c.credited < free) then
      match d.portTo dev with
      | some p =>
        (d.setCtx k { c with credited := free }).sendFrame p { d.hdr 6 dev 0 8 n k with members := bits } (leBytes 8 free)
      | none => d
    else d.setCtx k { c with credited := min c.credited free }
  | _, _ => d

/-- PEER_CREDIT: for members of sources here, their free bytes and whether their ring is empty. -/
def Dev.peerCredit (d : Dev) (p : Nat) (h : PHdr) (cs : List (Nat × Nat × Nat × Bool)) : Dev :=
  d.peerIn p 6 false h (fun d =>
    cs.foldl (fun d (x : Nat × Nat × Nat × Bool) =>
      let (n, m, free, empty) := x
      let c := d.ctx n
      if (c.desc.members.getD m (0, 0)).1 != h.src || c.members.length ≤ m then d
      else
        let x : Member := { c.members.getD m {} with space := free, heard := true, emptied := empty }
        Dev.feed (d.setCtx n { c with members := c.members.set m x }) n) d)

/-! ### Roadbook messages (R403, R419) -/

/-- The bytes of a message as the words of a command buffer. -/
def cmdWords (msg : List Byte) : Tbl Word :=
  (upTo ((msg.length + 3) / 4)).map (fun i => (i, BitVec.ofNat 32 (getLe msg (4 * i) 4)))

/-- PEER_MBX: a command for MBX6; responses and events are for no one here. What answers it goes to the device it came from,
by whichever port leads there (R419). -/
def Dev.peerMbx (d : Dev) (p : Nat) (h : PHdr) (msg : List Byte) : Dev :=
  d.peerIn p 7 true h (fun d =>
    let b := d.mb 6
    let v1 := b.ver = 1
    let op := if v1 then getLe msg 0 1 else getLe msg 0 2
    let seq := if v1 then getLe msg 2 2 else getLe msg 4 2
    if !v1 && bit (byteAt msg 2) 0 then d
    else if b.state = .busy then
      d.mbxSend h.src (respHeader v1 op stBusy seq (getLe msg 8 8) 4 ++ leBytes 4 10)
    else
      ({ d with peers := { d.peers with mbxDev := some h.src } } : Dev).setMb 6
        { b with cmd := cmdWords (msg.take 4096), state := .busy, rung := true })

/-- Messages of MBX6 that waited for a port, and its events, travel to the devices they are for, once a port leads there
(R419). -/
def Dev.forwardEvents (d : Dev) : Dev :=
  match d.peers.mbxDev with
  | none => d
  | some dev =>
    let (go, wait) := d.peers.mbxOut.partition (fun m => (d.portTo m.1).isSome)
    let d := go.foldl (fun d m => d.mbxSend m.1 m.2) { d with peers := { d.peers with mbxOut := wait } }
    let b := d.mb 6
    if b.evq = [] || (d.portTo dev).isNone then d
    else
      let d := b.evq.foldl (fun d e => d.mbxSend dev (respHeader false 0xFFFF 0 0 0 32 ++ e.bytes)) d
      d.setMb 6 { d.mb 6 with evq := [], cons := b.prod }

/-! ### Time comparison (R404) -/

/-- PEER_TIME_FRAME: a comparison begun by the partner is answered. -/
def Dev.peerTimeFrame (d : Dev) (p : Nat) (h : PHdr) (answer : Bool) : Dev :=
  d.peerIn p 8 false h (fun d => if answer || (d.peer p).st != .up then d else d.reply p 8 h 0 0 false [])

/-- `x` put into a rising list. -/
def insertInt (x : Int) : List Int → List Int
  | [] => [x]
  | y :: ys => if x ≤ y then x :: y :: ys else y :: insertInt x ys

/-- The median of the last eight values, each in 1/2 Tc, in 1/16 Tc. -/
def median8 (l : List Int) : Int :=
  let s := l.foldl (fun a x => insertInt x a) []
  4 * (s.getD 3 0 + s.getD 4 0)

/-- Tc between time comparisons. -/
def compareTc : Nat := tcPerSec / 16

/-- A port in UP begins a time comparison each time device time passes another sixteenth of a second: it sends a TIME frame
and keeps the instant as t1 (R404). -/
def Dev.peerTimes (d : Dev) : Dev :=
  if d.time / compareTc = d.tl.before / compareTc then d
  else (upTo 4).foldl (fun d p =>
    let x := d.peer p
    if x.st != .up then d
    else
      let tag := d.peers.nextTag
      let d : Dev := { d with peers := { d.peers with nextTag := (tag + 1) % 2 ^ 16 } }
      (d.setPeer p { x with timeSent := some d.time }).sendFrame p (d.hdr 8 (x.pdev.getD 0) tag 0 0 0) []) d

/-- PEER_TIME_COMPARISON: the comparison under way has its four timestamps, t1 the instant at which it was sent and t4 one
that has come; `plocked` says the partner is time locked. -/
def Dev.peerCompare (d : Dev) (p t1 t2 t3 t4 : Nat) (plocked : Bool) : Dev :=
  let x := d.peer p
  if x.st != .up || x.timeSent != some t1 || t4 < t1 || d.time < t4 then d
  else
    let fwd : Int := (t2 : Int) - t1
    let back : Int := (t4 : Int) - t3
    let off := fwd - back
    let valid := if plocked && d.timeLocked then min 8 (x.valid + 1) else x.valid
    let lim : Int := 2 * (d.rf .PRT_PEER_CFG 16 16 : Nat)
    let out := valid = 8 && (lim < off || off < -lim)
    let beyond := if out then min 5 (x.beyond + 1) else 0
    let d := d.setPeer p { x with
      comps := ((off, (fwd + back).toNat) :: x.comps).take 8, valid, beyond, timeSent := none }
    if beyond = 4 then
      (d.logNow (srcPeer p) 0x0905 [(4, unsx 32 (8 * off))]).portEvent (srcPeer p) 8 0 (unsx 64 (8 * off))
    else d

/-- PRT_PEERn_TOFS and _TDLY (R404). -/
def Peer.tofs (x : Peer) : Nat := if x.valid = 8 then unsx 32 (median8 (x.comps.map (·.1))) else 0
def Peer.tdly (x : Peer) : Nat := if x.valid = 8 then unsx 32 (median8 (x.comps.map (fun c => (c.2 : Int)))) else 0

end Sys2Proof.Machine
end

