-- ==== Sys2Proof/Machine/Thermal.lean ====
section
/-!
DEFINITION. Thermal supervision (chapter 13): sensors and their levels, throttle steps, the trip, and what a dither
chip brings: quiet periods, activity and ballast. Groups and throttle sources are numbered 0–3 the stacks, 4 the hub,
5–8 the laser source assemblies, 9–12 the DRAM pairs.
-/
namespace Sys2Proof.Machine

/-- Sensors of a group (R362). -/
def groupSensors (g : Nat) : List Nat :=
  if g < 4 then (upTo 8).map (8 * g + ·)
  else if g = 4 then (upTo 16).map (32 + ·)
  else if g < 9 then (upTo 4).map (48 + 4 * (g - 5) + ·)
  else (upTo 8).map (64 + 8 * (g - 9) + ·)

def groupOf (n : Nat) : Nat :=
  if n < 32 then n / 8 else if n < 48 then 4 else if n < 64 then 5 + (n - 48) / 4 else 9 + (n - 64) / 8

/-- Class of a sensor: 0 electronic, 1 photonic, 2 laser, 3 DRAM. -/
def sensorClass (n : Nat) : Nat :=
  if n < 32 then (if n % 8 < 4 then 0 else 1) else if n < 48 then 0 else if n < 64 then 2 else 3

def groupSource (g : Nat) : Nat := if g < 4 then srcStack g else srcThermal

def Dev.sensor (d : Dev) (n : Nat) : Sensor := tget d.th.sensors n {}
def Dev.setSensor (d : Dev) (n : Nat) (x : Sensor) : Dev := { d with th := { d.th with sensors := tset d.th.sensors n x } }

/-- Thresholds of R366 and R377; a written SET above its reset value acts as the reset value. -/
def Dev.warnSet (d : Dev) (c : Nat) : Int := min (sx 16 (d.rf .THM_WARN 16 16 c)) (sx 16 (resetOf .THM_WARN c / 65536))
def Dev.warnClr (d : Dev) (c : Nat) : Int := sx 16 (d.rf .THM_WARN 0 16 c)
def Dev.throtSet (d : Dev) (c : Nat) : Int := min (sx 16 (d.rf .THM_THROT 16 16 c)) (sx 16 (resetOf .THM_THROT c / 65536))
def Dev.throtClr (d : Dev) (c : Nat) : Int := sx 16 (d.rf .THM_THROT 0 16 c)
def shutSet (c : Nat) : Int := ([0x730, 0x580, 0x5A0, 0x690].getD c 0 : Nat)
def restartBelow (c : Nat) : Int := ([0x550, 0x460, 0x3C0, 0x550].getD c 0 : Nat)
def coldSet : Int := 0x280
def coldClr : Int := 0x2A0

/-- A level of a sensor sets or clears (R367, R368): log and event. -/
def Dev.thermLevel (d : Dev) (n level : Nat) : Dev :=
  let t := unsx 16 (d.sensor n).temp
  let src := groupSource (groupOf n)
  let d := d.logNow src 0x0801 [(1, n), (1, level), (2, t)]
  d.publish 0xE src [(1, n), (1, level), (1, tget d.th.steps (groupOf n) 0), (2, t)] d.time

/-! ### Throttle steps (R370, R371) -/

/-- Every sensor that the group has of class `c` is faulted (R364). -/
def Dev.lostClass (d : Dev) (g c : Nat) : Bool :=
  let ns := (groupSensors g).filter (fun n => sensorClass n = c)
  !ns.isEmpty && ns.all (fun n => (d.sensor n).fault)
/-- Some class of the group has lost all its sensors. -/
def Dev.classLost (d : Dev) (g : Nat) : Bool := (upTo 4).any (fun c => d.lostClass g c)

/-- A source's step raised to at least `k`. -/
def Dev.raiseStep (d : Dev) (g k : Nat) : Dev :=
  let old := tget d.th.steps g 0
  if k ≤ old then d
  else ({ d with th := { d.th with steps := tset d.th.steps g (min 8 k) } } : Dev).bump .THM_CNT_THROT 0 0 (min 8 k - old)

/-- Those of the sensors that read below their throttle set value. -/
def Dev.coolOf (d : Dev) (ns : List Nat) : List Nat :=
  ns.filter (fun n => (d.sensor n).temp < d.throtSet (sensorClass n))

/-- A new interval of the source begins, with its sensors' readings. -/
def Dev.beginInterval (d : Dev) (g : Nat) (cleared : Bool) : Dev :=
  let ns := groupSensors g
  let rs := ns.map (fun n => (d.sensor n).temp)
  { d with th := { d.th with srcs := tset d.th.srcs g { from_ := d.aon, readings := rs, below := d.coolOf ns, cleared } } }

/-- A sample of group `g`: the sensors it finds below their throttle set value have not stood at it throughout the
interval (R370). -/
def Dev.noteCool (d : Dev) (g : Nat) : Dev :=
  let s := tget d.th.srcs g {}
  let new := (d.coolOf (groupSensors g)).filter (fun n => !s.below.contains n)
  { d with th := { d.th with srcs := tset d.th.srcs g { s with below := s.below ++ new } } }

/-- THROTTLE_ESCALATE: an escalation interval of ESC ms ends. It raises the step where a sensor has stood at or above its
set value at every sample of the interval and now reads less than 0.5 °C below what it read at the interval's start. -/
def Dev.escalate (d : Dev) (g : Nat) : Dev :=
  let s := tget d.th.srcs g {}
  let hot := ((groupSensors g).zip s.readings).any (fun p =>
    let x := d.sensor p.1
    !x.fault && !s.below.contains p.1 && d.throtSet (sensorClass p.1) ≤ x.temp && p.2 - x.temp < 8)
  let stands := (groupSensors g).any (fun n => (d.sensor n).throt)
  if !stands || d.aon < s.from_ + max 1 (fld d.th.intervals 8 8) * subframeTc then d
  else (if hot then d.raiseStep g (tget d.th.steps g 0 + 1) else d).beginInterval g false

/-- THROTTLE_RELEASE: a release interval of REL ms ends with every sensor cleared. -/
def Dev.release (d : Dev) (g : Nat) : Dev :=
  let k := tget d.th.steps g 0
  let due : Bool := (tget d.th.srcs g {}).from_ + max 1 (fld d.th.intervals 0 8) * subframeTc ≤ d.aon
  if (groupSensors g).any (fun n => (d.sensor n).throt) || k = 0 || (d.classLost g && k ≤ 4) || !due then d
  else ({ d with th := { d.th with steps := tset d.th.steps g (k - 1) } } : Dev).beginInterval g true

/-! ### Samples (R364–R368, R374–R376) -/

/-- A shutdown level sets (R374, R376): each set is logged (R367); while the device is tripped it is no further trip. -/
def Dev.trip (d : Dev) (n : Nat) : Dev :=
  let t := unsx 16 (d.sensor n).temp
  let d := d.logNow (groupSource (groupOf n)) 0x0803 [(1, n), (2, t)]
  if d.th.tripped.isSome then d
  else
    let inWin := d.th.trips.filter (fun a => d.aon < a + 600 * tcPerSec)
    let trips := d.aon :: inWin
    let d : Dev := { d with
      th := { d.th with tripped := some d.aon, trips, total := min 65535 (d.th.total + 1), lastSens := n }
      cp := { d.cp with therm := true } }
    if 3 ≤ trips.length then
      ({ d with th := { d.th with latched := true } } : Dev).logNow srcThermal 0x0804 []
    else d

/-- A sensor is found faulted (R364). -/
def Dev.sensorFault (d : Dev) (n : Nat) : Dev :=
  let x := d.sensor n
  let g := groupOf n
  let src := groupSource g
  let c := sensorClass n
  let lost := d.lostClass g c
  let d := d.setSensor n { x with fault := true, warn := false, throt := false, cold := false, shutN := 0 }
  let d := d.logNow src 0x0802 [(1, n)]
  let d := d.publish 0xE src [(1, n), (1, 6), (1, tget d.th.steps g 0), (2, unsx 16 x.temp)] d.time
  if !lost && d.lostClass g c then (d.raiseStep g 4).thermLevel n 1 else d

/-- One reading of a sensor (R364, R366–R368; log entry 201). -/
def Dev.sensorSample (d : Dev) (n : Nat) (t : Int) (group : List Int) : Dev :=
  let x := d.sensor n
  let g := groupOf n
  let c := sensorClass n
  let same := t = x.temp && x.groupThen != []
  let moved := ((groupSensors g).zip (group.zip x.groupThen)).any (fun p =>
    !(d.sensor p.1).fault && 32 < (p.2.1 - p.2.2).natAbs)
  let stuck := same && x.sameFrom + 10 * tcPerSec ≤ d.aon && moved
  let x : Sensor := { x with
    temp := t, sameFrom := if same then x.sameFrom else d.aon, groupThen := if same then x.groupThen else group }
  let d := d.setSensor n x
  if x.fault then d
  else if t < -640 || 2400 < t || stuck then d.sensorFault n
  else
    let warn := if d.warnSet c ≤ t then true else if t ≤ d.warnClr c then false else x.warn
    let throt := if d.throtSet c ≤ t then true else if t ≤ d.throtClr c then false else x.throt
    let cold := if c != 1 then false else if t < coldSet then true else if coldClr < t then false else x.cold
    let shutN := if shutSet c ≤ t then x.shutN + 1 else 0
    let shut := x.shut || 2 ≤ shutN
    let d := d.setSensor n { x with warn, throt, cold, shutN, shut }
    let d := if warn && !x.warn then d.thermLevel n 1 else if !warn && x.warn then d.thermLevel n 0 else d
    let d := if throt && !x.throt then (d.raiseStep g 1).thermLevel n 2
      else if !throt && x.throt then d.thermLevel n 0 else d
    let d := if cold && !x.cold then d.thermLevel n 4 else if !cold && x.cold then d.thermLevel n 5 else d
    if shut && !x.shut then
      (d.publish 0xE (groupSource g) [(1, n), (1, 3), (1, tget d.th.steps g 0), (2, unsx 16 t)] d.time).trip n
    else d

/-- What has been written to THM_CFG, and to THM_SLEWrg of the regions of stack group `g`, takes effect at a
sample (log entry 189). -/
def Dev.thmLatch (d : Dev) (g : Nat) : Dev :=
  let rgs := if g < 4 then [2 * g, 2 * g + 1] else []
  { d with th := { d.th with
    intervals := d.reg .THM_CFG
    budgets := rgs.foldl (fun t rg => tset t rg (d.reg .THM_SLEW rg)) d.th.budgets } }

/-- THERMAL_SAMPLE: a group samples all its sensors; readings in 1/16 °C. -/
def Dev.thermalSample (d : Dev) (g : Nat) (readings : List Int) : Dev :=
  let d := d.thmLatch g
  let ns := groupSensors g
  let rs := ns.zipIdx.map (fun p => clampInt (-32768) 32767 (readings.getD p.2 0))
  let wasHot := ns.any (fun n => (d.sensor n).throt)
  let d := (ns.zip rs).foldl (fun d p => d.sensorSample p.1 p.2 rs) d
  let isHot := ns.any (fun n => (d.sensor n).throt)
  let d := if wasHot != isHot then d.beginInterval g wasHot else d.noteCool g
  let d := if 5 ≤ g && g < 9 && wasHot != isHot then d.laserThrottle (g - 5) else d
  let near (k : Int) : Bool := ns.any (fun n =>
    let c := sensorClass n
    let x := d.sensor n
    !x.fault && ([d.warnSet c, d.throtSet c, shutSet c].any (fun v => v - k ≤ x.temp)))
  match tfind d.th.fast g with
  | none =>
    if near 80 then
      let d : Dev := { d with th := { d.th with fast := tset d.th.fast g 0 } }
      if g < 4 then (d.madcTriggerRg (2 * g) 1).madcTriggerRg (2 * g + 1) 1 else d
    else d
  | some v =>
    -- The value is 1 + the instant since which every reading has lain low, or 0.
    if near 96 then { d with th := { d.th with fast := tset d.th.fast g 0 } }
    else if v = 0 then { d with th := { d.th with fast := tset d.th.fast g (d.aon + 1) } }
    else if v + 196608000 ≤ d.aon + 1 then { d with th := { d.th with fast := tdrop d.th.fast g } }
    else d

/-! ### Dither chips (R90, R276, R298, R372, R488) -/

/-- The floor of the chip that ends now on physical tile `p`. -/
def Dev.floor (d : Dev) (p : Nat) : Nat :=
  let rg := regionOfP p
  let x := d.pt p
  let top := (100 - 10 * d.throttle (rg / 2)) * 240000
  let runs := x.lock != .off && x.lock != .faulted && !d.inGap (rg / 2)
  if !runs then 0
  else
    let low := if fld (d.slewBudget rg) 31 1 = 1 then
      min (x.actPrev - max 1 (fld (d.slewBudget rg) 0 8) * 1875) top else 0
    match x.warm with
    | some a => max low (min a (d.ceiling p))
    | none => low

/-- The activity of a chip on tile `p` without ballast: its conversions, and those of a calibration in progress within the ceiling
(R372; log entry 207). -/
def Dev.chipActivity (d : Dev) (p : Nat) : Nat :=
  let x := d.pt p
  let r := d.rgn (regionOfP p)
  if r.cal = some p && 2 ≤ r.step && r.step ≤ 5 then
    max x.actNow (min (x.actNow + Config.calActivity p (d.time / chipTc)) (d.ceiling p))
  else x.actNow

/-- A chip boundary on one tile: activity and slew budget, quiet periods, and the dither signs of the new chip (R276,
R277). -/
def Dev.chipTile (d : Dev) (p : Nat) : Dev :=
  let x := d.pt p
  let conv := d.chipActivity p
  let a := max conv (d.floor p)
  let start := x.quietAsk && x.lock = .locked && x.quietFrom.isNone
  let x : PTile := { x with
    actPrev := a, actNow := x.actNext, actNext := 0, winAct := x.winAct + a, ballast := x.ballast + (a - conv)
    quietAsk := false
    quietStop := false
    quietEnd := if x.quietStop then some d.time else x.quietEnd
    quietFrom := if x.quietStop then none else if start then some d.time else x.quietFrom }
  d.setPt p { x with dith := x.ditherOf (d.time / chipTc % 64) }

/-- DITHER_CHIP: the next chip has begun; its number may be any other one after a step of device time (R276, R488). -/
def Dev.ditherChip (d : Dev) : Dev :=
  let k := d.time / chipTc
  if d.th.chip = some k then d
  else (upTo 136).foldl (fun d p => d.chipTile p) { d with th := { d.th with chip := some k } }

/-- QUIET_PERIOD_LIMIT, 2 ms after the suspension (R91). -/
def Dev.quietLimit (d : Dev) (p : Nat) : Dev :=
  d.modPt p (fun x => if x.quietFrom.any (· + 2 * subframeTc ≤ d.time) then { x with quietStop := true } else x)

end Sys2Proof.Machine
end

