-- ==== Sys2Proof/Machine/Bus.lean ====
section
/-!
DEFINITION. The control space (R5–R10, R414, R433): what each register of BAR0 reads, what a write that reaches it
does, which host writes reach, and the read effects and 64-bit pairs of R7 and R9.
-/
namespace Sys2Proof.Machine

/-! ### State codes -/

/-- LOCK_STATUS.STATE (R309). -/
def LockState.code : LockState → Nat
  | .off => 0 | .ramp => 1 | .settle => 2 | .sweep => 3 | .capture => 4 | .identity => 5 | .locked => 6
  | .relock => 7 | .legacy => 8 | .faulted => 9
/-- STRM_CTXn_STAT.STATE (R212). -/
def CtxState.code : CtxState → Nat
  | .idle => 0 | .active => 1 | .waitSpace => 2 | .waitPool => 3 | .waitGate => 4 | .passEnd => 5
  | .dropped => 6 | .spilled => 7 | .fault => 8
/-- Comb states (R338). -/
def CombState.code : CombState → Nat
  | .off => 0 | .standby => 1 | .aligning => 2 | .aligned => 3 | .inUse => 4 | .degraded => 5 | .failed => 6
def FhState.code : FhState → Nat
  | .off => 0 | .training => 1 | .upGated => 2 | .up => 3 | .shutdown => 4 | .shutdownRestart => 5
/-- PRT_PEERn_STATUS.STATE: an open port of a device without DEVNUM reads NOT_READY (R29, R397). -/
def Dev.peerState (d : Dev) (p : Nat) : Nat :=
  match (d.peer p).st with
  | .down => 0 | .training => 1 | .notReady => 2 | .up => if d.devnum.isSome then 3 else 2
  | .shutdown => 4 | .shutdownRestart => 5 | .conflict => 6
def MbxState.code : MbxState → Nat
  | .idle => 0 | .busy => 1 | .done => 2
/-- DEV_RST_CAUSE.LAST (R439). -/
def ResetType.code : ResetType → Nat
  | .cold => 0 | .perst => 1 | .warm => 2 | .warmLog => 3 | .cpWdog => 4 | .thermal => 5 | .lifeCycle => 6

/-! ### What a register reads -/

/-- DEV_READY. -/
def Dev.readyWord (d : Dev) : Nat :=
  d.cp.regions % 256 + b2n d.cp.ready * 2 ^ 9 + b2n d.cp.dramReady * 2 ^ 10 + b2n d.cp.device * 2 ^ 11
    + b2n d.cp.standalone * 2 ^ 12 + b2n d.cp.degraded * 2 ^ 13

/-- The entry of the log that ring slot `k` of the mirror holds (R466). -/
def ErrLog.slot (l : ErrLog) (k : Nat) : Option LogEntry :=
  if l.written ≤ k then none else l.entries[(l.written - 1 - k) % 8192]?

/-- Word `w` of an entry in the event window of mailbox `m` at slot `k` (R414). -/
def Mailbox.eventWord (b : Mailbox) (k w : Nat) : Nat :=
  match b.evq[k]? with
  | some e => getLe e.bytes (4 * w) 4
  | none => 0

/-- A ring reads as held: its loop runs and its last window gave it no estimate (R281). -/
def PTile.held (x : PTile) (r : Nat) : Bool := x.loop && x.closed && (x.quietFrom.isSome || (tfind x.err r).isNone)

/-- LOCK_STATUS of physical tile `p`. -/
def Dev.lockStatus (d : Dev) (p : Nat) : Nat :=
  let x := d.pt p
  x.lock.code + b2n x.dlmiss * 2 ^ 16 + b2n x.legacy * 2 ^ 17 + b2n (allRings.any x.held) * 2 ^ 18 + x.gset % 16 * 2 ^ 20

/-- LOCK_RING_DATA for the address `a` of LOCK_RING_ADDR. -/
def Dev.ringData (d : Dev) (p a : Nat) : Nat :=
  let x := d.pt p
  let r := if bit a 12 then 4096 + fld a 0 6 else 64 * fld a 6 6 + fld a 0 6
  let e := if x.held r then 0x8000 else unsx 16 (tget x.err r 0)
  tget x.htr r 0 % 4096 + e * 2 ^ 16

/-- LOCK_TEST. -/
def Dev.lockTest (d : Dev) (p : Nat) : Nat :=
  let x := d.pt p
  b2n (x.inj.isSome || x.cap.active) * 2 ^ 31 + b2n x.cap.trunc * 2 ^ 30 + x.cap.samples.length % 2 ^ 15

/-- LOCK_LAST (R294, R295). -/
def Dev.lockLast (d : Dev) (p : Nat) : Nat :=
  match (d.pt p).lastLoss with
  | some (cause, row, line, mod, _) => 2 ^ 31 + cause % 8 * 2 ^ 28 + mod % 2 * 2 ^ 12 + row % 64 * 2 ^ 6 + line % 64
  | none => 0

/-- Rows that a reload begun at `t0` has applied by now: row k at 0.5 ns × k (R39). -/
def rowsApplied (t0 now : Nat) : Nat := (now - t0) * 15625 / 15360 + 1

/-- A logical tile in the course of a reload: the trim of the rows applied so far (R39). -/
def Dev.midReload (d : Dev) (e t : Nat) : Dev :=
  match (d.slot e t).reload with
  | some r => d.applyTrim (d.phys (ltile e t)) (r.rows.take (rowsApplied r.t0 d.aon))
  | none => d

/-- The slot with its shadow and column offsets as a reload leaves them at the end of its last tile step (R39). -/
def Dev.slotView (d : Dev) (e t : Nat) : Slot :=
  let s := d.slot e t
  match s.reload with
  | some r => if r.rows.length * 15360 ≤ (d.aon - r.t0) * 15625 then s.take r.rows else s
  | none => s

/-- TILE_TRIM_DATA for the address `a` of TILE_TRIM_ADDR. -/
def Dev.trimData (d : Dev) (p a : Nat) : Nat :=
  let row := tget (d.pt p).trim (fld a 4 6) []
  (upTo 4).foldl (fun n k => n + unsx 8 (row.getD (4 * fld a 0 4 + k) 0) * 2 ^ (8 * k)) 0

/-- DAC_RDDATA of region `rg` for the address of DAC_RDADDR. -/
def Dev.rdData (d : Dev) (rg : Nat) : Nat :=
  let a := d.reg .DAC_RDADDR rg
  let s := fld a 13 5
  let p := if s = 16 then 128 + rg else 16 * rg + s
  if 16 < s then 0
  else if bit a 19 then d.park p (if bit a 18 then 4096 + fld a 0 6 else 64 * fld a 6 6 + fld a 0 6)
  else unsx 12 (tget (d.pt p).mbias (fld a 0 6) 0)

/-- Region activity in the last chip, in percent (R372): the mean of its 17 physical tiles. -/
def Dev.regionAct (d : Dev) (rg : Nat) : Nat :=
  min 100 ((((upTo 16).map (16 * rg + ·)) ++ [128 + rg]).foldl (fun n p => n + (d.pt p).actPrev) 0 / (17 * 240000))

/-- THM_SENSn. -/
def Dev.sensWord (d : Dev) (n : Nat) : Nat :=
  let x := d.sensor n
  let level := if x.shut then 3 else if x.throt then 2 else if x.warn then 1 else 0
  unsx 16 x.temp + b2n x.cold * 2 ^ 27 + level * 2 ^ 28 + b2n (tfind d.th.fast (groupOf n)).isSome * 2 ^ 30
    + b2n x.fault * 2 ^ 31

/-- The step in force for stack `s` (R371). -/
def Dev.stackStep (d : Dev) (s : Nat) : Nat :=
  max (tget d.th.steps s 0) (max (tget d.th.steps 4 0) (tget d.th.steps (5 + s) 0))

/-- THM_STEP. -/
def Dev.stepWord (d : Dev) : Nat :=
  (upTo 4).foldl (fun n s => n + d.stackStep s * 2 ^ (4 * s) + tget d.th.steps (9 + s) 0 * 2 ^ (4 * s + 16)) 0

/-- THM_TRIP (R376). -/
def Dev.tripWord (d : Dev) : Nat :=
  b2n d.th.latched * 2 ^ 31 + min 7 (d.th.trips.filter (fun a => d.aon < a + 600 * tcPerSec)).length * 2 ^ 28
    + d.th.lastSens % 128 * 2 ^ 16 + d.th.total

/-- TL_STATUS. -/
def Dev.tlStatus (d : Dev) : Nat :=
  let hold := if d.tl.state = .holdover then min 65535 ((d.aon - d.tl.holdFrom) / tcPerSec) else 0
  d.tl.state.code + b2n d.tl.everLocked * 8 + b2n d.tl.stepped * 16 + b2n d.tl.stepReq * 32 + d.tlSrc * 2 ^ 8
    + b2n d.synceOk * 2 ^ 10 + b2n d.tl.ppsOk * 2 ^ 11 + hold * 2 ^ 16

/-- MS_STATUS. -/
def Dev.msStatus (d : Dev) : Nat :=
  match d.ms.commit with
  | some c => 1 + c.ct * 2 + c.deferred.length * 2 ^ 16
  | none => d.ms.lastCt * 2

/-- STRM_CTXn_STAT. -/
def Dev.ctxStat (d : Dev) (n : Nat) : Nat :=
  let c := d.ctx n
  let members := c.members.zipIdx.foldl (fun m p => m + b2n p.1.joined * 2 ^ p.2) 0
  if c.st = .idle then 0 else
  c.st.code + members % 256 * 2 ^ 8 + d.classOf n * 2 ^ 22 + c.desc.kind % 16 * 2 ^ 24
    + b2n (decide (0 < c.members.length)) * 2 ^ 29 + b2n c.rearm.isSome * 2 ^ 30 + b2n c.desc.persist * 2 ^ 31

/-- STRM_POOL: 4 KiB units in use, and owned as reserves. -/
def Dev.poolWord (d : Dev) : Nat :=
  d.poolReserved / 4096 % 65536 + d.armedCtxs.foldl (fun n c => n + (c.2.pool + 4095) / 4096) 0 % 65536 * 2 ^ 16

/-- The operation next on slot `t` of engine `e` waits for its tile (R117): for a reload other than its own, for the end of
another tile state, a detour gap or a throttle pause. -/
def Dev.tileWaits (d : Dev) (e t : Nat) : Bool :=
  let s := d.slot e t
  match (d.eng e).current t with
  | none => false
  | some o =>
    s.st != .idle || d.inGap (e / 8) || inPause (d.throttle (e / 8)) (chipPos d.time 0)
      || (match s.reload with
        | some r => r.kind != .loadw o.num
        | none => false)

/-- ENG_STATUS.STATE (R124): the state the engine is in, refined by what holds it. A placed list that has not started
reads WAITING (log entry 89), and so does an engine that a LOCKSEQ OPEN holds (log entry 161). -/
def Dev.engState (d : Dev) (e : Nat) : Nat :=
  let x := d.eng e
  let held := match x.hold with
    | .waitm .. => true
    | .fence .. => true
    | .lock .. => true
    | _ => false
  let stalled := match x.hold with
    | .queueFull => true
    | _ => false
  let tile := (upTo 4).any (d.tileWaits e)
  if x.st = .idle then (if x.placed.isEmpty then 1 else 3)
  else if x.st = .running then (if stalled then 4 else if held || tile then 3 else 2)
  else x.st.code

/-- ENG_STATUS. -/
def Dev.engStatus (d : Dev) (e : Nat) : Nat :=
  let x := d.eng e
  d.engState e + min 8 x.vecq.length * 2 ^ 8 + min 8 x.macJobs * 2 ^ 12 + min 16 x.issueq.length * 2 ^ 16

/-- LSA_STATUS and LSA_WORST of a stack. -/
def Dev.lsaStatus (d : Dev) (s : Nat) : Nat :=
  let x := d.stk s
  x.active + x.combA.st.code * 2 ^ 4 + x.combB.st.code * 2 ^ 8 + x.dstate * 2 ^ 12
def Dev.lsaWorst (d : Dev) (s : Nat) : Nat :=
  let w := (d.stk s).worst
  w.1 * 2 ^ 16 + unsx 16 w.2

/-- DEV_RDWK_STATUS. -/
def Dev.rdwkStatus (d : Dev) (rg : Nat) : Nat :=
  let r := d.rgn rg
  let phase := if r.swap.isSome then 2 else if r.cal.isSome then 3 else if r.preparing then 1 else 0
  b2n r.ready + phase * 2 ^ 8 + r.cal.getD 0xFF * 2 ^ 16 + (if r.noNext then 0xFF else 16 * rg + r.next % 16) * 2 ^ 24

/-- MADC_c_STATUS. -/
def Dev.madcStatus (d : Dev) (rg c : Nat) : Nat :=
  let x := d.madc rg c
  x.st + x.entry * 2 ^ 8 + b2n x.pend.isSome * 2 ^ 16 + x.pend.getD 0 % 32 * 2 ^ 24

/-- DAC_AUXn_CFG and DAC_AUXn_STATUS. -/
def Dev.auxCfgWord (d : Dev) (rg n : Nat) : Nat :=
  let w := d.reg .DAC_AUX_CFG rg n
  if n = 8 then setFld (setFld w 0 3 1) 4 2 0 else w + b2n (n ≤ 5) * 2 ^ 31
def Dev.auxStatus (d : Dev) (rg n : Nat) : Nat :=
  d.reg .DAC_AUX_STATUS rg n % 8 / 2 * 2 + b2n (d.auxRun rg n) + (d.aux rg n).queue.length * 2 ^ 16

/-- PRT_FH_QCFGq, PRT_FHp_STATUS, PRT_PEERn_STATUS and PRT_MB_STATUS. -/
def Dev.qcfgWord (d : Dev) (q : Nat) : Nat :=
  d.reg .PRT_FH_QCFG q + b2n (d.fh (2 * q)).en * 2 ^ 4 + b2n (d.fh (2 * q + 1)).en * 2 ^ 5
def Dev.fhStatus (d : Dev) (p : Nat) : Nat :=
  let x := d.fh p
  b2n x.link + x.lastDrop % 16 * 2 ^ 8 + x.st.code * 2 ^ 28
def Dev.peerStatus (d : Dev) (p : Nat) : Nat :=
  let x := d.peer p
  x.pdev.getD 0 + b2n x.pdev.isSome * 4 + x.pport % 4 * 2 ^ 8 + d.peerState p * 2 ^ 28 + b2n (x.valid = 8) * 2 ^ 31
def Dev.mbStatus (d : Dev) : Nat := (upTo 8).foldl (fun n m => n + (d.mod m).st * 2 ^ (4 * m)) 0

/-- TL_CTn_POS: the present position, 0 while disabled. -/
def Dev.ctPos (d : Dev) (n : Nat) : Nat := if d.ctEn n then d.posAt n d.time else 0

/-- LOG_CNT (R466). -/
def ErrLog.cnt (l : ErrLog) : Nat := l.cntInfo + l.cntWarn * 2 ^ 8 + l.cntError * 2 ^ 16 + l.cntFatal * 2 ^ 24

/-- Registers of DEV, of the mailboxes and of TL, MS and THM that are read from state. -/
def Dev.value1 (d : Dev) (n : RegName) (i j k : Nat) : Option Nat :=
  match n with
  | .DEV_RST_CAUSE => some (d.cp.rstCause + d.cp.warms * 2 ^ 8)
  | .DEV_STRAPS => some d.cp.straps
  | .DEV_LC => some (d.cp.lcState + d.cp.returns * 2 ^ 4 + b2n (d.cp.lcState = 0) * 2 ^ 8 + d.cp.lcCount * 2 ^ 16)
  | .DEV_BOOT => some (d.cp.slot + b2n d.cp.fallback * 2 + b2n d.cp.recovery * 4 + d.cp.svn * 2 ^ 16)
  | .DEV_READY => some d.readyWord
  | .DEV_UID_LO => some (d.cp.uid % 2 ^ 32)
  | .DEV_UID_HI => some (d.cp.uid / 2 ^ 32)
  | .DEV_TMAP => some ((upTo 4).foldl (fun v t => v + d.phys (ltile i t) * 2 ^ (8 * t)) 0)
  | .DEV_SPARE => some ((upTo 4).foldl (fun v s => v + d.spare (4 * i + s) * 2 ^ (8 * s)) 0)
  | .DEV_TMAP_GEN => some d.tmapGen
  | .DEV_SYS_ID => some (match d.devnum with | some v => 4 + v | none => 0)
  | .MBX_DOORBELL => some 0
  | .MBX_STATUS => some ((d.mb i).state.code + (d.mb i).lastStatus * 2 ^ 8 + (d.mb i).lastSeq * 2 ^ 16)
  | .MBX_CFG => some (d.mb i).ver
  | .MBX_INT_STAT => some (d.mb i).intStat.toNat
  | .MBX_INT_EN => some (d.mb i).intEn.toNat
  | .MBX_EVQ_PROD => some (d.mb i).prod
  | .MBX_EVQ_CONS => some (d.mb i).cons
  | .MBX_EVQ_LOST => some (d.mb i).lost
  | .MBX_BUF => some (getLe (d.mb i).rsp (4 * j) 4)
  | .MBX_EVWIN => some ((d.mb i).eventWord j k)
  | .TL_TIME_LO => some (d.time % 2 ^ 32)
  | .TL_TIME_HI => some (d.time / 2 ^ 32 % 2 ^ 32)
  | .TL_STATUS => some d.tlStatus
  | .TL_OFFSET => some (unsx 32 (clampInt (-2147483648) 2147483647 d.tl.offset))
  | .TL_CT_POS => some (d.ctPos i)
  | .MS_STATUS => some d.msStatus
  | .MS_GEN => some d.ms.gen
  | .MS_EFFECT_LO => some (d.ms.lastB % 2 ^ 32)
  | .MS_EFFECT_HI => some (d.ms.lastB / 2 ^ 32 % 2 ^ 32)
  | .TL_SNAP_TS_LO => some ((tget d.ms.snaps i {}).ts % 2 ^ 32)
  | .TL_SNAP_TS_HI => some ((tget d.ms.snaps i {}).ts / 2 ^ 32 % 2 ^ 32)
  | .TL_SNAP_POS => some (tget d.ms.snaps i {}).pos
  | .TL_SNAP_TMAP => some (tget d.ms.snaps i {}).tmap
  | .THM_STEP => some d.stepWord
  | .THM_TRIP => some d.tripWord
  | .THM_COLD => some 0x02A00280
  | .THM_SHUT => some ((unsx 16 (shutSet i)) * 2 ^ 16 + unsx 16 (restartBelow i))
  | .THM_SLEW => some (d.reg .THM_SLEW i + d.regionAct i * 2 ^ 24)
  | .THM_SENS => some (d.sensWord i)
  | _ => none

/-- Registers of TG, STRM and the engines that are read from state. TILE_GAIN shows the steps set under R50, during a
re-run at g + 1 too (R51, log entry 176). -/
def Dev.value2 (d : Dev) (n : RegName) (i j k : Nat) : Option Nat :=
  let p := d.phys (ltile i j)
  let s := d.slot i j
  match n with
  | .TG_STATUS => some (d.tgStatus i)
  | .STRM_POOL => some d.poolWord
  | .STRM_CTX_STAT => some (d.ctxStat i)
  | .STRM_CTX_PROG_LO => some ((d.ctx i).prog % 2 ^ 32)
  | .STRM_CTX_PROG_HI => some ((d.ctx i).prog / 2 ^ 32 % 2 ^ 32)
  | .ENG_STATUS => some (d.engStatus i)
  | .ENG_PC_LO => some ((d.eng i).pc % 2 ^ 32)
  | .ENG_PC_HI => some ((d.eng i).pc / 2 ^ 32 % 2 ^ 7)
  | .ENG_SEQ => some ((d.eng i).seq)
  | .ENG_ACC => some ((d.eng i).freeRows + (d.eng i).openAreas.length * 2 ^ 16)
  | .TILE_STATUS => some (s.state.code + b2n (p != 0xFF && (d.pt p).quietFrom.isSome) * 2 ^ 12 + p * 2 ^ 24)
  | .TILE_GAIN => some ((upTo 16).foldl (fun v c => v + tget s.gains (16 * k + c) 0 % 4 * 2 ^ (2 * c)) 0)
  | .TILE_CNT_CONV_LO => some (s.convCount % 2 ^ 32)
  | .TILE_CNT_CONV_HI => some (s.convCount / 2 ^ 32 % 2 ^ 32)
  | .TILE_LAST_SAT => some s.lastSat
  | .TILE_LAST_SAT_TS_LO => some (s.lastSatTs % 2 ^ 32)
  | .TILE_LAST_SAT_TS_HI => some (s.lastSatTs / 2 ^ 32 % 2 ^ 32)
  | .TILE_TRIM_DATA => some (if p = 0xFF then 0 else (d.midReload i j).trimData p (d.reg .TILE_TRIM_ADDR i j))
  | .TILE_OFS => some (let o := tget (d.slotView i j).ofs k (0, 0); unsx 16 o.1 + o.2 % 1024 * 2 ^ 16)
  | .LOCK_STATUS => some (if p = 0xFF then 0 else d.lockStatus p)
  | .LOCK_LAST => some (if p = 0xFF then 0 else d.lockLast p)
  | .LOCK_LAST_GOOD_LO => some (match (d.pt p).lastLoss with | some (_, _, _, _, t) => t % 2 ^ 32 | none => 0)
  | .LOCK_LAST_GOOD_HI => some (match (d.pt p).lastLoss with | some (_, _, _, _, t) => t / 2 ^ 32 % 2 ^ 32 | none => 0)
  | .LOCK_RING_DATA => some (if p = 0xFF then 0 else d.ringData p (d.reg .LOCK_RING_ADDR i j))
  | .LOCK_TEST => some (if p = 0xFF then 0 else d.lockTest p)
  | _ => none

/-- Registers of the regions, the ports and the log that are read from state. -/
def Dev.value3 (d : Dev) (n : RegName) (i j : Nat) : Option Nat :=
  match n with
  | .LSA_STATUS => some (d.lsaStatus (i / 2))
  | .LSA_WORST => some (d.lsaWorst (i / 2))
  | .MADC_RING_WIDX => some (d.rgn i).widx
  | .MADC_C_STATUS => some (d.madcStatus i j)
  | .DAC_AUX_CFG => some (d.auxCfgWord i j)
  | .DAC_AUX_QDATA => some 0
  | .DAC_AUX_STATUS => some (d.auxStatus i j)
  | .DAC_RDDATA => some (d.rdData i)
  | .DEV_RDWK_STATUS => some (d.rdwkStatus i)
  | .PRT_FH_QCFG => some (d.qcfgWord i)
  | .PRT_FH_STATUS => some (d.fhStatus i)
  | .PRT_PEER_STATUS => some (d.peerStatus i)
  | .PRT_PEER_TOFS => some (d.peer i).tofs
  | .PRT_PEER_TDLY => some (d.peer i).tdly
  | .PRT_MB_STATUS => some d.mbStatus
  | .LOG_E => some (match d.log.slot i with | some e => getLe e.bytes (4 * j) 4 | none => 0)
  | .LOG_HEAD => some (d.log.written % 2 ^ 24 + b2n (8192 ≤ d.log.written) * 2 ^ 31)
  | .LOG_CNT => some d.log.cnt
  | _ => none

/-- What register `n` reads at indices `is`. -/
def Dev.value (d : Dev) (n : RegName) (is : List Nat) : Nat :=
  let i := is.getD 0 0
  let j := is.getD 1 0
  let k := is.getD 2 0
  match d.value1 n i j k with
  | some v => v
  | none => match d.value2 n i j k with
    | some v => v
    | none => (d.value3 n i j).getD (d.reg n i j k)

/-- A read clears a read-to-clear register, or its read-to-clear field, to its reset value (R7). -/
def Dev.clear (d : Dev) (n : RegName) (is : List Nat) : Dev :=
  let i := is.getD 0 0
  if n.row.rc = 0 then d
  else match n with
    | .MBX_EVQ_LOST => d.setMb i { d.mb i with lost := 0 }
    | .PRT_FH_STATUS => d.setFh i { d.fh i with lastDrop := 0 }
    | .LOG_CNT => { d with log := { d.log with cntInfo := 0, cntWarn := 0, cntError := 0, cntFatal := 0 } }
    | n => d.setReg n n.row.reset i (is.getD 1 0) (is.getD 2 0)

/-- The half held for a requester under the offset of the pair's _HI register (R9; log entry 175). -/
def heldHalf (hs : List (Nat × Nat × Nat)) (who off : Nat) : Option Nat :=
  (hs.find? (fun h => h.1 = who && h.2.1 = off)).map (·.2.2)
def dropHalf (hs : List (Nat × Nat × Nat)) (who off : Nat) : List (Nat × Nat × Nat) :=
  hs.filter (fun h => !(h.1 = who && h.2.1 = off))

/-- A read of BAR0 offset `off` by requester `who`: the value and the read's effects (R7, R9). -/
def Dev.readReg (d : Dev) (who off : Nat) : Nat × Dev :=
  match regAt off with
  | none => (0, d)
  | some (n, is) =>
    let v := d.value n is
    if n.row.half = 1 then
      let hi := match regAt (off + 4) with
        | some (h, js) => d.value h js
        | none => 0
      (v, { d with holdR := (who, lsaFold off + 4, hi) :: dropHalf d.holdR who (lsaFold off + 4) })
    else if n.row.half = 2 then
      match heldHalf d.holdR who (lsaFold off) with
      | some h => (h, { d with holdR := dropHalf d.holdR who (lsaFold off) })
      | none => (v, d)
    else (v, d.clear n is)

/-! ### Writes that reach -/

/-- CONFIG_DROPPED against the block concerned (R459). -/
def Dev.configDropped (d : Dev) (src off v : Nat) : Dev := d.logNow src 0x0006 [(4, off), (4, v)]

/-- The plain write of a register's RW and W1C bits; reserved bits are discarded (R7, R8). -/
def Dev.plainWrite (d : Dev) (n : RegName) (is : List Nat) (v : Nat) : Dev :=
  let i := is.getD 0 0
  let j := is.getD 1 0
  let k := is.getD 2 0
  let r := n.row
  let old := d.reg n i j k
  let kept := old &&& (0xFFFFFFFF ^^^ r.rw ^^^ (r.w1c &&& v))
  if r.rw = 0 && r.w1c = 0 then d else d.setReg n (kept ||| (v &&& r.rw)) i j k

/-- STRM_CFG, a spill register or STRM_SCRUB written: while a context is armed only WDOG and PERIOD take effect, and the other
fields of the write are dropped (log entry 172). A pool of another size takes its ways from the cache (R200). -/
def Dev.writeStrm (d : Dev) (n : RegName) (v : Nat) : Dev :=
  if d.armedCtxs.isEmpty then
    if n = .STRM_CFG then (d.plainWrite n [] v).trimCache else d.plainWrite n [] v
  else match n with
    | .STRM_CFG => d.plainWrite n [] (setFld (d.reg n) 0 16 v)
    | .STRM_SCRUB => d.plainWrite n [] (setFld (d.reg n) 0 16 v)
    | _ => d

/-- A RESET command has been answered and its reset has not begun (R441). -/
def Dev.resetOrdered (d : Dev) : Bool :=
  match d.cp.resetAt with
  | some (_, .warm) => true
  | some (_, .warmLog) => true
  | _ => false

/-- A doorbell ring (R415, R417, R441); `v` is the word written. -/
def Dev.ring (d : Dev) (m v : Nat) : Dev :=
  let b := d.mb m
  if v % 2 = 0 then d
  else if b.state = .busy then d.setInt m 4
  else if d.cp.ready && !d.resetOrdered then d.setMb m { b with state := .busy, rung := true }
  else
    let w (k : Nat) : Nat := (tget b.cmd k 0#32).toNat
    let (k, d) := d.fresh
    let wait := leBytes 4 (Config.freeNat k)
    if b.ver = 1 then d.respond m true (w 0 % 256) stBusy (w 0 / 2 ^ 16) 0 wait
    else d.respond m false (w 0 % 65536) stBusy (w 1 % 65536) (w 2 + w 3 * 2 ^ 32) wait

/-- Entries consumed (R431): counts compare in serial-number order. -/
def Dev.consume (d : Dev) (m v : Nat) : Dev :=
  let b := d.mb m
  let ahead := (v + 2 ^ 32 - b.cons) % 2 ^ 32
  let k := if 2 ^ 31 ≤ ahead then 0 else min ahead b.evq.length
  d.setMb m { b with cons := (b.cons + k) % 2 ^ 32, evq := b.evq.drop k }

/-- A write to a mailbox window's register or buffer. -/
def Dev.writeMbx (d : Dev) (n : RegName) (m j v : Nat) : Dev :=
  let b := d.mb m
  match n with
  | .MBX_DOORBELL => d.ring m v
  | .MBX_CFG =>
    let ver := v % 4
    if b.state = .busy || ver = 0 || ver = 3 then d else d.setMb m { b with ver }
  | .MBX_INT_STAT => d.setMb m { b with intStat := b.intStat &&& ~~~(BitVec.ofNat 5 v) }
  | .MBX_INT_EN => d.setMb m { b with intEn := BitVec.ofNat 5 v }
  | .MBX_EVQ_CONS => d.consume m v
  | .MBX_BUF => if b.state = .busy then d else d.setMb m { b with cmd := tset b.cmd j (BitVec.ofNat 32 v) }
  | _ => d

/-- LOCK_CFG written for logical tile Ee.Tt (R308): a change of MODE is staged on the bound tile. -/
def Dev.writeLockCfg (d : Dev) (e t v : Nat) : Dev :=
  let p := d.phys (ltile e t)
  let d := d.plainWrite .LOCK_CFG [e, t] v
  if p = 0xFF then d
  else d.modPt p (fun x => { x with modeNext := if (v % 4 = 1) = x.legacy then none else some (v % 4 = 1) })

/-- DAC_AUXn_CFG (R320, R322); `m` is the mailbox of the writer. -/
def Dev.writeAuxCfg (d : Dev) (rg n v m off : Nat) : Dev :=
  let old := d.reg .DAC_AUX_CFG rg n
  let v := if n = 8 then setFld (setFld v 0 3 (fld old 0 3)) 4 2 (fld old 4 2) else v
  let on := bit v 16
  let sel := fld v 0 3 != fld old 0 3 || fld v 4 2 != fld old 4 2
  let lim := d.reg .DAC_AUX_LIM rg n
  let ok := n = 8 || auxValid (fld v 0 3) (fld v 4 2) (fld lim 0 16) (fld lim 16 16) (d.rf .DAC_AUX_STEP 0 16 rg n)
  if (bit old 16 && sel) || (on && !bit old 16 && !ok) then d.configDropped (srcRegion rg) off v
  else (d.plainWrite .DAC_AUX_CFG [rg, n] (setFld v 16 1 (fld old 16 1))).auxSetRun rg n on m

/-- MADC_c_CFG (R327). -/
def Dev.writeMadcCfg (d : Dev) (rg c v : Nat) : Dev :=
  let was := d.rf .MADC_C_CFG 0 1 rg c = 1
  let d := d.plainWrite .MADC_C_CFG [rg, c] v
  if bit v 0 = was then d else d.madcSetRun rg c (bit v 0)

/-- DEV_RDWK_CFG or DEV_RDWK_WIN written: in force from the next firing, and from OFF at once (R360). -/
def Dev.writeRdwk (d : Dev) (n : RegName) (rg v : Nat) : Dev :=
  let d := d.plainWrite n [rg] v
  if d.rdwkMode rg = 2 then (d.rdwkLatch rg).offTakeover rg else d

/-- LSA_THR holds thresholds in order (R340). -/
def lsaThrOk (v : Nat) : Bool := fld v 0 10 < fld v 10 10 && fld v 10 10 < fld v 20 10 && fld v 20 10 ≤ 999

/-- A threshold write keeps CLR below SET, both signed (R377). -/
def thmOk (v : Nat) : Bool := sx 16 v < sx 16 (v / 65536)

/-- TL_CFG written: a change of SRC changes the source (R226, R232). -/
def Dev.writeTlCfg (d : Dev) (v : Nat) : Dev :=
  let was := d.tlSrc
  let port := d.rf .TL_CFG 4 3
  let d := d.plainWrite .TL_CFG [] v
  let d := if d.tlSrc = was && d.rf .TL_CFG 4 3 = port then d else d.relisten
  if d.tlSrc = was then d else d.sourceChange

/-- Registers with a rule of their own, in the TL, THM, TG and engine blocks. -/
def Dev.writeOwn1 (d : Dev) (n : RegName) (is : List Nat) (off v : Nat) : Option Dev :=
  let i := is.getD 0 0
  let j := is.getD 1 0
  match n with
  | .TL_CFG => some (d.writeTlCfg v)
  | .TL_STATUS => some (if bit v 4 then { d with tl := { d.tl with stepped := false } } else d)
  | .TL_CT_CFG =>
    some ((if fld v 4 3 = 7 || (bit v 1 && fld v 4 3 != 2) then none
      else d.ctConfig i (fld v 4 3) (fld v 1 1) (fld v 0 1) (d.ctOfs i)).getD (d.configDropped srcTimeline off v))
  | .THM_WARN => some (if thmOk v then d.plainWrite n is v else d.configDropped srcThermal off v)
  | .THM_THROT => some (if thmOk v then d.plainWrite n is v else d.configDropped srcThermal off v)
  | .STRM_CFG => some (d.writeStrm n v)
  | .STRM_SCRUB => some (d.writeStrm n v)
  | .TG_REQCLS => some (d.plainWrite n is (if i = 20 then v % 2 ^ 20 else if 20 < i then 0 else v))
  | .LOCK_CFG =>
    let p := d.phys (ltile i j)
    some (if 2 ≤ v % 4 then d.configDropped (if p = 0xFF then srcEngine i else srcPtile p) off v
      else d.writeLockCfg i j v)
  | .LOCK_STATUS =>
    let p := d.phys (ltile i j)
    some (if bit v 16 && p != 0xFF then d.modPt p (fun x => { x with dlmiss := false }) else d)
  | _ => none

/-- Registers with a rule of their own, in the region and port blocks. -/
def Dev.writeOwn2 (d : Dev) (n : RegName) (is : List Nat) (off v m : Nat) : Option Dev :=
  let i := is.getD 0 0
  let j := is.getD 1 0
  match n with
  | .LSA_THR => some (if lsaThrOk v then d.plainWrite n is v
      else d.configDropped (srcComb (i / 2) (d.stk (i / 2)).active) off v)
  | .MADC_C_CFG => some (d.writeMadcCfg i j v)
  | .MADC_C_RPER => some (d.madcPeriod i j v)
  | .TG_CTRL => some ((d.plainWrite n is v).judgeMode i)
  | .DAC_AUX_CFG => some (d.writeAuxCfg i j v m off)
  | .DAC_AUX_CODE => some (if d.auxMode i j = 0 then d.auxOut i j (v % 65536) else d)
  | .DAC_AUX_SEED => some ((d.plainWrite n is v).setAux i j
      { (d.plainWrite n is v).aux i j with lfsr := max 1 (v % 2 ^ 23) })
  | .DAC_AUX_QDATA => some (d.auxPush i j (v % 65536))
  | .DEV_RDWK_CFG => some (d.writeRdwk n i v)
  | .DEV_RDWK_WIN => some (d.writeRdwk n i v)
  | .PRT_FH_QCFG => some (if d.quadDisabled i then d.plainWrite n is v else d.configDropped (srcFh (2 * i)) off v)
  | _ => none

/-- A write of a whole 64-bit pair whose _HI register is `n` (R9). -/
def Dev.writePair (d : Dev) (n : RegName) (is : List Nat) (off lo hi : Nat) : Dev :=
  let i := is.getD 0 0
  match n with
  | .TL_CT_OFS_HI =>
    (d.ctConfig i (d.rf .TL_CT_CFG 4 3 i) (d.rf .TL_CT_CFG 1 1 i) (d.rf .TL_CT_CFG 0 1 i) (lo + hi * 2 ^ 32)).getD
      (d.configDropped srcTimeline off hi)
  | .STRM_SPILL_HI => (d.writeStrm .STRM_SPILL_LO lo).writeStrm .STRM_SPILL_HI hi
  | .MADC_RING_HI =>
    let was := d.rf .MADC_RING_LO 0 1 i = 1
    let d := (d.plainWrite .MADC_RING_LO [i] lo).plainWrite .MADC_RING_HI [i] hi
    -- A record that waits asks again where its slot now lies (R333).
    (if bit lo 0 && !was then d.setRgn i { d.rgn i with widx := 0 } else d).askRecord i
  | _ => d

/-- A write of `v` by requester `who` that reaches BAR0 offset `off`; `m` is the mailbox it counts for. -/
def Dev.writeReg (d : Dev) (who off v m : Nat) : Dev :=
  match regAt off with
  | none => d
  | some (n, is) =>
    let r := n.row
    if r.half = 1 then
      if r.rw = 0 then d
      else { d with holdW := (who, off + 4, v) :: dropHalf d.holdW who (off + 4) }
    else if r.half = 2 then
      if r.rw = 0 then d
      else
        let lo := match heldHalf d.holdW who off with
          | some h => h
          | none => match regAt (off - 4) with
            | some (l, js) => d.value l js
            | none => 0
        Dev.writePair { d with holdW := dropHalf d.holdW who off } n is off lo v
    else match d.writeOwn1 n is off v with
      | some d => d
      | none => match d.writeOwn2 n is off v m with
        | some d => d
        | none =>
          if 0x10000 ≤ off && off < 0x20000 then d.writeMbx n (is.getD 0 0) (is.getD 1 0) v
          else d.plainWrite n is v

/-! ### Host accesses (R381, R433, R441) -/

/-- The PF BAR0 offset that function `fn` (0 the PF, 1–4 VF0–VF3) reaches at its own BAR0 offset (R381). -/
def bar0 (fn off : Nat) : Nat := if fn = 0 then off else 0x10000 + fn * 0x2000 + off

/-- Function `fn` reaches BAR0: a VF only while VFs are enabled. -/
def Dev.fnOn (d : Dev) (fn : Nat) : Bool := fn = 0 || d.ports.vfs

/-- A host write reaches the register at PF offset `off` (R433). -/
def Dev.reaches (d : Dev) (fn off : Nat) : Bool :=
  let m := (off - 0x10000) / 0x2000
  let owns := 0x10000 ≤ off && off < 0x20000 && (if fn = 0 then m = 0 || m = 5 else m = fn)
  owns || d.cp.lcState = 0 || (fn = 0 && d.cp.windows.any (fun w => w.2.1 ≤ off && off < w.2.1 + w.2.2))

/-- A host write of `v` at PF offset `off`. -/
def Dev.hostWrite (d : Dev) (fn off v : Nat) : Dev :=
  if !d.fnOn fn then d
  else if d.reaches fn off then d.writeReg fn off v (if fn = 0 then 0 else fn)
  else d.logNow srcHost 0x0004 [(4, off), (4, v)]

/-- A host read of PF offset `off`: until the CP is ready, all ones outside the mailbox windows (R441). -/
def Dev.hostRead (d : Dev) (fn off : Nat) : Dev :=
  if !d.fnOn fn then d
  else if !d.cp.ready && !(0x10000 ≤ off && off < 0x20000) then d.emit (.busData fn off 0xFFFFFFFF)
  else
    let (v, d) := d.readReg fn off
    d.emit (.busData fn off v)

/-- BAD_WIDTH_ACCESS (R5): a read completes with all ones. -/
def Dev.badWidth (d : Dev) (fn off : Nat) (isRead : Bool) : Dev :=
  if !d.fnOn fn then d
  else
    let d := d.logNow srcHost 0x0002 [(4, off)]
    if isRead then d.emit (.busData fn off 0xFFFFFFFF) else d

end Sys2Proof.Machine
end

