-- ==== Sys2Proof/Machine/Cmd.lean ====
section
/-!
DEFINITION. How the CP takes a Roadbook command (R411–R428): the command tables, the order in which a message is
checked, and the rules that many commands share.
-/
namespace Sys2Proof.Machine

/-! ### The command tables (R422, R426, R428) -/

/-- The command classes of R411. -/
inductive CmdClass where
  | q | w | c | m | d | p
  /-- v1 WRREG, which the tables give no class. -/
  | none
  deriving DecidableEq, Repr

/-- A row of the command tables: the class; the payload as (alignment, bytes) of each field or structure in order,
for a payload whose counts are read from it; whether the row is marked MF/PV. -/
structure CmdRow where
  cls : CmdClass
  lay : List Byte → List (Nat × Nat)
  mfpv : Bool := false

def u8 : Nat × Nat := (1, 1)
def u16 : Nat × Nat := (2, 2)
def u32 : Nat × Nat := (4, 4)
def u64 : Nat × Nat := (8, 8)

/-- A row with a payload of one shape. -/
def CmdRow.of (cls : CmdClass) (lay : List (Nat × Nat)) : CmdRow := { cls, lay := fun _ => lay }

/-- Rows of groups 0x01 to 0x05. -/
def cmdRow1 (op : Nat) : Option CmdRow :=
  match op with
  | 0x0100 => some (.of .q [])
  | 0x0101 => some (.of .c [u8])
  | 0x0102 => some (.of .c [u8, u8, u16, u16, u32, u32, u64])
  | 0x0103 => some { cls := .w, lay := fun _ => [u8, u8, u16] }
  | 0x0104 => some (.of .m [u8])
  | 0x0105 => some (.of .m [u8, u64])
  | 0x0106 => some (.of .m [u8, u64])
  | 0x0107 => some (.of .m [u8, u32, u64])
  | 0x0108 => some (.of .m [u8])
  | 0x0109 => some (.of .p [u32, u32])
  | 0x010A => some (.of .p [u8])
  | 0x0200 => some (.of .c [u64])
  | 0x0201 => some (.of .c [u64])
  | 0x0202 => some (.of .c [u32])
  | 0x0203 => some (.of .c [u8, u8, u8, u8, u8, u8, u8, u8])
  | 0x0204 => some (.of .c [u8, (1, 16), (1, 16)])
  | 0x0205 => some (.of .c [u64])
  | 0x0206 => some (.of .c [u8, u8, u8, u8, u64])
  | 0x0207 => some (.of .q [])
  | 0x0300 => some { cls := .w, lay := fun p => [u16, u16, (8, 32 * getLe p 2 2)] }
  | 0x0301 => some (.of .q [u16, u16, u8])
  | 0x0302 => some (.of .w [u8])
  | 0x0400 => some (.of .w [u16, (8, 96)])
  | 0x0401 => some (.of .w [u16, u64])
  | 0x0402 => some (.of .w [u16])
  | 0x0403 => some (.of .w [u8, u64, u64, u64])
  | 0x0404 => some (.of .c [u8, u16])
  | 0x0405 => some (.of .c [u8, u16, u32, u64])
  | 0x0500 => some { cls := .w, lay := fun p =>
      [u64, u32, u16, u16, (8, 8 * ((upTo 32).filter (bit (getLe p 8 4))).length)] }
  | 0x0501 => some (.of .w [u32, u8])
  | 0x0502 => some (.of .q [u8])
  | 0x0503 => some (.of .w [u8, u16, u32])
  | _ => none

/-- Rows of groups 0x06 to 0x0A. -/
def cmdRow2 (op : Nat) : Option CmdRow :=
  match op with
  | 0x0600 => some (.of .w [u8, u8, u8, u32])
  | 0x0601 => some { cls := .w, lay := fun p => [u16, u16, (8, 32 * getLe p 2 2)] }
  | 0x0602 => some (.of .q [u16, u16])
  | 0x0700 => some (.of .c [u8, (8, 136)])
  | 0x0701 => some (.of .q [u8, u8, u8])
  | 0x0702 => some (.of .c [u8, u64])
  | 0x0703 => some (.of .c [u16, (4, 24)])
  | 0x0704 => some (.of .c [u8])
  | 0x0705 => some (.of .w [u16, u32])
  | 0x0706 => some (.of .c [u8, u8, u8, u16, u16])
  | 0x0707 => some (.of .c [u16, u64])
  | 0x0708 => some (.of .q [u16, u64])
  | 0x0800 => some (.of .c [u8, u32])
  | 0x0801 => some { cls := .c, lay := fun _ => [u8, u8, (2, 128)], mfpv := true }
  | 0x0802 => some (.of .c [u8, u8])
  | 0x0803 => some (.of .q [u8])
  | 0x0900 => some (.of .w [u8, u8, u8, u8, u8, u8, u32, u16, u16, u16, u32])
  | 0x0901 => some { cls := .w, lay := fun p => [u8, u8, u16, (2, 2 * getLe p 2 2)] }
  | 0x0902 => some { cls := .c, lay := fun _ => [u8, u8, u8, u8, u16], mfpv := true }
  | 0x0903 => some (.of .w [u8, u8, u8, u16, (4, 32), (4, 32)])
  | 0x0904 => some (.of .w [u8])
  | 0x0905 => some (.of .c [u8, u8, u8, u64])
  | 0x0A00 => some (.of .q [])
  | 0x0A01 => some (.of .c [u8, u32, u32])
  | 0x0A02 => some (.of .c [u8, u32])
  | _ => none

/-- Rows of groups 0x0B to 0x0E. -/
def cmdRow3 (op : Nat) : Option CmdRow :=
  match op with
  | 0x0B00 => some (.of .c [u8, u8, u8])
  | 0x0B01 => some { cls := .w, lay := fun p => [u16, u16, (8, 16 * getLe p 2 2)] }
  | 0x0B02 => some (.of .c [u32, u64, u64])
  | 0x0B03 => some (.of .q [u8, u8, u8, u8, u8])
  | 0x0B04 => some { cls := .c, lay := fun p => [u8, u8, u8, u8, u8, (1, getLe p 4 1)] }
  | 0x0B05 => some (.of .c [u8, u16, u16])
  | 0x0C00 => some (.of .c [u8, u8])
  | 0x0C01 => some (.of .c [u8, u32, u32])
  | 0x0C02 => some (.of .c [u16, u8, u8])
  | 0x0C03 => some (.of .c [u8, u16])
  | 0x0D00 => some (.of .q [u32, u16])
  | 0x0D01 => some (.of .q [u32])
  | 0x0E00 => some (.of .d [u8, u8, u8, u8, u8, u8, u8, u8, u16, u16, u16, u16])
  | 0x0E01 => some (.of .d [u8, u16, u16])
  | 0x0E02 => some (.of .d [u8, u8, u8, u8, u8])
  | 0x0E03 => some (.of .d [u8, u64])
  | 0x0E04 => some (.of .q [u32, u16])
  | _ => none

/-- The v1 commands (R428), with the class of the command each maps to. -/
def cmdRowV1 (op : Nat) : Option CmdRow :=
  match op with
  | 0x01 => some (.of .q [])
  | 0x02 => some (.of .m [u8])
  | 0x03 => some (.of .q [u32, u16])
  | 0x04 => some (.of .none [u32, u32])
  | 0x05 => some (.of .w [u32, u64])
  | 0x06 => some (.of .q [])
  | 0x07 => some (.of .c [u16, u64])
  | 0x08 => some (.of .q [u16, u64])
  | 0x09 => some (.of .c [u16, u8])
  | 0x0A => some (.of .q [u32, u16])
  | 0x0B => some (.of .c [u16, u8])
  | _ => none

/-- The row of an opcode, under the header version of its mailbox. -/
def cmdRow (v1 : Bool) (op : Nat) : Option CmdRow :=
  if v1 then cmdRowV1 op
  else match cmdRow1 op with
    | some r => some r
    | none => match cmdRow2 op with
      | some r => some r
      | none => cmdRow3 op

/-- Length of a payload laid out from `off` on (R422); an item of no bytes takes no place. -/
def layLen : Nat → List (Nat × Nat) → Nat
  | off, [] => off
  | off, (a, n) :: l => if n = 0 then layLen off l else layLen (alignUp off a + n) l

/-- Offsets of the gap bytes that alignment leaves (R422). -/
def layGaps : Nat → List (Nat × Nat) → List Nat
  | _, [] => []
  | off, (a, n) :: l =>
    if n = 0 then layGaps off l
    else (upTo (alignUp off a - off)).map (off + ·) ++ layGaps (alignUp off a + n) l

/-! ### Answers -/

/-- BUSY_RETRY with an estimate the manual does not fix: a free value. -/
def Dev.busyRetry (d : Dev) (c : Cmd) : Dev :=
  let (k, d) := d.fresh
  d.answer c stBusy [] (Config.freeNat k)

/-- Checks in order, each a condition, a status and its DETAIL: the first that holds is answered and changes nothing
(R426); where none holds, `k` goes on. -/
def Dev.checked (d : Dev) (c : Cmd) (cs : List (Bool × Nat × Nat)) (k : Dev → Dev) : Dev :=
  match cs with
  | [] => k d
  | (bad, st, det) :: cs =>
    if bad then (if st = stBusy then d.busyRetry c else d.answer c st [] det) else d.checked c cs k

/-- A change is made, then OK with `resp` answered. -/
def Dev.ok (d : Dev) (c : Cmd) (resp : List Byte := []) : Dev := d.answer c stOk resp

/-! ### Permission (R411–R413) -/

/-- The classes of a mailbox (R411). -/
def mbxClasses (m : Nat) : List CmdClass :=
  if m = 0 then [.q, .w, .c, .m, .d, .p]
  else if m = 5 then [.q, .d, .p]
  else if m = 7 then [.q, .m]
  else [.q, .w]

/-- A command of class `k` is permitted to mailbox `m` (R411, R413). -/
def Dev.permits (d : Dev) (m : Nat) (k : CmdClass) : Bool :=
  if d.cp.lcState = 0 then true
  else if d.cp.lcState = 4 && !(k = .q || k = .m) then false
  else if k = .none then true
  else if d.cp.lcState = 3 && (k = .w || k = .c) then false
  else k ∈ mbxClasses m

/-- Mailboxes that name only what FN_ASSIGN gave them (R412). -/
def restricted (m : Nat) : Bool := (1 ≤ m && m ≤ 4) || m = 6

/-- What FN_ASSIGN gave mailbox `m`; its function number is the mailbox's own. -/
def Dev.fnOf (d : Dev) (m : Nat) : FnRes := tget d.cp.fns m {}

def Dev.mayEngine (d : Dev) (m e : Nat) : Bool := !restricted m || bit (d.fnOf m).engmask e
/-- A stream context: an engine's, or a fronthaul one. -/
def Dev.mayCtx (d : Dev) (m n : Nat) : Bool :=
  if n < 256 then d.mayEngine m (n / 8) else !restricted m || bit (d.fnOf m).fhmask (n - 256)
def Dev.mayEntry (d : Dev) (m n : Nat) : Bool :=
  !restricted m || ((d.fnOf m).msFirst ≤ n && n < (d.fnOf m).msFirst + (d.fnOf m).msCount)

/-- The region is ready, as far as commands that name it must wait for it (R442). -/
def Dev.regionUp (d : Dev) (rg : Nat) : Bool := d.cp.device || bit d.cp.regions rg

/-! ### Work that the CP ends or reads for many commands -/

/-- A GRANT_DIRECT window covers one of `n` bytes from `off` (R435). -/
def Dev.covered (d : Dev) (off n : Nat) : Bool := d.cp.windows.any (fun w => w.2.1 < off + n && off < w.2.1 + w.2.2)

/-- The register at `off` lies in a GRANT_DIRECT window. -/
def Dev.coveredReg (d : Dev) (n : RegName) (i : Nat := 0) (j : Nat := 0) (k : Nat := 0) : Bool :=
  d.covered (n.off i j k) 4

/-- `n` bytes from a device address lie in DRAM. -/
def inDram (a n : Nat) : Bool := a + n ≤ dramEnd

/-- Placements of engine `e` that have not started are removed; with `running` its list also stops, as R132 does, with
completion status CANCELLED. -/
def Dev.cancelList (d : Dev) (e : Nat) (running : Bool) : Dev :=
  let d := d.modEng e (fun x => { x with placed := [] })
  if running then d.cancelRun e else d

/-- The first W or C command ends the standalone program (R448). -/
def Dev.endStandalone (d : Dev) : Dev :=
  let d := (upTo 32).foldl (fun d e => d.cancelList e true) d
  let d := ([256, 257] ++ (upTo 8).map (8 * ·)).foldl
    (fun (d : Dev) n => if (d.ctx n).st = CtxState.idle then d else d.disarm n) d
  let drop (t : Tbl (BitVec 256)) : Tbl (BitVec 256) := tdrop (tdrop t 0x40) 0x60
  { d with
    ms := { d.ms with shadow := drop d.ms.shadow, active := drop d.ms.active }
    cp := { d.cp with standalone := false } }

/-! ### COMMAND_TAKE -/

/-- `n` bytes of a command buffer from offset `off`. -/
def Mailbox.bytes (b : Mailbox) (off n : Nat) : List Byte :=
  ((upTo ((n + 3) / 4)).flatMap (fun k => leBytes 4 (tget b.cmd (off / 4 + k) 0#32).toNat)).take n

/-- The command in mailbox `m`, under its header version (R420, R421). -/
def Dev.cmdIn (d : Dev) (m : Nat) : Cmd :=
  let b := d.mb m
  let w (k : Nat) : Nat := (tget b.cmd k 0#32).toNat
  if b.ver = 1 then
    { mbx := m, v1 := true, opcode := w 0 % 256, async := false, seq := w 0 / 2 ^ 16, hostts := 0
      payload := b.bytes 8 (min 4088 (w 1 % 65536)) }
  else
    { mbx := m, v1 := false, opcode := w 0 % 65536, async := bit (w 0) 17, seq := w 1 % 65536
      hostts := w 2 + w 3 * 2 ^ 32, payload := b.bytes 16 (min 4080 (w 1 / 2 ^ 16)) }

/-- LEN of the command in mailbox `m`, and the largest payload of its header version. -/
def Dev.lenIn (d : Dev) (m : Nat) : Nat × Nat :=
  let w := (tget (d.mb m).cmd 1 0#32).toNat
  if (d.mb m).ver = 1 then (w % 65536, 4088) else (w / 2 ^ 16, 4080)

/-- The mailbox the CP serves next: MBX7 first, then round robin after the one served last (R416). -/
def Dev.nextMbx (d : Dev) : Option Nat :=
  if (d.mb 7).rung then some 7
  else ((upTo 8).map (fun k => (d.cp.lastServed + 1 + k) % 8)).find? (fun m => (d.mb m).rung)

/-- The class of ENABLE: C for a port, W for engines and tiles. -/
def classOfCmd (c : Cmd) (r : CmdRow) : CmdClass :=
  if !c.v1 && c.opcode = 0x0103 && c.f 0 1 = 2 then .c else r.cls

/-- COMMAND_TAKE: the next command is taken, and answered where its header, length, layout, class or the life cycle
forbids it; otherwise the CP holds it for the command's own row. -/
def Dev.takeCommand (d : Dev) : Dev :=
  if !d.cp.ready || d.cp.cur.isSome || d.resetOrdered then d
  else match d.nextMbx with
    | none => d
    | some m =>
      let c := d.cmdIn m
      let (len, maxLen) := d.lenIn m
      let d := d.setMb m { d.mb m with rung := false }
      let d : Dev := { d with cp := { d.cp with cur := some c, lastServed := m } }
      if d.cp.recovery && m != 0 && m != 7 then d.busyRetry c
      else match cmdRow c.v1 c.opcode with
        | none => d.answer c (if c.v1 && 0x0C ≤ c.opcode && c.opcode ≤ 0x1F then stVersion else stBadOpcode)
        | some r =>
          let k := classOfCmd c r
          let lay := r.lay c.payload
          let gap := (layGaps 0 lay).find? (fun o => c.f o 1 != 0)
          d.checked c
            [(maxLen < len || len != layLen 0 lay, stBadLength, 0),
             (gap.isSome, stBadField, gap.getD 0),
             (!d.permits m k || (r.mfpv && 1 < d.cp.lcState) || (!c.v1 && c.opcode = 0x0106 && d.cp.lcState != 0)
               || (d.cp.recovery && !(k = .q || k = .m)), stNotPermitted, 0)]
            (fun d => if d.cp.standalone && (k = .w || k = .c) then d.endStandalone else d)

/-- A command's own row: it acts on the command the CP holds, where that is the command the row names. -/
def Dev.command (d : Dev) (v1 : Bool) (opcode : Nat) (f : Dev → Cmd → Dev) : Dev :=
  match d.cp.cur with
  | some c => if c.v1 = v1 && c.opcode = opcode then f d c else d
  | none => d

end Sys2Proof.Machine
end

