-- ==== Sys2Proof/Machine/CmdDevice.lean ====
section
/-!
DEFINITION. Commands of the device and life-cycle group (R426 group 0x01), the firmware image rules (R449–R451) and
the life-cycle change (R453–R455).
-/
namespace Sys2Proof.Machine

/-! ### Firmware images (R449–R451) -/

/-- Flash offset of a slot's image. -/
def slotBase (slot : Nat) : Nat := if slot = 0 then 0x10000 else 0x1000000
/-- Bytes of a slot. -/
def slotSize (slot : Nat) : Nat := if slot = 0 then 0xFF0000 else 0x1000000

/-- `n` bytes of the flash from offset `a`. -/
def Dev.flashBytes (d : Dev) (a n : Nat) : List Byte := (upTo n).map (fun i => Memory.read d.cp.flash (a + i))

/-- The persistent key slot holds a key (R453, R454). -/
def Dev.keyIn (d : Dev) (k : Nat) : Bool := (tfind d.cp.keys k).isSome

/-- MAGIC and LEN of a slot's image are valid. -/
def Dev.imageShape (d : Dev) (slot : Nat) : Bool :=
  let b := slotBase slot
  ofLe (d.flashBytes b 4) = 0x38555A46 && ofLe (d.flashBytes (b + 12) 4) + 512 ≤ slotSize slot

/-- The signature check is skipped: MANUFACTURE with key slot 0 empty (R451). -/
def Dev.sigSkipped (d : Dev) : Bool := d.cp.lcState = 0 && !d.keyIn 0

/-- The image of a slot is accepted (R451). The signature covers bytes 0–115 and the body. -/
def Dev.imageOk (d : Dev) (slot : Nat) : Bool :=
  let b := slotBase slot
  let len := ofLe (d.flashBytes (b + 12) 4)
  let key := d.flashBytes (b + 16) 97
  d.imageShape slot && d.cp.svn ≤ ofLe (d.flashBytes (b + 8) 2) &&
    (d.sigSkipped ||
      (tfind d.cp.keys 0 = some (Config.sha384 key) &&
        Config.sigOk key (d.flashBytes (b + 116) 96) (d.flashBytes b 116 ++ d.flashBytes (b + 512) len)))

/-- FWVER of the running firmware. -/
def Dev.fwver (d : Dev) : Nat :=
  if d.cp.recovery then Config.recoveryVer % 2 ^ 32 else ofLe (d.flashBytes (slotBase d.cp.slot + 4) 4)

/-! ### Queries and identity -/

/-- The response of GET_INFO. -/
def Dev.infoBytes (d : Dev) : List Byte :=
  pack [(1, d.cp.lcState), (1, d.devnum.getD 0xFF), (1, d.cp.slot), (1, 0x06), (4, d.fwver),
    (2, d.cp.regions % 256 + b2n d.cp.device * 256), (2, 0x10)]

def Dev.cmdGetInfo (d : Dev) (c : Cmd) : Dev := d.ok c d.infoBytes

/-- SET_DEVNUM (R29, R397): the exchange repeats on every port that is UP. -/
def Dev.cmdSetDevnum (d : Dev) (c : Cmd) : Dev :=
  let n := c.f 0 1
  d.checked c
    [(3 < n, stBadField, 0), (d.devnum.isSome, stConflict, 0),
     ((upTo 4).any (fun p => (d.peer p).pdev = some n), stBadField, 0)]
    (fun d => (Dev.checkConflicts { d with devnum := some n }).ok c)

/-- Functions other than `fn` that can hold resources. -/
def otherFns (fn : Nat) : List Nat := [1, 2, 3, 4, 6].filter (· != fn)

/-- FN_ASSIGN (R412). -/
def Dev.cmdFnAssign (d : Dev) (c : Cmd) : Dev :=
  let fn := c.f 0 1
  let r : FnRes := { bar2log := c.f 1 1, msFirst := c.f 2 2, msCount := c.f 4 2, engmask := c.f 8 4
                     fhmask := c.f 12 4, dramBase := c.f 16 8 }
  let others := (otherFns fn).map d.fnOf
  let old := d.fnOf fn
  let isVf : Bool := 1 ≤ fn && fn ≤ 4
  d.checked c
    [(!isVf && fn != 6, stBadField, 0), (6 < r.bar2log && r.bar2log != 0xFF, stBadField, 1),
     (4096 < r.msFirst + r.msCount || 0 < r.msCount && others.any (fun o => 0 < o.msCount &&
        r.msFirst < o.msFirst + o.msCount && o.msFirst < r.msFirst + r.msCount), stBadField, 2),
     (others.any (fun o => r.engmask &&& o.engmask != 0), stBadField, 8),
     (others.any (fun o => r.fhmask &&& o.fhmask != 0), stBadField, 12),
     (isVf && d.ports.vfs && (r.bar2log != old.bar2log || r.dramBase != old.dramBase), stConflict, 0)]
    (fun d => Dev.ok { d with cp := { d.cp with fns := tset d.cp.fns fn r } } c)

/-! ### ENABLE (R358, R359) -/

/-- INDEX of ENABLE names a block of its KIND. -/
def enableIndexOk (kind i : Nat) : Bool :=
  if kind = 0 then i < 32 else if kind = 1 then i < 128 else (0x10 ≤ i && i < 0x18) || (0x20 ≤ i && i < 0x24)

/-- The block of ENABLE is off, runs, runs to its safe point (2), or does so with an enable pending (3). -/
def Dev.blockState (d : Dev) (kind i : Nat) : Nat :=
  if kind = 0 then match (d.eng i).st with
    | .off => 0 | .shutdown => 2 | .shutdownRestart => 3 | _ => 1
  else if kind = 1 then match (d.ltSlot i).st with
    | .off => 0 | .shutdown => 2 | .shutdownRestart => 3 | _ => 1
  else if i < 0x20 then match (d.fh (i - 0x10)).st with
    | .off => 0 | .shutdown => 2 | .shutdownRestart => 3 | _ => 1
  else match (d.peer (i - 0x20)).st with
    | .down => 0 | .shutdown => 2 | .shutdownRestart => 3 | _ => 1

def Dev.enableBlock (d : Dev) (kind i : Nat) : Dev :=
  if kind = 0 then d.enableEngine i else if kind = 1 then d.enableTile i
  else if i < 0x20 then d.enableFh (i - 0x10) else d.enablePeer (i - 0x20)

def Dev.disableBlock (d : Dev) (kind i : Nat) : Dev :=
  if kind = 0 then d.disableEngine i else if kind = 1 then d.disableTile i
  else
    let d := if d.blockState kind i = 3 then d.endJobs (enableJob 2 i true) stConflict else d
    if i < 0x20 then d.disableFh (i - 0x10) else d.disablePeer (i - 0x20)

/-- ENABLE. A disable ends at the safe point; an enable before it is pending, and one of a block that is off starts it
up. A tile that starts up reports the end of the command when its acquisition begins. -/
def Dev.cmdEnable (d : Dev) (c : Cmd) : Dev :=
  let kind := c.f 0 1
  let on := c.f 1 1
  let i := c.f 2 2
  let e := if kind = 0 then i else i / 4
  let st := d.blockState kind i
  d.checked c
    [(2 < kind, stBadField, 0), (1 < on, stBadField, 1), (!enableIndexOk kind i, stBadField, 2),
     ((kind < 2 && !d.mayEngine c.mbx e) || (kind = 2 && 0x20 ≤ i && on = 1 && bit d.cp.straps 3), stNotPermitted, 0),
     (kind < 2 && !d.regionUp (e / 4), stBusy, 0)]
    (fun d =>
      if on = 1 then
        if st = 2 || st = 3 then Dev.enableBlock (d.startJob { c with async := true }) kind i
        else (d.enableBlock kind i).ok c
      else if st = 0 then (d.disableBlock kind i).ok c
      else (d.startJob c).disableBlock kind i)

/-! ### RESET and the life cycle -/

/-- A life-cycle change runs (R455). -/
def Dev.lcChanging (d : Dev) : Bool :=
  d.cp.jobs.any (fun j => j.opcode = 0x0105 && !j.v1) || (match d.cp.resetAt with
    | some (_, .lifeCycle) => true
    | _ => false)

/-- RESET: the reset begins 1 ms after DONE (R441). -/
def Dev.cmdReset (d : Dev) (c : Cmd) : Dev :=
  let typ := c.f 0 1
  d.checked c [(1 < typ, stBadField, 0), (d.lcChanging, stConflict, 0)]
    (fun d => Dev.ok { d with cp := { d.cp with
      resetAt := some (d.time + 1966080, if typ = 0 then .warm else .warmLog) } } c)

/-- The transition of R453. -/
def lcAllowed (from_ to_ : Nat) : Bool :=
  (from_ = 0 && to_ = 1) || (from_ = 1 && to_ = 2) || (from_ = 2 && to_ = 3) || (from_ = 3 && to_ = 2)
    || (from_ != 4 && to_ = 4)

/-- The signed authorisation at `a` permits the change to `to_` (R454). -/
def Dev.authorised (d : Dev) (a to_ : Nat) : Bool :=
  let b := d.rdBytes a 216
  let key := slice b 16 97
  a % 8 = 0 && inDram a 216 && getLe b 0 8 = d.cp.uid && getLe b 8 1 = to_ && getLe b 12 4 = d.cp.lcCount + 1
    && tfind d.cp.keys 1 = some (Config.sha384 key) && Config.sigOk key (slice b 120 96) (slice b 0 120)

/-- LC_ADVANCE (R453–R455): lists and streams stop and ports are disabled; the zeroing of DRAM follows. -/
def Dev.cmdLcAdvance (d : Dev) (c : Cmd) : Dev :=
  let to_ := c.f 0 1
  d.checked c
    [(!lcAllowed d.cp.lcState to_, stBadField, 0),
     (d.lcChanging || (to_ = 1 && !(d.keyIn 0 && d.keyIn 1)), stConflict, 0),
     (to_ = 3 && 7 ≤ d.cp.returns, stNoResource, 0)]
    (fun d =>
      let ok := d.cp.lcState = 0 || d.authorised (c.f 8 8) to_
      -- The authorisation passes the hub cache (R17).
      let d := (if d.cp.lcState = 0 then d else d.hubAccess 0x145 (c.f 8 8) 216 false).startJob c
      if !ok then d.endJobs (fun j => j.opcode = 0x0105 && !j.v1) stBadField
      else
        let d := (upTo 32).foldl (fun d e => d.cancelList e true) d
        let d := (d.str.ctxs.map (·.1)).foldl
          (fun (d : Dev) n => if (d.ctx n).st = CtxState.idle then d else d.disarm n) d
        (((upTo 8).map (0x10 + ·)) ++ ((upTo 4).map (0x20 + ·))).foldl (fun d i => d.disableBlock 2 i) d)

/-- LC_ZEROING_COMPLETE: DRAM is zero, the fuses of the new state are burnt, ASYNC_DONE is placed, and the reset
follows 1 ms later (R455). The persistent keys are overwritten on the way to DECOMMISSIONED (R453). -/
def Dev.lcZeroed (d : Dev) : Dev :=
  match d.cp.jobs.find? (fun j => j.opcode = 0x0105 && !j.v1) with
  | none => d
  | some j =>
    let to_ := j.f 0 1
    let cp := { d.cp with
      lcState := to_, lcCount := (d.cp.lcCount + 1) % 2 ^ 16, windows := []
      returns := if to_ = 3 then d.cp.returns + 1 else d.cp.returns
      keys := if to_ = 4 then (upTo 4).map (fun k => (k, zeros 48)) else d.cp.keys
      resetAt := some (d.time + 1966080, ResetType.lifeCycle) }
    (Dev.wrZero { d with cp, str := { d.str with poison := [], writeBack := [] } } 0 dramEnd).endJob j stOk

/-- KEY_INSTALL (R454). -/
def Dev.cmdKeyInstall (d : Dev) (c : Cmd) : Dev :=
  let slot := c.f 0 1
  let a := c.f 8 8
  let b := d.rdBytes a 56
  d.checked c [(3 < slot, stBadField, 0), (a % 8 != 0 || !inDram a 56, stBadField, 8)]
    (fun d => (d.hubAccess 0x145 a 56 false).checked c
      [(getLe b 0 1 != slot || getLe b 1 7 != 0, stBadField, 8), (d.keyIn slot, stConflict, 0)]
      (fun d => Dev.ok { d with cp := { d.cp with keys := tset d.cp.keys slot (slice b 8 48) } } c))

/-! ### Firmware -/

/-- FW_UPDATE: the write and its check end with FLASH_WRITE_COMPLETE. -/
def Dev.cmdFwUpdate (d : Dev) (c : Cmd) : Dev :=
  let slot := c.f 0 1
  let len := c.f 4 4
  d.checked c
    [(1 < slot || (slot = d.cp.slot && !d.cp.recovery), stBadField, 0),
     (len < 512 || slotSize slot < len, stBadField, 4), (c.f 8 8 % 8 != 0 || !inDram (c.f 8 8) len, stBadField, 8),
     (d.lcChanging, stConflict, 0)]
    (fun d => d.startJob c)

/-- FLASH_WRITE_COMPLETE: the oldest FW_UPDATE has written its slot; the image is checked as the boot ROM would. -/
def Dev.flashDone (d : Dev) : Dev :=
  match d.cp.jobs.find? (fun j => j.opcode = 0x0107 && !j.v1) with
  | none => d
  | some j =>
    let slot := j.f 0 1
    let data := d.rdBytes (j.f 8 8) (j.f 4 4)
    let d := d.hubAccess 0x145 (j.f 8 8) (j.f 4 4) false
    let d : Dev := { d with cp := { d.cp with flash := Memory.writeBytes d.cp.flash (slotBase slot) data } }
    d.endJob j (if d.imageOk slot then stOk else stBadField)

def Dev.cmdFwSelect (d : Dev) (c : Cmd) : Dev :=
  d.checked c [(1 < c.f 0 1, stBadField, 0)]
    (fun d => Dev.ok { d with cp := { d.cp with bootSel := c.f 0 1 } } c)

/-! ### Direct grants (R434) -/

/-- A register the host may be given to write directly. -/
def Dev.grantable (d : Dev) (off : Nat) : Bool :=
  match regAt off with
  | none => false
  | some (n, is) =>
    let i := is.getD 0 0
    let j := is.getD 1 0
    let aux : Bool := j = 6 || j = 7 || (j = 8 && (d.rgn i).hinj.isSome)
    match n with
    | .DAC_AUX_CFG => aux
    | .DAC_AUX_CODE => aux
    | .DAC_AUX_PERIOD => aux
    | .DAC_AUX_LIM => aux
    | .DAC_AUX_STEP => aux
    | .DAC_AUX_SEED => aux
    | .DAC_AUX_QDATA => aux
    | .DAC_AUX_STATUS => aux
    | .MADC_C_REG => j = 1 && 24 ≤ is.getD 2 0
    | .MADC_C_INJ => j = 1
    | .TILE_TRIM_ADDR => true
    | .LOCK_RING_ADDR => true
    | .DAC_RDADDR => true
    | .PRT_TIMING_CFG => true
    | _ => false

def Dev.cmdGrantDirect (d : Dev) (c : Cmd) : Dev :=
  let off := c.f 0 4
  let len := c.f 4 4
  let free := (upTo 8).find? (fun w => (tfind d.cp.windows w).isNone)
  d.checked c
    [(off % 4 != 0, stBadField, 0), (len % 4 != 0 || len < 4 || 4096 < len, stBadField, 4),
     (!(upTo (len / 4)).all (fun k => d.grantable (off + 4 * k)), stNotPermitted, 0),
     (d.covered off len, stBadField, 0), (free.isNone, stNoResource, 0)]
    (fun d => Dev.ok { d with cp := { d.cp with windows := tset d.cp.windows (free.getD 0) (off, len) } } c
      [BitVec.ofNat 8 (free.getD 0)])

def Dev.cmdRevokeDirect (d : Dev) (c : Cmd) : Dev :=
  let w := c.f 0 1
  d.checked c [((tfind d.cp.windows w).isNone, stBadField, 0)]
    (fun d => Dev.ok { d with cp := { d.cp with windows := tdrop d.cp.windows w } } c)

end Sys2Proof.Machine
end

