-- ==== Sys2Proof/Machine/CmdTime.lean ====
section
/-!
DEFINITION. Commands of the time and Milestone groups (R426 groups 0x02 and 0x03).
-/
namespace Sys2Proof.Machine

/-! ### Time and timelines -/

/-- TIME_SET (R230). -/
def Dev.cmdTimeSet (d : Dev) (c : Cmd) : Dev :=
  let (st, d) := d.timeSet (c.f 0 8)
  d.answer c st

/-- PPS_LABEL: the value of the next edge (R229). -/
def Dev.cmdPpsLabel (d : Dev) (c : Cmd) : Dev :=
  Dev.ok { d with tl := { d.tl with ppsLabel := some (c.f 0 8) } } c

/-- FREQ_TRIM (R226). -/
def Dev.cmdFreqTrim (d : Dev) (c : Cmd) : Dev :=
  let ppb := sx 32 (c.f 0 4)
  d.checked c [(ppb < -100000 || 100000 < ppb, stBadField, 0)]
    (fun d => Dev.ok { d with tl := { d.tl with trimPpb := ppb } } c)

/-- TIME_SRC (R226): TL_CFG but for PPS_OUT, and the PTP domain. -/
def Dev.cmdTimeSrc (d : Dev) (c : Cmd) : Dev :=
  d.checked c
    [(2 < c.f 0 1, stBadField, 0), (7 < c.f 1 1, stBadField, 1), (1 < c.f 2 1, stBadField, 2),
     (1 < c.f 3 1, stBadField, 3), (1 < c.f 5 1, stBadField, 5)]
    (fun d =>
      let v := c.f 0 1 + c.f 1 1 * 2 ^ 4 + c.f 3 1 * 2 ^ 7 + c.f 2 1 * 2 ^ 8 + c.f 5 1 * 2 ^ 12
        + d.rf .TL_CFG 13 1 * 2 ^ 13 + c.f 6 1 * 2 ^ 16 + c.f 7 1 * 2 ^ 24
      let d : Dev := { d with tl := { d.tl with ptpDomain := c.f 4 1 } }
      (Dev.ptpNegotiate { d.writeTlCfg v with tl := { (d.writeTlCfg v).tl with ptp := {} } }).ok c)

/-- PTP_ADDR: addresses of G.8275.2. -/
def Dev.cmdPtpAddr (d : Dev) (c : Cmd) : Dev :=
  let fam := c.f 0 1
  d.checked c [(fam != 4 && fam != 6, stBadField, 0)]
    (fun d => (Dev.ptpNegotiate { d with tl := { d.tl with
      ptpFamily := fam, ptpOwn := slice c.payload 1 16, ptpMaster := slice c.payload 17 16, ptp := {} } }).ok c)

/-- TIME_STEP_BACK (R233, R487). -/
def Dev.cmdTimeStepBack (d : Dev) (c : Cmd) : Dev :=
  let t := c.f 0 8
  d.checked c [(d.time ≤ t, stBadField, 0), (!d.backAllowed, stConflict, 0)]
    (fun d => (d.backwardStep t).ok c)

/-- CT_CFG (R237). -/
def Dev.cmdCtCfg (d : Dev) (c : Cmd) : Dev :=
  let ct := c.f 0 1
  let mu := c.f 1 1
  let ecp := c.f 2 1
  let new := d.ctConfig ct mu ecp (c.f 3 1) (c.f 8 8)
  d.checked c
    [(7 < ct, stBadField, 0), (6 < mu, stBadField, 1), (1 < ecp || (ecp = 1 && mu != 2), stBadField, 2),
     (1 < c.f 3 1, stBadField, 3), (new.isNone, stConflict, 0)]
    (fun d => (new.getD d).ok c)

def Dev.cmdTimeStatus (d : Dev) (c : Cmd) : Dev :=
  d.ok c (pack [(4, d.tlStatus), (4, d.value .TL_OFFSET []), (8, d.time)])

/-! ### Milestones -/

/-- Byte offset of the first field of an entry that breaks R238 or R240; none of an entry with VALID = 0. -/
def Dev.entryBad (d : Dev) (m : MsEntry) : Option Nat :=
  let n := d.numer (MsEntry.ct m)
  let a := MsEntry.actions m
  let win : Bool := bit a 2 || bit a 3
  let least := max (if bit a 2 then 226099200 else 0) (if bit a 3 then 3933 else 0)
  let zero (byte lo len : Nat) : Bool := MsEntry.f m byte lo len = 0
  let checks : List (Bool × Nat) :=
    [(10 < MsEntry.perlog m, 0), (!zero 1 0 8, 1),
     (!zero 2 10 6 || 2 ^ MsEntry.perlog m ≤ MsEntry.sfnres m, 2),
     (MsEntry.slot m != 0xFFFF && n.spf ≤ MsEntry.slot m, 4),
     (n.syms ≤ MsEntry.symbol m || !zero 6 7 1, 6), (!zero 7 0 8, 7),
     (frameTc ≤ MsEntry.offset m, 8), (!zero 12 7 9, 12),
     ((bit a 2 || bit a 4) != decide (MsEntry.rgmask m != 0), 14),
     (bit a 3 != decide (MsEntry.stmask m != 0) || !zero 15 4 4, 15),
     (if win then MsEntry.winlen m < least else MsEntry.winlen m != 0, 16),
     (!bit a 6 && MsEntry.evcode m != 0, 20),
     (bit a 6 != decide (MsEntry.mbxmask m != 0), 22),
     ((!bit a 5 && MsEntry.snapsel m != 0) || !zero 23 2 6, 23), (!zero 24 0 64, 24)]
  if MsEntry.valid m then (checks.find? (·.1)).map (·.2) else none

/-- Entry `i` of a multi-entry payload of 32-byte entries. -/
def Cmd.entry32 (c : Cmd) (i : Nat) : BitVec 256 := BitVec.ofNat 256 (c.f (8 + 32 * i) 32)

/-- The payload offset of the first field an entry list breaks, for a check of one entry. -/
def Cmd.firstBad (c : Cmd) (n : Nat) (f : BitVec 256 → Option Nat) : Option Nat :=
  (upTo n).findSome? (fun i => (f (c.entry32 i)).map (8 + 32 * i + ·))

/-- BUSY_RETRY while a commit is pending, with the µs until its last copy (R246). -/
def Dev.commitBusy (d : Dev) (c : Cmd) : Dev :=
  d.answer c stBusy [] (((d.lastCopy - d.time) * 100 + 196607) / 196608)

/-- A mailbox that names only what FN_ASSIGN gave it may name no region and no stack: FN_ASSIGN gives none (R412). -/
def Dev.mayMasks (_ : Dev) (m : Nat) (x : MsEntry) : Bool :=
  !restricted m || !MsEntry.valid x || (MsEntry.rgmask x = 0 && MsEntry.stmask x = 0)

/-- MS_WRITE (R240, R246, R247). -/
def Dev.cmdMsWrite (d : Dev) (c : Cmd) : Dev :=
  let first := c.f 0 2
  let n := c.f 2 2
  let bad := c.firstBad n d.entryBad
  d.checked c
    [(4095 < first, stBadField, 0), (n = 0 || 127 < n || 4096 < first + n, stBadField, 2),
     (bad.isSome, stBadField, bad.getD 0),
     (!(upTo n).all (fun i => d.inDomain c.mbx (first + i) && d.mayMasks c.mbx (c.entry32 i)), stNotPermitted, 0)]
    (fun d =>
      if d.ms.commit.isSome then d.commitBusy c
      else Dev.ok { d with ms := { d.ms with
        shadow := (upTo n).foldl (fun t i => tset t (first + i) (c.entry32 i)) d.ms.shadow } } c)

def Dev.cmdMsRead (d : Dev) (c : Cmd) : Dev :=
  let first := c.f 0 2
  let n := c.f 2 2
  let bank := c.f 4 1
  let entry (k : Nat) : BitVec 256 := if bank = 0 then d.msShadow k else d.msActive k
  d.checked c
    [(4095 < first, stBadField, 0), (n = 0 || 127 < n || 4096 < first + n, stBadField, 2), (1 < bank, stBadField, 4)]
    (fun d => d.ok c ((upTo n).flatMap (fun i => leBytes 32 (entry (first + i)).toNat)))

/-- MS_COMMIT (R244, R246). -/
def Dev.cmdMsCommit (d : Dev) (c : Cmd) : Dev :=
  let ct := c.f 0 1
  d.checked c [(7 < ct, stBadField, 0), (!d.ctEn ct || d.ms.commit.isSome, stConflict, 0)]
    (fun d =>
      let b := d.nextBoundary ct (d.time + 8192)
      Dev.ok { d with ms := { d.ms with commit := some { ct, b, mbx := c.mbx }, lastCt := ct, lastB := b } } c
        (leBytes 8 b))

end Sys2Proof.Machine
end

