-- ==== Sys2Proof/Machine/CmdWork.lean ====
section
/-!
DEFINITION. Commands of the memory and streams, task list, and weights and residency groups (R426 groups 0x04 to 0x06).
-/
namespace Sys2Proof.Machine

/-! ### Streams -/

/-- The region of a stream context, for an engine's. -/
def Dev.ctxUp (d : Dev) (n : Nat) : Bool := 256 ≤ n || d.regionUp (n / 32)

/-- An element of the pattern, or of a pass buffer, may lie in this device's DRAM. -/
def Dev.touchesDram (d : Dev) (s : Desc) : Bool :=
  let (lo, _) := s.hull
  let own : Int := (d.ownDev * 2 ^ 39 : Nat)
  s.kind != 2 && lo < own + dramEnd && own ≤ s.hull.2

/-- The contexts of this device that a descriptor names are the mailbox's (R412): the fronthaul context of its gate, and its
fork members. -/
def Dev.mayName (d : Dev) (m : Nat) (s : Desc) : Bool :=
  (!s.gateEn || d.mayCtx m (256 + s.gate)) && s.members.all (fun x => x.1 != d.ownDev || d.mayCtx m x.2)

/-- STRM_ARM (R203, R205, R217). -/
def Dev.cmdStrmArm (d : Dev) (c : Cmd) : Dev :=
  let n := c.f 0 2
  let b := slice c.payload 8 96
  let s := Desc.ofBytes b
  d.checked c
    [(287 < n, stBadField, 0), (!d.mayCtx c.mbx n || !d.mayName c.mbx s, stNotPermitted, 0),
     (!d.ctxUp n || (!d.cp.dramReady && d.touchesDram s), stBusy, 0), (d.descBad n b, stBadField, 8 + (d.descFault n b).getD 0),
     (!(d.ctx n).takesArm, stConflict, 0), (d.reserveShort n s.resv, stNoResource, 0)]
    (fun d => (d.armCtx n b c.mbx).ok c)

/-- STRM_REARM (R159, R211). The BASE of an FH_OUT is that of a pass buffer, whose records are structures of 8 bytes or more
(R11; log entry 193). -/
def Dev.cmdStrmRearm (d : Dev) (c : Cmd) : Dev :=
  let n := c.f 0 2
  d.checked c
    [(287 < n, stBadField, 0), ((d.ctx n).desc.kind = 4 && c.f 8 8 % 8 != 0, stBadField, 8),
     (!d.mayCtx c.mbx n, stNotPermitted, 0), (!d.ctxUp n, stBusy, 0), (!(d.ctx n).takesRearm, stConflict, 0)]
    (fun d => (d.rearm n (c.f 8 8)).ok c)

/-- STRM_DISARM. -/
def Dev.cmdStrmDisarm (d : Dev) (c : Cmd) : Dev :=
  let n := c.f 0 2
  d.checked c [(287 < n, stBadField, 0), (!d.mayCtx c.mbx n, stNotPermitted, 0), (!d.ctxUp n, stBusy, 0)]
    (fun d => (if (d.ctx n).st = CtxState.idle then d else d.disarm n).ok c)

/-! ### COPY (R380) -/

/-- Bytes at a device address, global or local (R29), lie in this device's DRAM. -/
def Dev.copyDram (d : Dev) (a : Nat) : Bool := d.isLocal a && isDram (globalLocal a)

def Dev.cmdCopy (d : Dev) (c : Cmd) : Dev :=
  let dir := c.f 0 1
  let len := c.f 24 8
  d.checked c
    [(2 < dir, stBadField, 0), (dir != 0 && 2 ^ 41 ≤ c.f 8 8, stBadField, 8), (dir != 1 && 2 ^ 41 ≤ c.f 16 8, stBadField, 16),
     (len = 0 || 2 ^ 30 < len, stBadField, 24),
     (!d.cp.dramReady && ((dir != 0 && d.copyDram (c.f 8 8)) || (dir != 1 && d.copyDram (c.f 16 8))), stBusy, 0)]
    (fun d => d.startJob c)

/-- COPY_COMPLETE: the oldest COPY that has not begun moves its data, and its status is reported once they have moved (R424):
now, or with the last of the peer transfers that its source or destination takes (R29, R400). `data` are the bytes read
from the host; `ok` is false where that read failed. -/
def Dev.copyDone (d : Dev) (data : List Byte) (ok : Bool) : Dev :=
  match d.cp.jobs.find? (fun j => j.opcode = 0x0403 && !j.v1 && j.left = 0) with
  | none => d
  | some j =>
    let src := j.f 8 8
    let len := j.f 24 8
    if !ok then d.endJob j stFaulted
    else if j.f 0 1 = 0 then d.copyStore j (padTo len data)
    else if !d.isLocal src then d.copySend j true src len []
    else
      let (bs, d) := d.hubRead 0x145 (globalLocal src) len
      if d.poisoned (globalLocal src) len then d.endJob j stFaulted else d.copyStore j bs

/-! ### Scrubber and pool -/

/-- SCRUB_CFG (R197). -/
def Dev.cmdScrubCfg (d : Dev) (c : Cmd) : Dev :=
  d.checked c [(1 < c.f 0 1, stBadField, 0)]
    (fun d => (d.writeStrm .STRM_SCRUB (c.f 0 1 * 2 ^ 31 + c.f 2 2)).ok c)

/-- POOL_CFG (R200, R218): the spill area is whole MiB of DRAM. The hub cache gives up the ways that the pool
takes. -/
def Dev.cmdPoolCfg (d : Dev) (c : Cmd) : Dev :=
  let mib := c.f 4 4
  let base := c.f 8 8
  d.checked c
    [(4095 < mib, stBadField, 4), (base % 2 ^ 20 != 0 || !inDram base (mib * 2 ^ 20), stBadField, 8),
     (!d.armedCtxs.isEmpty, stConflict, 0)]
    (fun d =>
      (((d.setReg .STRM_CFG (c.f 0 1 * 2 ^ 16 + c.f 2 2)).setReg .STRM_SPILL_LO
        (base % 2 ^ 32 + mib * 2 ^ 8)).setReg .STRM_SPILL_HI (base / 2 ^ 32)).trimCache.ok c)

/-! ### Task lists -/

/-- Engines of a mask, ascending. -/
def maskEngines (mask : Nat) : List Nat := (upTo 32).filter (bit mask)

/-- A list address a placement on engine `e` may name (R134). -/
def listAddrOk (a e : Nat) : Bool :=
  a % 32 = 0 && isUsable a && (isDram a || (a - 0x7800000000) / 0x800000 = e)

/-- Placements an engine holds, its running list among them. -/
def Engine.held (x : Engine) : Nat := x.placed.length + (if x.run.isSome then 1 else 0)

/-- Lists placed on engines with their biases, all with one PLACE_ID (R134, R249). What a commit has to copy by now is in the
active bank when an anchor reads it. -/
def Dev.placeLists (d : Dev) (es : List (Nat × Nat)) (list : Nat) (start deadline : Option Nat) (mbx : Nat) : Dev :=
  let d := d.copyDue d.time
  let id := d.nextPlace
  let d : Dev := { d with nextPlace := (id + 1) % 2 ^ 16 }
  es.foldl (fun d p =>
    let q : Placement := { list, start, deadline, bias := p.2, placeId := id, mbx, made := d.time }
    let (q, d) := if start.isNone then d.anchorAt p.1 q d.time else (q, d)
    d.modEng p.1 (fun x => { x with placed := x.placed ++ [q] })) d

/-- An entry number of a placement; 0xFFFF is none. -/
def entryArg (v : Nat) : Option Nat := if v = 0xFFFF then none else some v

/-- A list address that a placement on the engines `es` may not name. -/
def listBad (list : Nat) (es : List Nat) : Bool := list % 32 != 0 || !isUsable list || !es.all (fun e => listAddrOk list e)

/-- The checks of a placement on `es` beside those of its fields. -/
def Dev.placeChecks (d : Dev) (m : Nat) (es : List Nat) : List (Bool × Nat × Nat) :=
  [(!es.all (fun e => d.mayEngine m e), stNotPermitted, 0), (!es.all (fun e => d.regionUp (e / 4)), stBusy, 0),
   (es.any (fun e => (d.eng e).st = .off || (d.eng e).st = .shutdown || (d.eng e).st = .shutdownRestart), stConflict, 0),
   (es.any (fun e => 8 ≤ (d.eng e).held), stNoResource, 0)]

/-- LIST_PLACE (R134). -/
def Dev.cmdListPlace (d : Dev) (c : Cmd) : Dev :=
  let list := c.f 0 8
  let es := maskEngines (c.f 8 4)
  let start := entryArg (c.f 12 2)
  let deadline := entryArg (c.f 14 2)
  let entryBad (e : Option Nat) : Bool := match e with
    | some n => 4095 < n
    | none => false
  let entryMine (e : Option Nat) : Bool := match e with
    | some n => d.mayEntry c.mbx n
    | none => true
  d.checked c
    ([(listBad list es, stBadField, 0), (es.isEmpty, stBadField, 8), (entryBad start, stBadField, 12),
      (entryBad deadline, stBadField, 14), (!entryMine start || !entryMine deadline, stNotPermitted, 0)]
      ++ d.placeChecks c.mbx es)
    (fun d =>
      let id := d.nextPlace
      (d.placeLists (es.zipIdx.map (fun p => (p.1, c.f (16 + 8 * p.2) 8))) list start deadline c.mbx).ok c (leBytes 2 id))

/-- LIST_CANCEL. -/
def Dev.cmdListCancel (d : Dev) (c : Cmd) : Dev :=
  let es := maskEngines (c.f 0 4)
  let mode := c.f 4 1
  d.checked c
    [(es.isEmpty, stBadField, 0), (1 < mode, stBadField, 4), (!es.all (fun e => d.mayEngine c.mbx e), stNotPermitted, 0),
     (!es.all (fun e => d.regionUp (e / 4)), stBusy, 0)]
    (fun d => (es.foldl (fun d e => d.cancelList e (mode = 1)) d).ok c)

def Dev.cmdEngQuery (d : Dev) (c : Cmd) : Dev :=
  let e := c.f 0 1
  d.checked c [(31 < e, stBadField, 0)]
    (fun d => d.ok c (pack [(4, d.engStatus e), (4, (d.eng e).seq), (8, (d.eng e).pc), (1, (d.eng e).held)]))

/-- Bits of `v` outside `mask`: a command whose register word has reserved bits set answers BAD_FIELD (DESIGN CHOICE, log entry
212). -/
def strays (v mask : Nat) : Bool := v &&& (0xFFFFFFFF ^^^ mask) != 0

/-- ENG_CFG: the engine's ENG_CFG and DEV_SKIPTHR. -/
def Dev.cmdEngCfg (d : Dev) (c : Cmd) : Dev :=
  let e := c.f 0 1
  d.checked c
    [(31 < e, stBadField, 0), (strays (c.f 4 4) 0xFF01FF00, stBadField, 4), (!d.mayEngine c.mbx e, stNotPermitted, 0),
     (!d.regionUp (e / 4), stBusy, 0)]
    (fun d => ((d.setReg .DEV_SKIPTHR (c.f 2 2) e).setReg .ENG_CFG (c.f 4 4) e).ok c)

/-! ### Weights and residency -/

/-- RSLOT_INSTALL (R186, R189). -/
def Dev.cmdRslotInstall (d : Dev) (c : Cmd) : Dev :=
  let e := c.f 0 1
  let s := c.f 1 1
  let mask := c.f 2 1
  let gap := c.f 4 4
  let other := (d.eng e).rslots.any (fun r => r.1 != s && r.2.tmask &&& mask != 0)
  d.checked c
    [(31 < e, stBadField, 0), (3 < s, stBadField, 1), (15 < mask || other, stBadField, 2),
     (gap < 2 || 100 < gap, stBadField, 4), (!d.mayEngine c.mbx e, stNotPermitted, 0), (!d.regionUp (e / 4), stBusy, 0)]
    (fun d => (d.modEng e (fun x => { x with rslots := tset x.rslots s { tmask := mask, gapUs := gap } })).ok c)

/-- Number of set bits among the low four. -/
def pop4 (m : Nat) : Nat := ((upTo 4).filter (bit m)).length

/-- Byte offset of the first field of a residency entry that breaks R187. -/
def Dev.resBad (d : Dev) (r : BitVec 256) : Option Nat :=
  let f (byte lo len : Nat) : Nat := fld r.toNat (8 * byte + lo) len
  let e := f 5 0 5
  let tiles := pop4 ((tfind (d.eng e).rslots (f 5 5 2)).map (·.tmask) |>.getD 0)
  let checks : List (Bool × Nat) :=
    [(f 4 4 4 != 0, 4), (f 5 7 1 != 0, 5), (f 7 0 8 != 0, 7)]
  let live : List (Bool × Nat) :=
    [(255 < f 0 0 16, 0), (f 6 0 8 = 0 || 4 < f 6 0 8 || tiles < f 6 0 8, 6), (f 8 0 64 % 64 != 0, 8),
     (f 20 0 32 % 8 != 0 || 0x800000 ≤ f 20 0 32, 20)]
  ((checks ++ if f 4 0 1 = 1 then live else []).find? (·.1)).map (·.2)

/-- The entry as the CP installs it: RESIDENT as it stands, SCORE and HITS 0. -/
def Dev.resInstall (d : Dev) (i : Nat) (r : BitVec 256) : BitVec 256 :=
  let old := (tget d.res i 0#256).toNat
  BitVec.ofNat 256 (setFld (setFld r.toNat 192 64 0) 35 1 (fld old 35 1))

/-- RES_WRITE (R187). -/
def Dev.cmdResWrite (d : Dev) (c : Cmd) : Dev :=
  let first := c.f 0 2
  let n := c.f 2 2
  let bad := c.firstBad n d.resBad
  let engOf (r : BitVec 256) : Nat := fld r.toNat 40 5
  -- An entry in use belongs to the engine it names (R412).
  let mine (i : Nat) : Bool :=
    let r := tget d.res i 0#256
    !bit r.toNat 32 || d.mayEngine c.mbx (engOf r)
  d.checked c
    [(4095 < first, stBadField, 0), (n = 0 || 127 < n || 4096 < first + n, stBadField, 2), (bad.isSome, stBadField, bad.getD 0),
     (!(upTo n).all (fun i => d.mayEngine c.mbx (engOf (c.entry32 i)) && mine (first + i)), stNotPermitted, 0),
     (!(upTo n).all (fun i => d.regionUp (engOf (c.entry32 i) / 4)), stBusy, 0)]
    (fun d =>
      let t := (upTo n).foldl (fun t i => tset t (first + i) (d.resInstall (first + i) (c.entry32 i))) d.res
      Dev.ok { d with res := t } c)

def Dev.cmdResRead (d : Dev) (c : Cmd) : Dev :=
  let first := c.f 0 2
  let n := c.f 2 2
  d.checked c [(4095 < first, stBadField, 0), (n = 0 || 127 < n || 4096 < first + n, stBadField, 2)]
    (fun d => d.ok c ((upTo n).flatMap (fun i => leBytes 32 (tget d.res (first + i) 0#256).toNat)))

end Sys2Proof.Machine
end

