-- ==== Sys2Proof/Machine/CmdTiles.lean ====
section
/-!
DEFINITION. Commands of the tiles, lock and calibration group and of the lasers group (R426 groups 0x07 and 0x08), and
the images they carry (R74, R75, R290, R427).
-/
namespace Sys2Proof.Machine

/-! ### Images -/

/-- The 16-bit sum of the first `n` halfwords of an image. -/
def sum16 (b : List Byte) (n : Nat) : Nat := (upTo n).foldl (fun s k => s + getLe b (2 * k) 2) 0 % 65536

/-- CHECK of an image of `n` halfwords whose CHECK field, at byte 6, is still 0. -/
def withCheck (b : List Byte) (n : Nat) : List Byte :=
  b.take 6 ++ leBytes 2 ((65536 - sum16 b n) % 65536) ++ b.drop 8

/-- Neighbours in a list are in the relation `f`. -/
def chain {α : Type} (f : α → α → Bool) : List α → Bool
  | a :: b :: l => f a b && chain f (b :: l)
  | _ => true

/-- Byte offset of the first field of a curve image that breaks R74 or R75. -/
def curveBad (b : List Byte) : Option Nat :=
  let typ := getLe b 0 1
  let n := getLe b 2 2
  let pts := imagePoints b
  let xs := pts.map (·.1)
  let ys := pts.map (·.2)
  let last := xs.getLastD 0
  let mono := if typ = 1 then chain (fun a b => decide (a ≤ b)) ys
    else chain (fun a b => decide (a < b)) ys || chain (fun a b => decide (b < a)) ys
  let range := typ = 1 || ys.all (fun y => 0 ≤ y && y ≤ 4080)
  let left : Int := if typ = 1 then -960 else 0
  let checks : List (Bool × Nat) :=
    [(typ != 1 && typ != 2, 0), (63 < getLe b 1 1 || (typ = 1 && getLe b 1 1 != 0), 1), (n < 2 || 32 < n, 2),
     (sum16 b 68 != 0, 6),
     (!chain (fun a b => decide (a < b)) xs || left < xs.headD 0 || last < 960, 8), (!mono || !range, 10),
     (typ = 1 && curveCode pts (-128) 127 0 != 0, 10),
     ((upTo 32).any (fun k => n ≤ k && getLe b (8 + 4 * k) 4 != 0), 8 + 4 * n)]
  (checks.find? (·.1)).map (·.2)

/-- The curve of line `k` of a physical tile, 64 the weight curve: installed, else factory (R73). -/
def Dev.curveOf (d : Dev) (p k : Nat) : List (Int × Int) :=
  (tfind (d.pt p).curves k).getD (if k = 64 then factoryWeightCurve p else factoryModCurve p k)

/-- The image of a curve as it stands installed (R74). -/
def Dev.curveImage (d : Dev) (p typ line : Nat) : List Byte :=
  let k := if typ = 1 then 64 else line
  let pts := (d.curveOf p k).take 32
  let tcal := (tfind (d.pt p).tcals k).getD (Config.factoryCal p 5002)
  withCheck (padTo 136 (leBytes 1 typ ++ leBytes 1 line ++ leBytes 2 pts.length ++ leBytes 2 (unsx 16 tcal) ++ zeros 2
    ++ pts.flatMap (fun q => leBytes 2 (unsx 16 q.1) ++ leBytes 2 (unsx 16 q.2)))) 68

/-- A gain-set image is valid (R290). -/
def gainOk (b : List Byte) : Bool :=
  getLe b 0 1 = 3 && getLe b 1 1 ≤ 15 && getLe b 2 2 = 0 && getLe b 4 2 = 1 && sum16 b 9868 = 0
    && (upTo 72).all (fun k => getLe b (19592 + 2 * k) 2 < 32768)

/-- A legacy table image is valid (R427). -/
def ltabOk (b : List Byte) : Bool :=
  getLe b 0 2 = 4 && getLe b 2 2 = 1 && getLe b 4 2 = 0 && sum16 b 66564 = 0
    && (upTo 66560).all (fun k => getLe b (8 + 2 * k) 2 < 4096)

/-! ### Installing and staging (R77, R290, R427) -/

/-- A staged image joins those of a tile; one for the same curve, set or table is replaced. -/
def stageIn (l : List Staged) (g : Staged) : List Staged :=
  l.filter (fun x => !(x.typ = g.typ && x.index = g.index)) ++ [g]

/-- A valid image installed at once on a tile that is not bound, or staged for the end of a bound one's next
calibration: PENDING now, ASYNC_DONE when it is installed. A replaced one reports STATE_CONFLICT. -/
def Dev.installOrStage (d : Dev) (c : Cmd) (p typ index : Nat) (bytes : List Byte) : Dev :=
  if (d.logicalOf p).isSome then
    let g : Staged := { typ, index, bytes, mbx := c.mbx, opcode := c.opcode, seq := c.seq }
    let old := (d.pt p).staged.filter (fun x => x.typ = typ && x.index = index)
    let d := old.foldl (fun d o => d.asyncDone o.mbx o.opcode o.seq stConflict) d
    (d.modPt p (fun x => { x with staged := stageIn x.staged g })).answer c stPending
  else (d.modPt p (fun x => x.install typ index bytes)).ok c

/-- CURVE_WRITE. -/
def Dev.cmdCurveWrite (d : Dev) (c : Cmd) : Dev :=
  let p := c.f 0 1
  let b := slice c.payload 8 136
  let bad := curveBad b
  d.checked c
    [(135 < p, stBadField, 0), (bad.isSome, stBadField, 8 + bad.getD 0), (!d.regionUp (regionOfP p), stBusy, 0)]
    (fun d => d.installOrStage c p (getLe b 0 1) (getLe b 1 1) b)

def Dev.cmdCurveRead (d : Dev) (c : Cmd) : Dev :=
  let p := c.f 0 1
  let typ := c.f 1 1
  let line := c.f 2 1
  d.checked c
    [(135 < p, stBadField, 0), (typ != 1 && typ != 2, stBadField, 1),
     (63 < line || (typ = 1 && line != 0), stBadField, 2)]
    (fun d => d.ok c (d.curveImage p typ line))

/-- An image of `n` bytes lies at an 8-byte aligned usable address. -/
def imageAt (a n : Nat) : Bool := a % 8 = 0 && usableRange a n

/-- GAINSET_WRITE (R290). -/
def Dev.cmdGainsetWrite (d : Dev) (c : Cmd) : Dev :=
  let p := c.f 0 1
  let a := c.f 8 8
  let b := d.rdBytes a 19736
  d.checked c [(135 < p, stBadField, 0), (!imageAt a 19736, stBadField, 8)]
    (fun d => (d.hubAccess 0x145 a 19736 false).checked c
      [(!gainOk b, stBadField, 8), (!d.regionUp (regionOfP p), stBusy, 0)]
      (fun d => d.installOrStage c p 3 (getLe b 1 1) b))

/-- LTAB_WRITE (R427); the address field lies at `at_` of the payload. -/
def Dev.cmdLtabWrite (d : Dev) (c : Cmd) : Dev :=
  let p := c.f 0 2
  let a := c.f 8 8
  let b := d.rdBytes a 133128
  d.checked c [(135 < p, stBadField, 0), (a % 8 != 0 || !inDram a 133128, stBadField, 8)]
    (fun d => (d.hubAccess 0x145 a 133128 false).checked c
      [(!ltabOk b, stBadField, 8), (!d.regionUp (regionOfP p), stBusy, 0)]
      (fun d => d.installOrStage c p 4 0 b))

/-- The image of a tile's legacy table (R427). -/
def Dev.ltabImage (d : Dev) (p : Nat) : List Byte :=
  withCheck (leBytes 2 4 ++ leBytes 2 1 ++ zeros 4 ++ (upTo 66560).flatMap (fun k => leBytes 2 (d.ltEntry p k))) 66564

/-- LTAB_READ: the table as the CP keeps it goes to memory. -/
def Dev.cmdLtabRead (d : Dev) (c : Cmd) : Dev :=
  let p := c.f 0 2
  let a := c.f 8 8
  d.checked c [(135 < p, stBadField, 0), (a % 8 != 0 || !inDram a 133128, stBadField, 8)]
    (fun d => (d.hubWrite 0x145 a (d.ltabImage p)).ok c)

/-! ### Lock configuration (R275, R308) -/

/-- Number of a lock configuration: a logical tile, or 0x100 + rg for a region's spare one. -/
def lockTarget (lt : Nat) : Bool := lt < 128 || (0x100 ≤ lt && lt < 0x108)
def lockRegion (lt : Nat) : Nat := if lt < 128 then lt / 16 else lt - 0x100

/-- Register `k` of a lock configuration as last written. -/
def Dev.lockReg (d : Dev) (lt k : Nat) : Nat :=
  if lt < 128 then d.reg (lockRegs.getD k .LOCK_CFG) (lt / 4) (lt % 4) else cfgReg (d.rgn (lt - 0x100)).spareLock k

/-- A lock configuration written whole; a change of MODE is staged on the tile that runs under it. -/
def Dev.writeLock (d : Dev) (lt : Nat) (ws : List Nat) : Dev :=
  if lt < 128 then
    let d := (upTo 6).foldl (fun d k =>
      if k = 0 then d else d.setReg (lockRegs.getD k .LOCK_CFG) (ws.getD k 0) (lt / 4) (lt % 4)) d
    d.writeLockCfg (lt / 4) (lt % 4) (ws.getD 0 0)
  else
    let rg := lt - 0x100
    let d := d.setRgn rg { d.rgn rg with spareLock := (upTo 6).map (fun k => (k, ws.getD k 0)) }
    let p := d.spare rg
    let leg : Bool := ws.getD 0 0 % 4 = 1
    if p = 0xFF then d
    else d.modPt p (fun x => { x with modeNext := if leg = x.legacy then none else some leg })

/-- LOCK_CFG. -/
def Dev.cmdLockCfg (d : Dev) (c : Cmd) : Dev :=
  let lt := c.f 0 2
  let ws := (upTo 6).map (fun k => c.f (4 + 4 * k) 4)
  let bad := (upTo 6).find? (fun k => strays (ws.getD k 0) (lockRegs.getD k .LOCK_CFG).row.rw)
  d.checked c
    [(!lockTarget lt, stBadField, 0), (2 ≤ ws.getD 0 0 % 4, stBadField, 4), (bad.isSome, stBadField, 4 + 4 * bad.getD 0),
     (!d.regionUp (lockRegion lt), stBusy, 0)]
    (fun d => (d.writeLock lt ws).ok c)

/-- One field of LOCK_CFG changed (v1 RECAL and LMODE). -/
def Dev.lockField (d : Dev) (c : Cmd) (lo len : Nat) (bad : Bool) : Dev :=
  let lt := c.f 0 2
  let ws := (upTo 6).map (fun k => d.lockReg lt k)
  d.checked c
    [(!lockTarget lt, stBadField, 0), (bad, stBadField, 2), (!d.regionUp (lockRegion lt), stBusy, 0)]
    (fun d => (d.writeLock lt (ws.set 0 (setFld (ws.getD 0 0) lo len (c.f 2 1)))).ok c)

/-! ### Tiles and roadworks -/

/-- ACQUIRE (R300, R464): the command ends with the acquisition. -/
def Dev.cmdAcquire (d : Dev) (c : Cmd) : Dev :=
  let p := c.f 0 1
  let rg := regionOfP p
  let sp := d.spare rg
  let inSwap := match (d.rgn rg).swap with
    | some w => w.new = p || w.old = p
    | none => false
  d.checked c
    [(135 < p, stBadField, 0), ((d.logicalOf p).isSome, stNotPermitted, 0), (!d.regionUp rg, stBusy, 0),
     ((sp != 0xFF && sp != p) || (d.rgn rg).cal = some p || inSwap, stConflict, 0)]
    (fun d => (d.startJob c).startAcq p)

/-- TILE_CFG (R64). -/
def Dev.cmdTileCfg (d : Dev) (c : Cmd) : Dev :=
  let lt := c.f 0 2
  d.checked c
    [(127 < lt, stBadField, 0), (strays (c.f 4 4) 0xF0F33, stBadField, 4), (!d.mayEngine c.mbx (lt / 4), stNotPermitted, 0),
     (!d.regionUp (lt / 16), stBusy, 0)]
    (fun d => (d.setReg .TILE_CFG (c.f 4 4) (lt / 4) (lt % 4)).ok c)

/-- RDWK_CFG (R350, R360). -/
def Dev.cmdRdwkCfg (d : Dev) (c : Cmd) : Dev :=
  let rg := c.f 0 1
  d.checked c [(7 < rg, stBadField, 0), (2 < c.f 1 1, stBadField, 1), (!d.regionUp rg, stBusy, 0)]
    (fun d =>
      let d := d.plainWrite .DEV_RDWK_WIN [rg] (c.f 6 2)
      (d.writeRdwk .DEV_RDWK_CFG rg (c.f 1 1 + c.f 4 2 * 2 ^ 8 + c.f 2 1 * 2 ^ 24)).ok c)

/-! ### Lasers -/

/-- LSA_THR (R340). -/
def Dev.cmdLsaThr (d : Dev) (c : Cmd) : Dev :=
  let s := c.f 0 1
  let v := c.f 4 4
  d.checked c [(3 < s, stBadField, 0), (!lsaThrOk v || 2 ^ 30 ≤ v, stBadField, 4)]
    (fun d => (d.setReg .LSA_THR v (2 * s)).ok c)

/-- COMMISSION (R337). -/
def Dev.cmdCommission (d : Dev) (c : Cmd) : Dev :=
  let s := c.f 0 1
  let k := c.f 1 1
  d.checked c [(3 < s, stBadField, 0), (1 < k, stBadField, 1)]
    (fun d => (d.setStk s { d.stk s with
      commission := (upTo 64).foldl (fun t l => tset t (64 * k + l) (sx 16 (c.f (2 + 2 * l) 2))) (d.stk s).commission }).ok c)

/-- COMB_READMIT (R345). -/
def Dev.cmdCombReadmit (d : Dev) (c : Cmd) : Dev :=
  let s := c.f 0 1
  let k := c.f 1 1
  d.checked c
    [(3 < s, stBadField, 0), (1 < k, stBadField, 1),
     (!((d.stk s).comb k).st.out || d.readmitting s k, stConflict, 0)]
    (fun d => (d.startJob c).readmit s k)

def Dev.cmdLsaQuery (d : Dev) (c : Cmd) : Dev :=
  let s := c.f 0 1
  d.checked c [(3 < s, stBadField, 0)]
    (fun d => d.ok c (pack ([(4, d.lsaStatus s), (4, d.lsaWorst s)]
      ++ (upTo 64).map (fun l => (2, unsx 16 (tget (d.stk s).lines l 0))))))

end Sys2Proof.Machine
end

