-- ==== Sys2Proof/Machine/CmdIo.lean ====
section
/-!
DEFINITION. Commands of the converters, thermal, ports and modules, and Tollgate groups (R426 groups 0x09 to 0x0C).
-/
namespace Sys2Proof.Machine

/-! ### Converters -/

/-- AUX_CFG (R317, R320, R322). -/
def Dev.cmdAuxCfg (d : Dev) (c : Cmd) : Dev :=
  let rg := c.f 0 1
  let n := c.f 1 1
  let mode := c.f 2 1
  let span := c.f 3 1
  let run := c.f 5 1
  let per := c.f 8 4
  let low := c.f 12 2
  let high := c.f 14 2
  let step := c.f 16 2
  let seed := c.f 20 4
  let old := d.reg .DAC_AUX_CFG rg n
  let written : List RegName := [.DAC_AUX_CFG, .DAC_AUX_PERIOD, .DAC_AUX_LIM, .DAC_AUX_STEP, .DAC_AUX_SEED]
  d.checked c
    [(7 < rg, stBadField, 0), (7 < n, stBadField, 1), (n < 6 || restricted c.mbx, stNotPermitted, 0),
     (4 < mode, stBadField, 2), (2 < span, stBadField, 3), (63 < c.f 4 1, stBadField, 4), (1 < run, stBadField, 5),
     (per < 49152 || 49152000 < per, stBadField, 8),
     (run = 1 && (((mode = 2 || mode = 3) && high ≤ low) || (mode = 4 && high < low)), stBadField, 12),
     (run = 1 && !auxValid mode span low high step, stBadField, 16), (2 ^ 23 ≤ seed, stBadField, 20),
     (!d.regionUp rg, stBusy, 0),
     (written.any (fun r => d.coveredReg r rg n), stConflict, 0),
     (bit old 16 && (fld old 0 3 != mode || fld old 4 2 != span), stConflict, 0)]
    (fun d =>
      let d := ((d.setReg .DAC_AUX_PERIOD per rg n).setReg .DAC_AUX_LIM (low + high * 2 ^ 16) rg n).setReg .DAC_AUX_STEP step rg n
      let d := (d.setReg .DAC_AUX_SEED seed rg n).setAux rg n { d.aux rg n with lfsr := max 1 seed }
      let d := d.setReg .DAC_AUX_CFG (mode + span * 2 ^ 4 + c.f 4 1 * 2 ^ 8 + fld old 16 1 * 2 ^ 16) rg n
      (d.auxSetRun rg n (run = 1) c.mbx).ok c)

/-- AUX_CODE (R320, R321). -/
def Dev.cmdAuxCode (d : Dev) (c : Cmd) : Dev :=
  let rg := c.f 0 1
  let n := c.f 1 1
  let k := c.f 2 2
  let static := d.auxMode rg n = 0
  d.checked c
    [(7 < rg, stBadField, 0), (7 < n, stBadField, 1), (n < 6 || restricted c.mbx, stNotPermitted, 0),
     (k = 0 || 64 < k, stBadField, 2), (!d.regionUp rg, stBusy, 0),
     (d.coveredReg (if static then .DAC_AUX_CODE else .DAC_AUX_QDATA) rg n, stConflict, 0)]
    (fun d =>
      if static then (d.auxOut rg n (c.f 4 2)).ok c
      else ((upTo k).foldl (fun d i => d.auxPush rg n (c.f (4 + 2 * i) 2)) d).ok c)

/-- AUX_PWRUP (R318). -/
def Dev.cmdAuxPwrup (d : Dev) (c : Cmd) : Dev :=
  let rg := c.f 0 1
  let n := c.f 1 1
  let k := 8 * rg + n
  d.checked c
    [(7 < rg, stBadField, 0), (7 < n, stBadField, 1), (n < 6, stNotPermitted, 0), (1 < c.f 2 1, stBadField, 2),
     (2 < c.f 3 1, stBadField, 3), (!d.regionUp rg, stBusy, 0)]
    (fun d => Dev.ok { d with cp := { d.cp with
      auxRec := if c.f 2 1 = 1 then tset d.cp.auxRec k (c.f 3 1, c.f 4 2) else tdrop d.cp.auxRec k } } c)

/-- A sequence entry word of R326 that may be written. -/
def madcEntryOk (w : Nat) : Bool := !strays w 0xF73F && fld w 12 3 ≤ 4

/-- MADC_HOST (R330, R332): converter B's regular entries 24–31, its injected sequence and its round period. -/
def Dev.cmdMadcHost (d : Dev) (c : Cmd) : Dev :=
  let rg := c.f 0 1
  let nreg := c.f 1 1
  let ninj := c.f 2 1
  let reg (k : Nat) : Nat := c.f (8 + 4 * k) 4
  let inj (k : Nat) : Nat := c.f (40 + 4 * k) 4
  let badR := (upTo 8).find? (fun k => !madcEntryOk (reg k))
  let badI := (upTo 8).find? (fun k => !madcEntryOk (inj k))
  d.checked c
    [(7 < rg, stBadField, 0), (8 < nreg, stBadField, 1), (8 < ninj, stBadField, 2),
     (badR.isSome, stBadField, 8 + 4 * badR.getD 0), (badI.isSome, stBadField, 40 + 4 * badI.getD 0),
     (restricted c.mbx, stNotPermitted, 0), (!d.regionUp rg, stBusy, 0),
     ((upTo 8).any (fun k => d.coveredReg .MADC_C_REG rg 1 (24 + k) || d.coveredReg .MADC_C_INJ rg 1 k), stConflict, 0)]
    (fun d =>
      let d := (upTo 8).foldl (fun d k =>
        (d.setReg .MADC_C_REG (reg k) rg 1 (24 + k)).setReg .MADC_C_INJ (inj k) rg 1 k) d
      let cfg := setFld (d.reg .MADC_C_CFG rg 1) 8 5 (23 + nreg)
      let cfg := if ninj = 0 then setFld cfg 19 1 0 else setFld (setFld cfg 19 1 1) 16 3 (ninj - 1)
      ((d.setReg .MADC_C_CFG cfg rg 1).madcPeriod rg 1 (c.f 4 2)).ok c)

/-- MADC_TRIGGER: a HOST trigger in each region of RGMASK (R328). -/
def Dev.cmdMadcTrigger (d : Dev) (c : Cmd) : Dev :=
  let rgs := (upTo 8).filter (bit (c.f 0 1))
  d.checked c [(restricted c.mbx, stNotPermitted, 0), (!rgs.all (fun rg => d.regionUp rg), stBusy, 0)]
    (fun d => (rgs.foldl (fun d rg => d.madcTriggerRg rg 3) d).ok c)

/-- MADC_RING (R333). -/
def Dev.cmdMadcRing (d : Dev) (c : Cmd) : Dev :=
  let rg := c.f 0 1
  let size := c.f 1 1
  let on := c.f 2 1
  let base := c.f 8 8
  d.checked c
    [(7 < rg, stBadField, 0), (15 < size, stBadField, 1), (1 < on, stBadField, 2),
     (base % 4096 != 0 || !inDram base (2 ^ min size 15 * 4096), stBadField, 8), (!d.regionUp rg, stBusy, 0)]
    (fun d => (d.writePair .MADC_RING_HI [rg] 0 (base % 2 ^ 32 + size * 2 ^ 8 + on) (base / 2 ^ 32)).ok c)

/-! ### Heat -/

/-- The response of THM_READ. -/
def Dev.thmBytes (d : Dev) : List Byte :=
  pack ((upTo 96).map (fun n => (2, unsx 16 (d.sensor n).temp)) ++ [(4, d.stepWord), (4, d.tripWord)])

def Dev.cmdThmRead (d : Dev) (c : Cmd) : Dev := d.ok c d.thmBytes

/-- THM_LIMITS (R377). -/
def Dev.cmdThmLimits (d : Dev) (c : Cmd) : Dev :=
  let k := c.f 0 1
  d.checked c [(3 < k, stBadField, 0), (!thmOk (c.f 4 4), stBadField, 4), (!thmOk (c.f 8 4), stBadField, 8)]
    (fun d => ((d.setReg .THM_WARN (c.f 4 4) k).setReg .THM_THROT (c.f 8 4) k).ok c)

/-- THM_SET: THM_SLEWrg, or THM_CFG. -/
def Dev.cmdThmSet (d : Dev) (c : Cmd) : Dev :=
  let rg := c.f 0 1
  let v := c.f 4 4
  let all : Bool := rg = 0xFF
  d.checked c
    [(7 < rg && !all, stBadField, 0),
     (if all then strays v 0xFFFF else strays v 0x8000FFFF || 100 < fld v 0 8 || 100 < fld v 8 8, stBadField, 4),
     (!all && !d.regionUp rg, stBusy, 0)]
    (fun d => (if all then d.setReg .THM_CFG v else d.setReg .THM_SLEW v rg).ok c)

/-! ### Ports and modules -/

/-- FH_QUAD (R383). -/
def Dev.cmdFhQuad (d : Dev) (c : Cmd) : Dev :=
  let q := c.f 0 1
  d.checked c
    [(3 < q, stBadField, 0), (7 < c.f 1 1, stBadField, 1), (1 < c.f 2 1, stBadField, 2), (!d.quadDisabled q, stConflict, 0)]
    (fun d => (d.setReg .PRT_FH_QCFG (c.f 1 1 + c.f 2 1 * 2 ^ 6) q).ok c)

/-- Byte offset of the first reserved field of a flow entry that is not 0 (R388). -/
def flowBad (w : Nat) : Option Nat :=
  (([(flowF w 0 5 3 != 0, 0), (flowF w 2 12 4 != 0, 2), (flowF w 8 5 3 != 0, 8), (flowF w 9 0 8 != 0, 9),
    (flowF w 10 0 16 != 0, 10)] : List (Bool × Nat)).find? (·.1)).map (·.2)

/-- A mailbox may write flow entry `i` with `w`: the fronthaul contexts that the entry and the one it replaces name
are its own (R412). -/
def Dev.mayFlow (d : Dev) (m i w : Nat) : Bool :=
  let mine (w : Nat) : Bool := flowF w 0 3 1 = 0 || d.mayCtx m (256 + flowF w 8 0 5)
  mine w && mine (tget d.ports.flows i 0)

/-- FLOW_WRITE (R388). -/
def Dev.cmdFlowWrite (d : Dev) (c : Cmd) : Dev :=
  let first := c.f 0 2
  let n := c.f 2 2
  let w (i : Nat) : Nat := c.f (8 + 16 * i) 16
  let bad := (upTo n).findSome? (fun i => (flowBad (w i)).map (8 + 16 * i + ·))
  d.checked c
    [(255 < first, stBadField, 0), (n = 0 || 254 < n || 256 < first + n, stBadField, 2), (bad.isSome, stBadField, bad.getD 0),
     (!(upTo n).all (fun i => d.mayFlow c.mbx (first + i) (w i)), stNotPermitted, 0)]
    (fun d => Dev.ok { d with ports := { d.ports with
      flows := (upTo n).foldl (fun t i => tset t (first + i) (w i)) d.ports.flows
      lastSeq := (upTo n).foldl (fun t i => tdrop t (first + i)) d.ports.lastSeq } } c)

/-- EXC_RING (R392): SIZE 0 takes the ring away; the write index starts at 0. -/
def Dev.cmdExcRing (d : Dev) (c : Cmd) : Dev :=
  let size := c.f 0 4
  let base := c.f 8 8
  let widx := c.f 16 8
  d.checked c
    [(size % 64 != 0, stBadField, 0), (size != 0 && (base % 64 != 0 || !inDram base size), stBadField, 8),
     (size != 0 && (widx % 8 != 0 || !inDram widx 8), stBadField, 16)]
    (fun d =>
      let d : Dev := { d with ports := { d.ports with
        exc := if size = 0 then none else some (size, base, widx), excIdx := 0 } }
      (if size = 0 then d else d.hubWrite 0x145 widx (zeros 8)).ok c)

/-- MOD_READ (R407): `data` are the bytes the module returns, none where it does not answer in time. -/
def Dev.cmdModRead (d : Dev) (c : Cmd) (data : Option (List Byte)) : Dev :=
  let m := c.f 0 1
  let n := c.f 4 1
  d.checked c [(7 < m, stBadField, 0), (n = 0 || 128 < n || 256 < c.f 3 1 + n, stBadField, 4)]
    (fun d =>
      let d := d.emit (.moduleOp m (c.f 1 1) (c.f 2 1) (c.f 3 1) false [])
      match data with
      | some bs =>
        let x := d.mod m
        if x.st = 0 then d.answer c stTimeout
        else
          -- The CDB status byte of lower memory without its busy bit: the CDB command is complete (R407; log entry 209).
          let idle := c.f 3 1 ≤ 37 && 37 < c.f 3 1 + n && bs.length = n && !bit (bs.getD (37 - c.f 3 1) 0#8).toNat 7
          (if idle then d.setMod m { x with cdbTo := none } else d).ok c (padTo n bs)
      | none => ((if (d.mod m).st = 0 then d else d.modFlags m 2 0 0)).answer c stTimeout)

/-- A write of `n` bytes from `off` on `page` touches the control bytes of lower page 00h (26–36 of CMIS, PRESUMED, log entry
123) or page 10h, or of a module under SFF-8636 bytes 86–99 (R407). -/
def modControl (sff : Bool) (page off n : Nat) : Bool :=
  let hits (lo hi : Nat) : Bool := off ≤ hi && lo < off + n
  (page = 0x10 && 128 < off + n) || (if sff then hits 86 99 else hits 26 36)

/-- The port that module bus `m` serves is enabled (R405). -/
def Dev.modPortOn (d : Dev) (m : Nat) : Bool := (d.modPorts m).any (fun p => (d.fh p).en)

/-- MOD_WRITE (R407): `ok` is false where the module does not answer in time. -/
def Dev.cmdModWrite (d : Dev) (c : Cmd) (ok : Bool) : Dev :=
  let m := c.f 0 1
  let page := c.f 2 1
  let off := c.f 3 1
  let n := c.f 4 1
  d.checked c
    [(7 < m, stBadField, 0), (n = 0 || 256 < off + n, stBadField, 4),
     (d.modPortOn m && modControl (isSff (d.mod m).ident) page off n, stNotPermitted, 0)]
    (fun d =>
      let d := d.emit (.moduleOp m (c.f 1 1) page off true (slice c.payload 5 n))
      let x := d.mod m
      if x.st = 0 then d.answer c stTimeout
      else if !ok then (d.modFlags m 2 0 0).answer c stTimeout
      else (if page = 0x9F then d.setMod m { x with cdbTo := some (d.time + tenSeconds) } else d).ok c)

/-- TIMING_PINS (R408, R409). -/
def Dev.cmdTimingPins (d : Dev) (c : Cmd) : Dev :=
  d.checked c [(1 < c.f 0 1, stBadField, 0), (d.coveredReg .PRT_TIMING_CFG, stConflict, 0)]
    (fun d => ((d.setReg .TL_CFG (setFld (d.reg .TL_CFG) 13 1 (c.f 0 1))).setReg .PRT_TIMING_CFG
      (c.f 2 2 + c.f 4 2 * 2 ^ 16)).ok c)

/-! ### Tollgates -/

/-- TG_FREEZE (R269). -/
def Dev.cmdTgFreeze (d : Dev) (c : Cmd) : Dev :=
  d.checked c [(53 < c.f 0 1, stBadField, 0), (1 < c.f 1 1, stBadField, 1)]
    (fun d => ((d.setReg .TG_CTRL (c.f 1 1) (c.f 0 1)).judgeMode (c.f 0 1)).ok c)

/-- TG_CFG: every field but MODE, and the lock watchdog. -/
def Dev.cmdTgCfg (d : Dev) (c : Cmd) : Dev :=
  let n := c.f 0 1
  let cfg := c.f 4 4
  let ns := if n = 0xFF then upTo 54 else [n]
  d.checked c
    [(53 < n && n != 0xFF, stBadField, 0), (strays cfg 0xFFFFF001, stBadField, 4), (2 ^ 20 ≤ c.f 8 4, stBadField, 8)]
    (fun d => (ns.foldl (fun d n =>
      (d.setReg .TG_CFG (setFld cfg 0 1 (d.rf .TG_CFG 0 1 n)) n).setReg .TG_LOCKWD (c.f 8 4) n) d).ok c)

/-- TG_CLASS (R258): PIN = 1 pins CLASS; PIN = 0 unpins, and the class is judged again. -/
def Dev.cmdTgClass (d : Dev) (c : Cmd) : Dev :=
  let who := c.f 0 2
  let pin : Bool := c.f 3 1 = 1
  d.checked c [(0x146 < who, stBadField, 0), (3 < c.f 2 1, stBadField, 2), (1 < c.f 3 1, stBadField, 3)]
    (fun d =>
      let others := d.pinned.filter (· != who)
      let d : Dev := { d with pinned := if pin then others ++ [who] else others }
      (d.setClass who (if pin then c.f 2 1 else d.defaultClass who)).ok c)

/-- TG_CLSCFG (R265). -/
def Dev.cmdTgClscfg (d : Dev) (c : Cmd) : Dev :=
  (d.setReg .TG_CLSCFG (c.f 2 2 + c.f 0 1 * 2 ^ 24)).ok c

end Sys2Proof.Machine
end

