-- ==== Sys2Proof/Machine/CmdDebug.lean ====
section
/-!
DEFINITION. Commands of the log and telemetry and debug groups (R426 groups 0x0D and 0x0E), and the v1 commands (R428).
-/
namespace Sys2Proof.Machine

/-! ### Log and events -/

/-- The bytes LOG_READ returns for sequence `s` (R465). -/
def ErrLog.bytesOf (l : ErrLog) (s : Nat) : List Byte :=
  match l.entries[(l.written + 2 ^ 24 - 1 - s % 2 ^ 24) % 2 ^ 24]? with
  | some e => if l.written = 0 then List.replicate 32 0xFF#8 else e.bytes
  | none => List.replicate 32 0xFF#8

/-- LOG_READ (R465). -/
def Dev.cmdLogRead (d : Dev) (c : Cmd) : Dev :=
  let s := c.f 0 4
  let n := c.f 4 2
  d.checked c [(2 ^ 24 ≤ s, stBadField, 0), (n = 0 || 127 < n, stBadField, 4)]
    (fun d => d.ok c ((upTo n).flatMap (fun k => d.log.bytesOf (s + k))))

/-- EVENT_SUB (R430). -/
def Dev.cmdEventSub (d : Dev) (c : Cmd) : Dev :=
  let m := c.f 0 4
  d.checked c [(512 ≤ m, stBadField, 0)]
    (fun d => (d.setMb c.mbx { d.mb c.mbx with evMask := BitVec.ofNat 9 m }).ok c)

/-! ### Debug -/

/-- Number of a ring named by ROW, LINE and MOD. -/
def ringOf (row line mod : Nat) : Nat := if mod = 1 then 4096 + line else 64 * row + line

/-- INJECT (R305, R306): the signal and its capture begin. -/
def Dev.cmdInject (d : Dev) (c : Cmd) : Dev :=
  let p := c.f 0 1
  let sig := c.f 4 1
  let ring := ringOf (c.f 1 1) (c.f 2 1) (c.f 3 1)
  let hz (o : Nat) : Bool := sig = 1 && (c.f o 2 = 0 || 10000 < c.f o 2)
  d.checked c
    [(135 < p, stBadField, 0), (63 < c.f 1 1, stBadField, 1), (63 < c.f 2 1, stBadField, 2), (1 < c.f 3 1, stBadField, 3),
     (3 < sig, stBadField, 4), (1 < c.f 5 1, stBadField, 5), (3 < c.f 6 1, stBadField, 6), (15 < c.f 7 1, stBadField, 7),
     (hz 10, stBadField, 10), (hz 12, stBadField, 12), ((d.logicalOf p).isSome, stNotPermitted, 0)]
    (fun d =>
      let i : Inj := { ring, signal := sig, frozen := if c.f 5 1 = 1 then some (tget (d.pt p).htr ring 0) else none
                       decim := c.f 6 1, sel := c.f 7 1, amp := sx 16 (c.f 8 2), f0 := c.f 10 2, f1 := c.f 12 2
                       durMs := c.f 14 2, began := d.time, u := tget (d.pt p).htr ring 0 }
      (d.modPt p (fun x => { x with inj := some i, cap := { active := true } })).ok c)

/-- Words of a capture from `first`; what it has not taken is a free value. -/
def Dev.capWords (d : Dev) (p first : Nat) : Nat → List Byte × Dev
  | 0 => ([], d)
  | n + 1 =>
    let (w, d) := match (d.pt p).cap.samples[first]? with
      | some w => (w, d)
      | none => (Config.freeNat d.fresh.1, d.fresh.2)
    let (bs, d) := d.capWords p (first + 1) n
    (leBytes 4 w ++ bs, d)

/-- CAPTURE_READ (R306). -/
def Dev.cmdCaptureRead (d : Dev) (c : Cmd) : Dev :=
  let p := c.f 0 1
  let first := c.f 2 2
  let n := c.f 4 2
  d.checked c [(135 < p, stBadField, 0), (16383 < first, stBadField, 2), (n = 0 || 1016 < n || 16384 < first + n, stBadField, 4)]
    (fun d =>
      let (bs, d) := d.capWords p first n
      d.ok c (leBytes 8 (d.pt p).cap.first ++ bs))

/-- HINJ_BIND (R323). -/
def Dev.cmdHinjBind (d : Dev) (c : Cmd) : Dev :=
  let rg := c.f 0 1
  let p := c.f 1 1
  d.checked c
    [(7 < rg, stBadField, 0), (135 < p || regionOfP p != rg, stBadField, 1), (63 < c.f 2 1, stBadField, 2),
     (63 < c.f 3 1, stBadField, 3), (1 < c.f 4 1, stBadField, 4), ((d.logicalOf p).isSome, stNotPermitted, 0)]
    (fun d => (d.setRgn rg { d.rgn rg with hinj := some (p, ringOf (c.f 2 1) (c.f 3 1) (c.f 4 1)) }).ok c)

/-- TG_TEST (R264): named Tollgates run in QUOTA until the test ends; they were in SERVICE once the device was ready. -/
def Dev.cmdTgTest (d : Dev) (c : Cmd) : Dev :=
  let on := c.f 0 1
  let mask := c.f 8 8
  let ns := (upTo 54).filter (bit mask)
  d.checked c [(1 < on, stBadField, 0), (2 ^ 54 ≤ mask, stBadField, 8)]
    (fun d =>
      let test := ns.foldl (fun t n => setFld t n 1 on) d.cp.tgTest
      let d : Dev := { d with cp := { d.cp with tgTest := test } }
      (ns.foldl Dev.judgeMode d).ok c)

/-- `n` registers read one after the other by requester `who`, with their read effects (R7, R9). -/
def Dev.readRegs (d : Dev) (who off : Nat) : Nat → List Byte × Dev
  | 0 => ([], d)
  | n + 1 =>
    let (v, d) := d.readReg who off
    let (bs, d) := d.readRegs who (off + 4) n
    (leBytes 4 v ++ bs, d)

/-- REG_READ. Requesters 16 to 23 stand for the mailboxes. -/
def Dev.cmdRegRead (d : Dev) (c : Cmd) : Dev :=
  let off := c.f 0 4
  let n := c.f 4 2
  d.checked c
    [(off % 4 != 0 || 0x2000000 ≤ off, stBadField, 0), (n = 0 || 1020 < n || 0x2000000 < off + 4 * n, stBadField, 4)]
    (fun d =>
      let (bs, d) := d.readRegs (16 + c.mbx) off n
      d.ok c bs)

/-! ### v1 commands (R428) -/

def Dev.cmdInfo (d : Dev) (c : Cmd) : Dev := d.ok c (d.infoBytes.take 8)

/-- WRREG: written where a host write would reach the register; a VF's mailbox counts as its VF, every other as the PF. A
register in an open window is the host's alone (R435). -/
def Dev.cmdWrreg (d : Dev) (c : Cmd) : Dev :=
  let off := c.f 0 4
  let fn := if 1 ≤ c.mbx && c.mbx ≤ 4 then c.mbx else 0
  d.checked c [(off % 4 != 0 || 0x2000000 ≤ off, stBadField, 0), (!d.reaches fn off, stNotPermitted, 0),
     (d.covered off 4, stConflict, 0)]
    (fun d => (d.writeReg (16 + c.mbx) off (c.f 4 4) c.mbx).ok c)

/-- RUN: immediate start, no deadline, bias 0. -/
def Dev.cmdRun (d : Dev) (c : Cmd) : Dev :=
  let es := maskEngines (c.f 0 4)
  d.checked c ([(es.isEmpty, stBadField, 0), (listBad (c.f 8 8) es, stBadField, 8)] ++ d.placeChecks c.mbx es)
    (fun d => (d.placeLists (es.map (fun e => (e, 0))) (c.f 8 8) none none c.mbx).ok c)

/-- RECAL changes LOCK_CFG.RECAL, in bits 7–2. -/
def Dev.cmdRecal (d : Dev) (c : Cmd) : Dev := d.lockField c 2 6 (63 < c.f 2 1)

/-- LMODE changes LOCK_CFG.MODE. -/
def Dev.cmdLmode (d : Dev) (c : Cmd) : Dev := d.lockField c 0 2 (1 < c.f 2 1)

end Sys2Proof.Machine
end

