-- ==== Sys2Proof/Machine/HostPort.lean ====
section
/-!
DEFINITION. What reaches the block from the host and the board manager beside BAR0: BAR2 (R26–R29, R379, R381, R443),
function-level resets (R382, R439), the SMBus window (R418), and the memory channels' read results and scrubber
(R195–R198).
-/
namespace Sys2Proof.Machine

/-! ### Memory errors (R195–R198) -/

/-- An uncorrectable error in the cache's line `x` at `a`, found by requester `who`: a dirty block is written back poisoned, a
clean one is read again (R198). -/
def Dev.cacheUe (d : Dev) (who a : Nat) (x : CLine) : Dev :=
  let line := a / 128 * 128
  let src := srcTg (16 + bankOf a)
  let b := blockOf a
  let d := d.uncache b
  if x.dirty then
    let d := { d with str := { d.str with poison := if b ∈ d.str.poison then d.str.poison else b :: d.str.poison } }
    (d.channelRequest 0x146 b true).logNow src 0x0202 [(8, line)]
  else (d.cacheBlock who b false false).logNow src 0x0203 [(8, line)]

/-- The cache error that an access of `who` finds first, if any; only a line that the cache holds can have one. -/
def Dev.cacheErr (d : Dev) (who : Nat) (cache : Option Nat) : Dev :=
  match cache with
  | some a =>
    match d.cached (blockOf a) with
    | some x => if isDram a then d.cacheUe who a x else d
    | none => d
  | none => d

/-- DRAM_READ_COMPLETE: a block read for requester `who`. -/
def Dev.dramRead (d : Dev) (a who sectors : Nat) (ue : Bool) : Dev :=
  let d := if 0 < sectors then d.dramCe a sectors else d
  if ue then d.dramUe a who else d

/-- What a function's PCIe configuration space identifies it by (R381). -/
structure FnIds where
  vendor : Nat
  device : Nat
  revision : Nat
  classCode : Nat
  deriving DecidableEq, Repr

/-- The PF (0) and the VFs. -/
def fnIds (fn : Nat) : FnIds :=
  { vendor := Config.vendorId % 2 ^ 16, device := if fn = 0 then 0x5A08 else 0x5A09, revision := 0x10
    classCode := 0x120000 }

/-- The scrubber asks for its next block at the Tollgate of the memory channel (R197, R257). -/
def Dev.scrubAsk (d : Dev) : Dev :=
  Dev.channelRequest { d with str := { d.str with scrubReq := 1 } } 0x147 d.str.scrubNext false

/-- SCRUB_READ: the patrol scrubber, once the Tollgate has granted it, reads its next block, writes a corrected one back, and
asks for the one after (R197). -/
def Dev.scrubRead (d : Dev) (sectors : Nat) (ue : Bool) : Dev :=
  if d.rf .STRM_SCRUB 31 1 != 1 || !d.cp.dramReady then d
  else if d.str.scrubReq = 0 then d.scrubAsk
  else if d.str.scrubReq = 1 then d
  else
    let a := d.str.scrubNext * 256
    let d := if 0 < sectors then d.bump .STRM_CNT_CE 0 0 sectors else d
    let d := if ue then d.dramUe a 0x147 else d
    let next := d.str.scrubNext + 1
    let d : Dev := if next < scrubBlocks then { d with str := { d.str with scrubNext := next } }
      else { d with str := { d.str with scrubNext := 0, scrubFrom := d.time } }
    -- A corrected block is written back.
    let d := if 0 < sectors && !ue then d.channelRequest 0x147 (a / 256) true else d
    d.scrubJudge.scrubAsk

/-! ### BAR2 -/

/-- The device address at offset `off` of BAR2 of function `fn`, for an access of `n` bytes (R381). -/
def Dev.bar2 (d : Dev) (fn off n : Nat) : Option Nat :=
  if fn = 0 then (if off + n ≤ 2 ^ 39 then some off else none)
  else
    let f := tget d.cp.fns fn {}
    if d.ports.vfs && f.bar2log ≤ 6 && off + n ≤ 2 ^ (30 + f.bar2log) then some (f.dramBase + off) else none

/-- An access to `n` bytes from `a` is not served yet: DRAM is not ready, or the engine's region is not (R443). -/
def Dev.early (d : Dev) (a : Nat) (isRead : Bool) : Bool :=
  if isSram a then (isRead && !d.cp.dramReady) || !bit d.cp.regions (sramEngine a / 4) else !d.cp.dramReady

/-- HOST_BAR2_READ of `n` bytes; `ue` is the SRAM offset of a double-bit error it finds (R460), `cache` an
uncorrectable cache line. -/
def Dev.bar2Read (d : Dev) (fn off n : Nat) (ue cache : Option Nat) : Dev :=
  match d.bar2 fn off n with
  | none => d
  | some a =>
    let ones := List.replicate n 0xFF#8
    if d.early a true then (d.earlyLog 0x140 a).emit (.bar2Data fn off false ones)
    else match isSram a, ue with
      | true, some o => (d.sramUe (sramEngine a) o).emit (.bar2Data fn off true ones)
      | _, _ =>
        let (bs, d) := (d.cacheErr 0x140 cache).hubRead 0x140 a n
        d.emit (.bar2Data fn off (d.poisoned a n) bs)

/-- HOST_BAR2_WRITE. -/
def Dev.bar2Write (d : Dev) (fn off : Nat) (data : List Byte) (cache : Option Nat) : Dev :=
  match d.bar2 fn off data.length with
  | none => d
  | some a =>
    if d.early a false then d.earlyLog 0x140 a
    else (d.cacheErr 0x140 cache).hubWrite 0x140 a data

/-- HOST_ATOMIC on the 64-bit word at a BAR2 offset: FetchAdd (`cas` false) or CAS (R379). -/
def Dev.bar2Atomic (d : Dev) (fn off : Nat) (cas : Bool) (val cmp : Nat) : Dev :=
  match d.bar2 fn off 8 with
  | none => d
  | some a =>
    if !(a + 8 ≤ dramEnd) then d
    else if d.early a false then (d.earlyLog 0x140 a).emit (.atomicData fn off (2 ^ 64 - 1) false)
    else
      let old := d.rdLe a 8
      if d.poisoned a 8 then d.emit (.atomicData fn off old true)
      else
        let new := if cas then (if old = cmp % 2 ^ 64 then val % 2 ^ 64 else old) else (old + val) % 2 ^ 64
        (d.hubWrite 0x140 a (leBytes 8 new)).emit (.atomicData fn off old false)

/-! ### Function-level resets and VFs (R382, R439) -/

/-- A mailbox is emptied; a command of its own that the CP holds is dropped with it. -/
def Dev.emptyMbx (d : Dev) (m : Nat) : Dev :=
  let d := d.setMb m (mbxReset m)
  { d with cp := { d.cp with cur := d.cp.cur.filter (fun c => c.mbx != m) } }

/-- The accesses of function `fn` in flight end: their completions, which wait at Tollgate 52, never leave (R382). -/
def Dev.endAccesses (d : Dev) (fn : Nat) : Dev :=
  { d with ports := { d.ports with tlps := d.ports.tlps.filter (fun t => t.2.accessOf != some fn) } }

/-- A VF function-level reset (R382). -/
def Dev.vfFlr (d : Dev) (v : Nat) : Dev := (d.emptyMbx (1 + v)).endAccesses (1 + v)

/-- A PF function-level reset also closes every GRANT_DIRECT window (R434). -/
def Dev.pfFlr (d : Dev) : Dev :=
  let d := ((d.emptyMbx 0).emptyMbx 5).endAccesses 0
  { d with cp := { d.cp with windows := [] } }

def Dev.vfEnable (d : Dev) (on : Bool) : Dev := { d with ports := { d.ports with vfs := on } }

/-! ### The board manager's window (R418) -/

/-- BAR0 offset of MBX7's window offset `o`. -/
def smbusOff (o : Nat) : Nat := 0x1E000 + o

/-- SMBUS_WINDOW_WRITE: words written from window offset `o`; a wrong PEC drops the transaction. -/
def Dev.smbusWrite (d : Dev) (o : Nat) (data : List Byte) (pecOk : Bool) : Dev :=
  if !pecOk then d
  else (upTo (data.length / 4)).foldl (fun d k =>
    if o + 4 * k < 0x2000 then d.writeReg 23 (smbusOff (o + 4 * k)) (getLe data (4 * k) 4) 7 else d) d

def Dev.smbusOffset (d : Dev) (o : Nat) (pecOk : Bool) : Dev :=
  if pecOk then { d with cp := { d.cp with smbusOfs := o } } else d

/-- Words of MBX7's window, with their read effects, oldest offset first. -/
def Dev.smbusWords (d : Dev) (o : Nat) : Nat → List Byte × Dev
  | 0 => ([], d)
  | k + 1 =>
    let (v, d) := if o < 0x2000 then d.readReg 23 (smbusOff o) else (0, d)
    let (bs, d) := d.smbusWords (o + 4) k
    (leBytes 4 v ++ bs, d)

def Dev.smbusRead (d : Dev) : Dev :=
  let (bs, d) := d.smbusWords d.cp.smbusOfs 8
  d.emit (.smbusData bs)

end Sys2Proof.Machine
end

