-- ==== Sys2Proof/Machine/Power.lean ====
section
/-!
DEFINITION. Power, resets and bring-up (chapters 16 and 18): the reset types and what each wipes, the boot ROM, the
steps of the first second, the factory default program, and the loss of power, rails and clocks.
-/
namespace Sys2Proof.Machine

/-! ### The boot ROM (R449–R452) -/

/-- A slot may be booted: 0 its image fails the check, 1 its failed-boot count has reached 3, 2 it may. -/
def Dev.slotVerdict (d : Dev) (slot : Nat) : Nat :=
  if !d.imageOk slot then 0 else if 3 ≤ tget d.cp.fails slot 0 then 1 else 2

/-- A slot is booted; the boot counts as failed until device ready, and a skipped signature check is logged. -/
def Dev.bootSlot (d : Dev) (slot : Nat) (fallback : Bool) : Dev :=
  let skip := d.sigSkipped
  let d : Dev := { d with cp := { d.cp with
    slot, fallback, recovery := false, fails := tset d.cp.fails slot (tget d.cp.fails slot 0 + 1) } }
  if skip then d.logNow srcCp 0x0009 [] else d

/-- The boot ROM runs (R451); BOOT_SRC high, a decommissioned device and two bad slots give the recovery firmware. -/
def Dev.boot (d : Dev) : Dev :=
  let a := d.cp.bootSel
  let b := 1 - a
  let rescue : Dev := { d with cp := { d.cp with recovery := true, fallback := false, slot := a } }
  if bit d.cp.straps 0 || d.cp.lcState = 4 then rescue
  else if d.slotVerdict a = 2 then d.bootSlot a false
  else if d.slotVerdict b = 2 then (d.logNow srcCp 0x0008 [(1, a), (1, d.slotVerdict a)]).bootSlot b true
  else rescue

/-! ### Resets (R439, R440) -/

/-- DRAM keeps its contents and the host link stays up. -/
def ResetType.warm_ (t : ResetType) : Bool := t = .warm || t = .warmLog || t = .cpWdog
/-- The error log is kept. -/
def ResetType.keepsLog (t : ResetType) : Bool := t = .warmLog || t = .cpWdog || t = .thermal

/-- What survives a reset of the CP and the device's life cycle: fuses, keys, flash, records, pins and clocks. -/
def Cp.afterReset (c : Cp) (t : ResetType) (straps : Nat) : Cp :=
  { pwrgd := c.pwrgd, perst := c.perst, straps := if t.warm_ then c.straps else straps
    rstCause := t.code
    warms := if t.warm_ then min 255 (c.warms + 1) else if t = .cold || t = .perst then 0 else c.warms
    lcState := c.lcState, lcCount := c.lcCount, returns := c.returns, svn := c.svn, uid := c.uid, keys := c.keys
    auxRec := c.auxRec, flash := c.flash, bootSel := c.bootSel, fails := c.fails, clocks := c.clocks }

/-- What survives of a stack's light: the commissioning powers and the stored equaliser settings. -/
def StackSt.afterReset (x : StackSt) : StackSt :=
  { commission := x.commission, combA := { eq := x.combA.eq }, combB := { eq := x.combB.eq } }

/-- A thermal restart keeps the trip record (THM_TRIP, R376), and no other reset does (R6); a trip whose power-off is
still to come is cancelled by no reset (R374). Everything else of the supervisor starts again. -/
def Thermal.afterReset (x : Thermal) (t : ResetType) : Thermal :=
  if t = .thermal then { trips := x.trips, total := x.total, lastSens := x.lastSens, latched := x.latched }
  else { tripped := x.tripped }

/-- The device with everything wiped that a reset wipes (R440): engine SRAM, and DRAM where it is zeroed (R439). -/
def Dev.wiped (d : Dev) (t : ResetType) (straps : Nat) : Dev :=
  { aon := d.aon, out := d.out, freeCtr := d.freeCtr
    mem := d.mem
    wr := (if t.warm_ then .zero 0x7800000000 0x10000000 else .zero 0 0x8000000000) :: d.wr
    log := if t.keepsLog then d.log else {}
    str := { poison := if t.warm_ then d.str.poison else [] }
    stks := d.stks.map (fun p => (p.1, p.2.afterReset))
    th := d.th.afterReset t
    ports := if t.warm_ then { host := d.ports.host, vfs := d.ports.vfs } else {}
    cp := d.cp.afterReset t straps }

/-- A reset up to the boot ROM: the wipe, the RESET log entry (R458), the power-up values of the AUX channels (R318). -/
def Dev.resetHeld (d : Dev) (t : ResetType) (straps : Nat) : Dev :=
  let last := if t.keepsLog && 0 < d.log.written then (d.log.written - 1) % 2 ^ 24 else 0xFFFFFF
  let d := d.wiped t straps
  let d := d.logNow srcPackage 0x0001 [(1, t.code), (1, 0), (2, 0), (1, last % 256), (1, last / 256 % 256), (1, last / 65536)]
  d.cp.auxRec.foldl (fun d r => d.auxPowerUp (r.1 / 8) (r.1 % 8)) d

/-- A reset, and the boot ROM after it. -/
def Dev.reset (d : Dev) (t : ResetType) (straps : Nat) : Dev := (d.resetHeld t straps).boot

/-- Power is gone outside the always-on domain (R374, R437): the lasers are off, the heater outputs 0, and everything is
held in reset. The supervisor, with its settings, the trip record and the log remain; the AUX channels stand at their
power-up values (R312). -/
def Dev.powerOff (d : Dev) : Dev :=
  let w := d.wiped .cold d.cp.straps
  let w : Dev := { w with
    time := d.time, log := d.log, th := d.th
    regs := d.regs.filter (fun r => RegName.THM_CFG.off ≤ r.1 && r.1 < RegName.THM_CFG.off + 0x1000)
    cp := { w.cp with powered := false, rstCause := d.cp.rstCause, warms := d.cp.warms } }
  w.cp.auxRec.foldl (fun d r => d.auxPowerUp (r.1 / 8) (r.1 % 8)) w

/-- PWRGD_RISING: straps are latched and a cold reset runs; a device held by a trip waits for its restart (R375). -/
def Dev.pwrgdRise (d : Dev) (straps : Nat) : Dev :=
  let d : Dev := { d with cp := { d.cp with pwrgd := true, straps } }
  if d.th.tripped.isSome then d else d.reset .cold straps

/-- PWRGD_FALLING (R437). -/
def Dev.pwrgdFall (d : Dev) : Dev :=
  let d := d.powerOff
  { d with cp := { d.cp with pwrgd := false } }

/-- RAIL_LOSS (R472): logged while PWRGD is asserted, then as loss of PWRGD. -/
def Dev.railLoss (d : Dev) (rail : Nat) : Dev :=
  if d.cp.pwrgd then (d.logNow srcPackage 0x000A [(1, rail)]).pwrgdFall else d

/-- VDD_IO_LOSS: the always-on domain is gone, unlogged (R472). -/
def Dev.vddIoLoss (d : Dev) : Dev :=
  let d := d.pwrgdFall
  { d with aon := 0, log := {}, th := {}, regs := [], time := 0, cp := { d.cp with straps := 0, rstCause := 0, warms := 0, perst := false } }

/-- CLOCK_ABSENT (R475), and a clock's return. -/
def Dev.clockChange (d : Dev) (clk : Nat) (absent : Bool) : Dev :=
  let d : Dev := { d with cp := { d.cp with clocks := setFld d.cp.clocks clk 1 (b2n (!absent)) } }
  if !absent then d
  else if clk = 0 then d.railLoss 0xFF
  else if clk = 1 then { d with ports := { d.ports with host := none } }
  else if clk = 2 then (upTo 8).foldl (fun d p => if (d.fh p).link then d.fhLinkDown p 0 else d) d
  else if clk = 3 then (upTo 4).foldl (fun d p => d.peerLinkDown p 0) d
  else { d with tl := { d.tl with ppsOk := false } }

/-- A trip latch is cleared, and the count of trips within the window restarts (R376). -/
def Dev.clearLatch (d : Dev) : Dev :=
  if d.th.latched then { d with th := { d.th with latched := false, trips := [] } } else d

/-- PERST_N_ASSERT: ignored while PWRGD is low (R477). The boot waits for the release, at which the straps are sampled
(R439). -/
def Dev.perstAssert (d : Dev) : Dev :=
  if !d.cp.pwrgd then d
  else
    let d : Dev := Dev.clearLatch { d with cp := { d.cp with perst := true } }
    if d.cp.powered then d.resetHeld .perst d.cp.straps else d

/-- PERST_N_RELEASE: straps are sampled again (R438), and the device that the assertion has reset boots. -/
def Dev.perstRelease (d : Dev) (straps : Nat) : Dev :=
  if !d.cp.pwrgd then { d with cp := { d.cp with perst := false } }
  else
    let x : Dev := { d.clearLatch with cp := { d.clearLatch.cp with perst := false, straps } }
    if d.cp.perst && d.cp.powered then x.boot else x

/-- A reset that was ordered begins, 1 ms after DONE or ASYNC_DONE (R441, R455). -/
def Dev.orderedReset (d : Dev) (life : Bool) (straps : Nat) : Dev :=
  match d.cp.resetAt with
  | none => d
  | some (at_, t) => if (t = .lifeCycle) = life && at_ ≤ d.time then d.reset t straps else d

/-- CP_WATCHDOG_EXPIRY. -/
def Dev.cpWatchdog (d : Dev) (word : Nat) : Dev :=
  (d.logNow srcCp 0x0007 [(4, word)]).reset .cpWdog d.cp.straps

/-- TRIP_POWER_OFF, 10 µs after the trip: the internal switches open (R374). -/
def Dev.tripOff (d : Dev) : Dev :=
  match d.th.tripped with
  | some t => if t + 19661 ≤ d.aon then d.powerOff else d
  | none => d

/-- THERMAL_RESTART, 10 s after the trip at the earliest: every sensor not faulted lies below its restart value, and no
latch holds the device (R375). -/
def Dev.thermalRestart (d : Dev) (straps : Nat) : Dev :=
  let cool := (upTo 96).all (fun n => (d.sensor n).fault || (d.sensor n).temp < restartBelow (sensorClass n))
  let due := match d.th.tripped with
    | some t => decide (t + 10 * tcPerSec ≤ d.aon)
    | none => false
  if !due || d.cp.powered || d.th.latched || !d.cp.pwrgd || !cool then d
  else d.reset .thermal straps

/-! ### The first second -/

/-- What the flash lists of the running image. -/
def Dev.image (d : Dev) : List Host.Cell :=
  d.cp.flash.filter (fun c => slotBase d.cp.slot ≤ c.1 && c.1 < slotBase d.cp.slot + slotSize d.cp.slot)

/-- The image has a body, and with it a board section and a factory default program. -/
def Dev.hasBody (d : Dev) : Bool := 0 < ofLe (d.flashBytes (slotBase d.cp.slot + 12) 4)

/-- The board section is applied (R450): quad modes, time source, fronthaul ports. -/
def Dev.applyBoard (d : Dev) : Dev :=
  if !d.hasBody then d
  else
    let im := d.image
    let d := (upTo 4).foldl (fun (d : Dev) q => d.setReg .PRT_FH_QCFG (Config.boardQuad im q % 128 &&& 0x47) q) d
    let d := d.writeTlCfg (Config.boardTime im)
    (upTo 8).foldl (fun (d : Dev) p => if bit (Config.boardPorts im) p then d.enableFh p else d) d

/-- A monitor entry word of the CP: its defined fields, AVGLOG brought into 0–4. -/
def cpEntry (w : Nat) : Nat := fld w 0 6 + fld w 8 3 * 2 ^ 8 + fld w 12 3 % 5 * 2 ^ 12 + fld w 15 1 * 2 ^ 15

/-- The CP programs a region's monitor ADCs and starts them (R327, R330, R332). -/
def Dev.programMadc (d : Dev) (rg : Nat) : Dev :=
  let last := Config.cpInjLast % 8
  let d := (upTo 32).foldl (fun (d : Dev) k => d.setReg .MADC_C_REG k rg 0 k) d
  let d := (upTo 8).foldl (fun (d : Dev) k => d.setReg .MADC_C_INJ (cpEntry (Config.cpInj k)) rg 0 k) d
  let d := d.setReg .MADC_C_CFG (0x13000000 + 2 ^ 19 + last * 2 ^ 16 + 31 * 2 ^ 8 + 1) rg 0
  let ins := (upTo 17).map (36 + ·) ++ (upTo 5).map (53 + ·) ++ [32, 33]
  let d := ins.zipIdx.foldl (fun (d : Dev) p => d.setReg .MADC_C_REG (0x2000 + p.1) rg 1 p.2) d
  let d := d.setReg .MADC_C_CFG (0x0C000000 + 23 * 2 ^ 8 + 1) rg 1
  (d.madcSetRun rg 0 true).madcSetRun rg 1 true

/-- The CP sizes the spill area at 1 MiB per MiB of pool (R218); where it lies in DRAM the manual does not fix (log entry
224). -/
def Dev.defaultSpill (d : Dev) : Dev :=
  let mib := d.poolSize / 2 ^ 20
  let base := Config.spillMib % (dramEnd / 2 ^ 20 - mib) * 2 ^ 20
  (d.setReg .STRM_SPILL_LO (base % 2 ^ 32 + mib * 2 ^ 8)).setReg .STRM_SPILL_HI (base / 2 ^ 32)

/-- CP_READY: every mailbox sets READY, a READY event is raised, and the board section is applied. The recovery firmware
brings up nothing else (R452). -/
def Dev.cpReady (d : Dev) : Dev :=
  if d.cp.ready || d.cp.perst then d
  else
    let d : Dev := { d with cp := { d.cp with ready := true } }
    let d := (upTo 8).foldl (fun (d : Dev) m => d.setInt m 3) d
    let d := d.publish 0x10 srcCp [(1, 2)] d.time
    if d.cp.recovery then d
    else
      let d := d.applyBoard.defaultSpill
      let d := if bit d.cp.straps 3 then d else (upTo 4).foldl (fun (d : Dev) p => d.enablePeer p) d
      let d := (upTo 4).foldl (fun (d : Dev) s =>
        ((d.modComb s 0 (fun x => { x with powered := true })).modComb s 1 (fun x => { x with powered := true })).laserThrottle s) d
      (upTo 8).foldl (fun (d : Dev) rg => d.programMadc rg) d

/-- DRAM_READY (R443). -/
def Dev.dramUp (d : Dev) : Dev := { d with cp := { d.cp with dramReady := true } }

/-- The stack's comb is in use. -/
def Dev.lit (d : Dev) (s : Nat) : Bool := ((d.stk s).comb (d.stk s).active).st = .inUse

/-- Physical tiles of a region (R22). -/
def regionTiles (rg : Nat) : List Nat := (upTo 16).map (16 * rg + ·) ++ [128 + rg]

/-- REGION_ACQUISITION_START: full acquisitions of the region's tiles that are off. -/
def Dev.acquireRegion (d : Dev) (rg : Nat) : Dev :=
  if !d.cp.ready || d.cp.recovery || !d.lit (rg / 2) then d
  else (regionTiles rg).foldl (fun (d : Dev) p =>
    if (d.pt p).lock = .off && !(d.pt p).parking then d.startAcq p else d) d

/-- The conditions of R444. -/
def Dev.regionConditions (d : Dev) (rg : Nat) : Bool :=
  d.cp.ready && d.lit (rg / 2)
    && (upTo 16).all (fun k =>
      let st := (d.ltSlot (16 * rg + k)).st
      st = .idle || st = .unbound)
    && (d.spare rg = 0xFF || (d.pt (d.spare rg)).up)
    && (upTo 2).all (fun c => d.rf .MADC_C_CFG 0 1 rg c = 1)

/-- REGION_READY: the region's engines leave OFF the first time, and READY is raised (R444). -/
def Dev.regionReady (d : Dev) (rg : Nat) : Dev :=
  if bit d.cp.regions rg || !d.regionConditions rg then d
  else
    let first := !(d.rgn rg).up
    let d := d.setRgn rg { d.rgn rg with up := true }
    let d := if first then (upTo 4).foldl (fun (d : Dev) k => d.modEng (4 * rg + k) (fun x => { x with st := .idle })) d else d
    let regions := setFld d.cp.regions rg 1 1
    let d : Dev := { d with cp := { d.cp with regions, degraded := d.cp.degraded && regions != 0xFF } }
    d.publish 0x10 (srcRegion rg) [(1, 0)] d.time

/-! ### The factory default program (R447) -/

/-- Bytes `v` put over `bs` from offset `o`. -/
def overlay (bs : List Byte) (o : Nat) (v : List Byte) : List Byte :=
  padTo o bs ++ v ++ bs.drop (o + v.length)

/-- The descriptor of F0: FH_IN of CT0, 8,192-byte records, 6 pass buffers, forked to context 0 of E00–E07. -/
def progIngress (b : List Byte) : List Byte :=
  let b := padTo 96 b
  let b := overlay b 0 [0x03#8]
  let b := overlay b 2 (leBytes 2 8192)
  let b := overlay b 6 [BitVec.ofNat 8 (getLe b 6 1 % 16)]
  let b := overlay b 7 [0x08#8]
  let b := overlay b 16 (leBytes 4 6)
  overlay b 80 ((upTo 8).flatMap (fun e => leBytes 2 (e * 2 ^ 9)))

/-- A descriptor of the program with its KIND. -/
def progOf (kind : Nat) (b : List Byte) : List Byte :=
  let b := padTo 96 b
  overlay b 0 [BitVec.ofNat 8 (getLe b 0 1 / 16 * 16 + kind)]

/-- Flow entry 0 of R447: FH0, valid, untagged, type 0, EAXC 0 under mask 0xFFC0, to F0. -/
def progFlow : Nat := 0x08 + 0xFFC0 * 2 ^ 48

/-- Entries 0x040 (START, every slot, symbol 1) and 0x060 (symbol 2, DSKIP 1) of CT0. -/
def progStart : BitVec 256 := BitVec.ofNat 256 (1 + 0xFFFF * 2 ^ 32 + 1 * 2 ^ 48 + 1 * 2 ^ 96)
def progDeadline : BitVec 256 := BitVec.ofNat 256 (1 + 0xFFFF * 2 ^ 32 + (2 + 1 * 2 ^ 4) * 2 ^ 48)

/-- The CP installs and starts the factory default program. Number 8 stands for the program in place of a mailbox. -/
def Dev.startStandalone (d : Dev) : Dev :=
  let im := d.image
  let v := d.reg .TL_CFG
  let d := d.writeTlCfg (setFld (setFld (setFld (setFld (setFld v 0 2 1) 4 3 0) 7 1 1) 8 2 0) 12 1 1)
  let d := (d.setReg .PRT_FH_QCFG 2 0).enableFh 0
  let d := d.enableFh 1
  let d := (d.ctConfig 0 1 0 1 621212111339520000).getD d
  -- The entries reach the active bank by a commit on CT0 (R243, R244).
  let b := d.nextBoundary 0 (d.time + 8192)
  let d : Dev := { d with
    ms := { d.ms with
      shadow := tset (tset d.ms.shadow 0x40 progStart) 0x60 progDeadline
      commit := some { ct := 0, b, mbx := 8 }, lastCt := 0, lastB := b }
    ports := { d.ports with flows := tset d.ports.flows 0 progFlow, lastSeq := tdrop d.ports.lastSeq 0 }
    cp := { d.cp with standalone := true } }
  let d := (Config.progMem im).foldl (fun (d : Dev) p => d.devWrite 0x149 p.1 p.2) d
  let d := (upTo 8).foldl (fun (d : Dev) e => d.armCtx (8 * e) (progOf 2 (Config.progDesc im (8 * e))) 8) d
  let d := d.armCtx 256 (progIngress (Config.progDesc im 256)) 8
  let d := d.armCtx 257 (progOf 4 (Config.progDesc im 257)) 8
  d.placeLists ((upTo 8).map (fun e => (e, Config.progBias im e))) (Config.progList im) (some 0x40) (some 0x60) 8

/-- DEVICE_READY: every region is ready, or has no usable light (R445). -/
def Dev.deviceReady (d : Dev) : Dev :=
  let all := (upTo 8).all (fun rg => bit d.cp.regions rg || (d.stk (rg / 2)).dark)
  if !d.cp.ready || d.cp.recovery || d.cp.device || !all then d
  else
    let svn := max d.cp.svn (ofLe (d.flashBytes (slotBase d.cp.slot + 8) 2))
    let d : Dev := { d with cp := { d.cp with
      device := true, degraded := d.cp.regions != 0xFF, svn, fails := tdrop d.cp.fails d.cp.slot } }
    let d := (upTo 54).foldl Dev.judgeMode d
    let d := d.publish 0x10 srcPackage [(1, 1)] d.time
    if bit d.cp.straps 1 && d.hasBody then d.startStandalone else d

end Sys2Proof.Machine
end

