-- ==== Sys2Proof/WellFormed.lean ====
section
/-!
DEFINITION. Which commands are well formed: they name engines, tiles, ports and registers that the device has, and carry
values that fit their fields. Each check has a name.
-/
namespace Sys2Proof

/-! ### Parts of the device (R1, R2, R22) -/

def okEngine (e : Nat) : Bool := decide (e < 32)
def okSlot (t : Nat) : Bool := decide (t < 4)
/-- A logical tile. -/
def okLtile (n : Nat) : Bool := decide (n < 128)
/-- A physical tile. -/
def okTile (p : Nat) : Bool := decide (p < 136)
def okRegion (rg : Nat) : Bool := decide (rg < 8)
def okStack (s : Nat) : Bool := decide (s < 4)
/-- A patch of a tile; a missed modulator ring counts alone, as 64 + line (R291, R293). -/
def okPatch (q : Nat) : Bool := decide (q < 64)
def okMissPatch (q : Nat) : Bool := decide (q < 128)
/-- One of the two vector pipes' VECs (R112). -/
def okPipe (i : Nat) : Bool := decide (i < 2)
/-- A sensor group, and its sensors (R362). -/
def okGroup (g : Nat) : Bool := decide (g < 13)
def groupSize (g : Nat) : Nat := if g < 4 then 8 else if g = 4 then 16 else if g < 9 then 4 else 8
/-- An auxiliary channel, 8 the heater injection queue; a converter A or B, or comb A or B; a trigger source (R328). -/
def okAux (ch : Nat) : Bool := decide (ch < 9)
def okConv (c : Nat) : Bool := decide (c < 2)
def okTrigger (b : Nat) : Bool := decide (b < 5)
/-- Raw codes of an entry's conversions; records of a region's buffer (R325, R333). -/
def okRaws (rs : List Nat) : Bool := decide (1 ≤ rs.length) && rs.all (fun r => decide (r < 4096))

/-! ### Timelines, Tollgates, streams -/

/-- A Milestone entry (R238). -/
def okEntry (n : Nat) : Bool := decide (n < 4096)
/-- A Tollgate, a requester, the requests of one cycle (R256, R257). -/
def okTg (n : Nat) : Bool := decide (n < 54)
def okReq (who : Nat) : Bool := decide (who ≤ 0x149)
def okReqs (rs : List Nat) : Bool := rs.all okReq
/-- A stream context, several, a fronthaul context (R202). -/
def okCtx (n : Nat) : Bool := decide (n < 288)
def okFctx (f : Nat) : Bool := decide (f < 32)
/-- A DRAM address; sectors of a block with a corrected error (R194, R195). -/
def okDram (a : Nat) : Bool := decide (a < 0x6000000000)
def okSectors (n : Nat) : Bool := decide (n ≤ 8)
/-- The offset of a double-bit error in engine SRAM, if there is one. -/
def okUe (u : Option Nat) : Bool := u.all (fun o => decide (o < 0x800000))

/-- A point within a cycle of 4 Tc (R225). -/
def okCycle (n : Nat) : Bool := decide (n < 4)

/-! ### Ports -/

def okFh (p : Nat) : Bool := decide (p < 8)
def okPeer (p : Nat) : Bool := decide (p < 4)
def okPort (peer : Bool) (p : Nat) : Bool := if peer then okPeer p else okFh p
/-- What a module's management finds (R406). -/
def okFound (n : Nat) : Bool := decide (n < 3)
/-- The identifier byte of a module that answers (R405). -/
def okModule (found : Option (Nat × List Nat)) : Bool := found.all (fun x => decide (x.1 < 256))
def okDev (n : Nat) : Bool := decide (n < 4)
def okPdev (n : Option Nat) : Bool := n.all okDev
/-- TAG of a transfer (R399). -/
def okTag (t : Nat) : Bool := decide (t < 65536)

/-! ### The host and the board -/

def okByte (v : Nat) : Bool := decide (v < 256)
def okWord (v : Nat) : Bool := decide (v < 4294967296)
def okU64 (v : Nat) : Bool := decide (v < 18446744073709551616)
def okForks (ks : List (Nat × Option (Nat × Nat × Nat × Nat))) : Bool :=
  ks.all (fun k => okCtx k.1 && k.2.all (fun x => okByte x.1 && okU64 x.2.1 && okU64 x.2.2.1 && okWord x.2.2.2))
def okStraps (v : Nat) : Bool := decide (v < 16)
/-- A rail of R472, and a clock of R475. -/
def okRail (r : Nat) : Bool := decide (r < 10)
def okClock (c : Nat) : Bool := decide (c < 5)
/-- A mailbox, or a module bus. -/
def okMbx (m : Nat) : Bool := decide (m < 8)
/-- A function: 0 the PF, 1–4 VF0–VF3; a VF. -/
def okFn (fn : Nat) : Bool := decide (fn < 5)
def okVf (v : Nat) : Bool := decide (v < 4)
/-- A VF reaches its own mailbox alone (R381). -/
def okFnMbx (fn m : Nat) : Bool := okFn fn && okMbx m && (decide (fn = 0) || decide (m = fn))
/-- An offset in a function's BAR0, and an aligned word of it (R5, R381). -/
def okBar0 (fn off : Nat) : Bool := okFn fn && decide (off < (if fn = 0 then 0x2000000 else 0x2000))
def okReg (fn off : Nat) : Bool := okBar0 fn off && decide (off % 4 = 0)
/-- An offset in BAR2, and the length of one access. -/
def okBar2 (off : Nat) : Bool := decide (off < 0x8000000000)
def okLen (n : Nat) : Bool := decide (1 ≤ n) && decide (n ≤ 4096)
/-- A rate and a width of the host link (R379). -/
def okRate (r : Nat) : Bool := r = 64 || r = 32 || r = 16 || r = 8 || r = 5 || r = 2
def okWidth (w : Nat) : Bool := w = 16 || w = 8 || w = 4 || w = 1
/-- A window offset, and the data bytes of a block write (R418). -/
def okWindow (o : Nat) : Bool := decide (o < 65536) && decide (o % 4 = 0)
def okBlock (n : Nat) : Bool := decide (4 ≤ n) && decide (n ≤ 28) && decide (n % 4 = 0)
/-- A block that runs to a safe point: engine, physical tile, port by the low byte of its index (R31, R358). -/
def okBlockOf (kind i : Nat) : Bool :=
  if kind = 0 then okEngine i else if kind = 1 then okTile i
  else decide (kind = 2) && ((decide (0x10 ≤ i) && decide (i < 0x18)) || (decide (0x20 ≤ i) && decide (i < 0x24)))


/-- A command names parts the device has, and operands in range. -/
def Instr.wellFormed : Instr → Bool
  | .pwrgdRising straps => okStraps straps
  | .railLoss rail => okRail rail
  | .clockAbsent clk _ => okClock clk
  | .perstRelease straps => okStraps straps
  | .cpWatchdogExpiry word => okWord word
  | .regionReady rg => okRegion rg
  | .lcChangeReset straps => okStraps straps
  | .thermalSample g readings => okGroup g && decide (readings.length = groupSize g)
  | .thermalRestart straps => okStraps straps
  | .throttleEscalate g => okGroup g
  | .throttleRelease g => okGroup g
  | .quietPeriodLimit p => okTile p
  | .sampleWindowEnd p _ _ _ => okTile p
  | .estimatesReady p => okTile p
  | .patchSample p q _ _ => okTile p && okPatch q
  | .coefRewrite p => okTile p
  | .patchDeadlineMiss p q => okTile p && okMissPatch q
  | .tempRefresh p => okTile p
  | .softStartComplete p => okTile p
  | .thermalSettleEnd p => okTile p
  | .sweepToothEnd p => okTile p
  | .captureEnd p => okTile p
  | .identityCheckEnd p => okTile p
  | .wrongLineMoveDone p => okTile p
  | .localSweepEnd p => okTile p
  | .legacyTableUpdate p => okTile p
  | .legacyRecalBurst p => okTile p
  | .tileRateChange e t => okEngine e && okSlot t
  | .integrationWindowOpen e t => okEngine e && okSlot t.1 && okCycle t.2
  | .conversionComplete e t _ _ => okEngine e && okSlot t
  | .saturationRerun e t => okEngine e && okSlot t
  | .confidenceReread e t => okEngine e && okSlot t
  | .macArrayJobStart e => okEngine e
  | .splitDone e => okEngine e
  | .macArrayJobDone e => okEngine e
  | .reloadComplete e t => okEngine e && okSlot t
  | .tileWaitExpiry e t => okEngine e && okSlot t
  | .decodeResume e => okEngine e
  | .nop e => okEngine e
  | .loadw e => okEngine e
  | .mvm e => okEngine e
  | .mvmc e => okEngine e
  | .dmm e ue => okEngine e && okUe ue
  | .vec e ue => okEngine e && okUe ue
  | .acc e => okEngine e
  | .accDelivery e => okEngine e
  | .route e => okEngine e
  | .routeEvaluation e => okEngine e
  | .exit e => okEngine e
  | .exitEvaluation e => okEngine e
  | .arm e => okEngine e
  | .waitm e => okEngine e
  | .waitmTimeout e => okEngine e
  | .signal e => okEngine e
  | .signalEffect e => okEngine e
  | .fence e => okEngine e
  | .fencePoll e => okEngine e
  | .fenceTimeout e => okEngine e
  | .lockseq e => okEngine e
  | .lockseqTimeout e => okEngine e
  | .listStart e => okEngine e
  | .listEnd e => okEngine e
  | .hotMarginReached e => okEngine e
  | .milestoneFiring n _ => okEntry n
  | .phaseMeasurement sub => decide (-8 ≤ sub ∧ sub < 8)
  | .ptpMessage p kind domain _ _ _ _ _ _ => okFh p && okByte kind && okByte domain
  | .esmcReceive p ql => okFh p && okByte ql
  | .ppsInEdge _ => true
  | .ppsCheck _ _ => true
  | .tollgateGrant n reqs _ => okTg n && okReqs reqs
  | .quotaWindowEnd n => okTg n
  | .lockWatchdogExpiry n => okTg n
  | .scrubRead sectors _ => okSectors sectors
  | .dramReadComplete a who sectors _ => okDram a && okReq who && okSectors sectors
  | .streamRequestIssue n => okCtx n
  | .streamDataArrival n _ => okCtx n
  | .streamWriteComplete n => okCtx n
  | .streamWaitResume n => okCtx n
  | .streamPassEnd n => okCtx n
  | .rearmEffect n => okCtx n
  | .spillReadback n => okCtx n
  | .fhInPassAdvance f => okFctx f
  | .forkMemberDrop n => okCtx n
  | .frameReceived p _ _ _ => okFh p
  | .fhOutPassRead f => okFctx f
  | .fhOutFrameSend p => okFh p
  | .linkUp p => okFh p
  | .linkDown peer p reason => okPort peer p && okByte reason
  | .moduleInsertion m found => okMbx m && okModule found
  | .moduleRemoval m => okMbx m
  | .moduleInterrupt m found byte page => okMbx m && okFound found && okByte byte && okByte page
  | .modulePoll m found byte page => okMbx m && okFound found && okByte byte && okByte page
  | .peerTrainingDone p pport pdev puid => okPeer p && okPeer pport && okPdev pdev && okU64 puid
  | .peerFrameReplay p _ => okPeer p
  | .peerWrite p _ _ => okPeer p
  | .peerRead p _ ue => okPeer p && okUe ue
  | .peerReadData p _ _ => okPeer p
  | .peerAdd p _ _ => okPeer p
  | .peerAck p _ => okPeer p
  | .peerFork p _ ks _ _ => okPeer p && okForks ks
  | .peerCredit p _ _ => okPeer p
  | .peerMbx p _ _ => okPeer p
  | .peerTimeFrame p _ _ => okPeer p
  | .peerNotReady p _ => okPeer p
  | .peerRetry tag => okTag tag
  | .peerTransferTimeout tag => okTag tag
  | .peerTimeComparison p t1 t2 t3 t4 _ => okPeer p && okU64 t1 && okU64 t2 && okU64 t3 && okU64 t4
  | .forkFlush n dev => okCtx n && okDev dev
  | .hostBar2Read fn off n ue _ => okFn fn && okBar2 off && okLen n && okUe ue
  | .hostBar2Write fn off data _ => okFn fn && okBar2 off && okLen data.length
  | .hostAtomic fn off _ val cmp => okFn fn && okBar2 off && okU64 val && okU64 cmp && decide (off % 8 = 0)
  | .vfFlr v => okVf v
  | .smbusWindowWrite o data _ => okWindow o && okBlock data.length
  | .smbusOffsetSet o _ => okWindow o
  | .badWidthAccess fn off _ => okFn fn && okBar0 fn off
  | .registerWrite fn off v => okReg fn off && okWord v
  | .loRead fn off => okReg fn off
  | .hiRead fn off => okReg fn off
  | .loWrite fn off v => okReg fn off && okWord v
  | .hiWrite fn off v => okReg fn off && okWord v
  | .rcRead fn off => okReg fn off
  | .w1cWrite fn off v => okReg fn off && okWord v
  | .doorbellRing fn m v => okFnMbx fn m && okWord v
  | .evqConsWrite fn m v => okFnMbx fn m && okWord v
  | .mbxVerWrite fn m v => okFnMbx fn m && okWord v
  | .tileCfgRateWrite lt v => okLtile lt && okWord v
  | .lockModeWrite lt v => okLtile lt && okWord v
  | .tgFreezeWrite n v => okTg n && okWord v
  | .auxRunWrite rg ch v => okRegion rg && okAux ch && okWord v
  | .auxQdataWrite rg ch v => okRegion rg && okAux ch && okWord v
  | .madcRunWrite rg c v => okRegion rg && okConv c && okWord v
  | .auxSampleInstant rg ch => okRegion rg && okAux ch
  | .madcEntryComplete rg c raws _ => okRegion rg && okConv c && okRaws raws
  | .madcRoundStart rg c => okRegion rg && okConv c
  | .madcTrigger rg c b => okRegion rg && okConv c && okTrigger b
  | .lineMonitorRound sk powers => okStack sk && decide (powers.length = 64)
  | .lossDetector sk => okStack sk
  | .detourVerify sk powers _ => okStack sk && decide (powers.length = 64)
  | .detourGapClose sk => okStack sk
  | .detourWait sk => okStack sk
  | .combStandby sk c _ => okStack sk && okConv c
  | .combAligned sk c _ _ => okStack sk && okConv c
  | .alignmentCheck sk _ => okStack sk
  | .roadworksAutoFiring rg => okRegion rg
  | .sparePrepare rg => okRegion rg
  | .roadworksDrainEnd rg => okRegion rg
  | .swapLoadDone rg => okRegion rg
  | .swapComplete rg => okRegion rg
  | .calibrationStep rg _ _ _ => okRegion rg
  | .calibrationComplete rg => okRegion rg
  | .safePointReached kind idx => okBlockOf kind idx
  | .modRead _ => true
  | .modWrite _ => true
  | .regionAcquisitionStart rg => okRegion rg
  | .vecComplete e pipe => okEngine e && okPipe pipe
  | .peerDevnumExchange p dev => okPeer p && okDev dev
  | .hostLinkTrained rate width => okRate rate && okWidth width
  | .copyComplete _ _ => true
  | .vfEnable _ => true
  | .pwrgdFalling => true
  | .perstAssert => true
  | .resetBegin => true
  | .cpReady => true
  | .dramReady => true
  | .deviceReady => true
  | .tripPowerOff => true
  | .ditherChip => true
  | .commitEffect => true
  | .deferredCopy => true
  | .sourceLoss => true
  | .sourceReturn => true
  | .holdMaxExpiry => true
  | .esmcSend => true
  | .ppsOutEdge => true
  | .spill => true
  | .pfFlr => true
  | .smbusBlockRead => true
  | .commandTake => true
  | .getInfo => true
  | .setDevnum => true
  | .fnAssign => true
  | .enable => true
  | .reset => true
  | .lcAdvance => true
  | .keyInstall => true
  | .fwUpdate => true
  | .fwSelect => true
  | .grantDirect => true
  | .revokeDirect => true
  | .timeSet => true
  | .ppsLabel => true
  | .freqTrim => true
  | .timeSrc => true
  | .ptpAddr => true
  | .timeStepBack => true
  | .ctCfg => true
  | .timeStatus => true
  | .msWrite => true
  | .msRead => true
  | .msCommit => true
  | .strmArm => true
  | .strmRearm => true
  | .strmDisarm => true
  | .copy => true
  | .scrubCfg => true
  | .poolCfg => true
  | .listPlace => true
  | .listCancel => true
  | .engQuery => true
  | .engCfg => true
  | .rslotInstall => true
  | .resWrite => true
  | .resRead => true
  | .curveWrite => true
  | .curveRead => true
  | .gainsetWrite => true
  | .lockCfg => true
  | .acquire => true
  | .tileCfg => true
  | .rdwkCfg => true
  | .ltabWrite => true
  | .ltabRead => true
  | .lsaThr => true
  | .commission => true
  | .combReadmit => true
  | .lsaQuery => true
  | .auxCfg => true
  | .auxCode => true
  | .auxPwrup => true
  | .madcHost => true
  | .madcTriggerCmd => true
  | .madcRing => true
  | .thmRead => true
  | .thmLimits => true
  | .thmSet => true
  | .fhQuad => true
  | .flowWrite => true
  | .excRing => true
  | .timingPins => true
  | .tgFreeze => true
  | .tgCfg => true
  | .tgClass => true
  | .tgClscfg => true
  | .logRead => true
  | .eventSub => true
  | .inject => true
  | .captureRead => true
  | .hinjBind => true
  | .tgTest => true
  | .regRead => true
  | .info => true
  | .v1Reset => true
  | .rdreg => true
  | .wrreg => true
  | .run => true
  | .temp => true
  | .ltwr => true
  | .ltrd => true
  | .recal => true
  | .logrd => true
  | .lmode => true
  | .flashWriteComplete => true
  | .lcZeroingComplete => true
  | .vddIoLoss => true

end Sys2Proof
end

