-- ==== Sys2Proof/Machine/Settle.lean ====
section
/-!
DEFINITION. The frame every command runs in: what follows from the state at the end of each command, the guards of
events, and `run`.
-/
namespace Sys2Proof.Machine

/-! ### What follows at the end of a command -/

/-- ALERT_N is asserted (R367, R418). -/
def Dev.alertNow (d : Dev) : Bool :=
  d.th.latched || d.th.sensors.any (fun x => x.2.throt || x.2.shut)
    || (d.cp.powered && (d.mb 7).intStat &&& (d.mb 7).intEn != 0#5)

/-- PPS_OUT is high: within 100 ms of its last rising edge, while driven (R409). -/
def Dev.ppsHigh (d : Dev) : Bool :=
  d.cp.powered && d.rf .TL_CFG 13 1 = 1 && d.timeLocked && (match d.tl.ppsEdge with
    | some t => decide (d.time < t + 196608000)
    | none => false)

/-- The pins as the state drives them. -/
def Dev.setPins (d : Dev) : Dev :=
  { d with cp := { d.cp with
      alert := d.alertNow, therm := d.th.tripped.isSome || d.th.latched, ppsOut := d.ppsHigh } }

/-- The pool's watchdog, FENCEs whose work is done, MBX6's events and the pins follow from the state. -/
@[irreducible] def Dev.settle (d : Dev) : Dev :=
  ((upTo 32).foldl (fun (d : Dev) e => d.fenceGo e) d.watchPool).forwardEvents.setPins

/-- The end of a command that began in `d0` and has brought the device to `d`: what follows from the state, its TLPs taken to
Tollgate 52, and the changes of memory it collected made in the memory it found. -/
def Dev.finish (d0 d : Dev) : Dev :=
  let x := d.settle.sendTlps
  { x with mem := commitOps x.wr d0.mem, wr := [] }

/-- The state after a command with effect `f`. -/
def State.after (s : State) (f : Dev → Dev) : State := { s with dev := s.dev.finish (f s.dev) }

/-- A command with effect `f`; one that is not well formed names nothing the device has, and has no effect (log entry 144). -/
def run (i : Instr) (s : State) (f : Dev → Dev) : Host.Outcome State Fault Refusal :=
  .next (s.after (if i.wellFormed then f else id))

/-- The effect outside the always-on domain: none while the device is without power (R374, R437). -/
def powered (f : Dev → Dev) (d : Dev) : Dev := if d.cp.powered then f d else d

/-! ### Guards of events -/

/-- COEF_REWRITE: the CP rewrites the word that failed (R461). -/
def Dev.coefRewrite (d : Dev) (p : Nat) : Dev :=
  d.modPt p (fun x => if x.coefBad.isSome then { x with coefAt := some d.time } else x)

/-- A task word whose read of engine SRAM may find a double-bit error (R460). -/
def Dev.taskOrUe (d : Dev) (e op : Nat) (ue : Option Nat) : Dev :=
  match ue with
  | none => d.taskRow e op
  | some off => if (d.eng e).run.isSome then (d.taskRow e op).sramUe e off else d

/-- STREAM_REQUEST_ISSUE: a READ requests its next element; a WRITE to another device sends a transfer. -/
def Dev.streamIssue (d : Dev) (n : Nat) : Dev :=
  let c := d.ctx n
  if !c.moves then d
  else if c.desc.kind = 0 then d.readIssue n
  else if c.desc.kind = 1 && !d.isLocal (c.desc.addr c.issued) then d.writeRemote n
  else d

/-- STREAM_DATA_ARRIVAL for a READ of this device's memory. -/
def Dev.streamArrival (d : Dev) (n : Nat) (cache : Option Nat) : Dev :=
  let c := d.ctx n
  if c.moves && c.desc.kind = 0 then (d.cacheErr n cache).readArrive n else d

/-- STREAM_WRITE_COMPLETE for a WRITE to this device's memory. -/
def Dev.streamWritten (d : Dev) (n : Nat) : Dev :=
  let c := d.ctx n
  if c.moves && c.desc.kind = 1 && d.isLocal (c.desc.addr c.prog) then d.writeLocal n else d

/-- STREAM_WAIT_RESUME; a FORK_RX also reports its free space to a source on a peer (R402). -/
def Dev.streamResume (d : Dev) (n : Nat) : Dev :=
  let d := d.resumeCtx n
  if (d.ctx n).desc.kind = 2 && (d.ctx n).moves then d.giveCredit n else d

/-- STREAM_PASS_END. -/
def Dev.streamPassEnd (d : Dev) (n : Nat) : Dev :=
  if (d.ctx n).moves && d.passDone n then d.endPass n else d

/-- REARM_EFFECT. -/
def Dev.rearmEffect (d : Dev) (n : Nat) : Dev :=
  let c := d.ctx n
  match c.rearm with
  | some b => if c.st = .passEnd then d.rearmNow n b else d
  | none => d

/-- SPILL: the condition of the watchdog has held for WDOG µs; after it acts the span begins again (R218). -/
def Dev.spillNow (d : Dev) : Dev :=
  let w := d.rf .STRM_CFG 0 16
  match d.str.wdogFrom with
  | some t =>
    if w = 0 || d.time < t + usTc w then d
    else Dev.spill { d with str := { d.str with wdogFrom := some d.time } }
  | none => d

/-- SPILL_READBACK: the pool has room again for what was spilled. -/
def Dev.spillReadback (d : Dev) (n : Nat) : Dev :=
  let c := d.ctx n
  let sz := (d.spilledOf n).foldl (fun s p => s + p.2) 0
  if c.st = .spilled && sz ≤ d.sharedFree + (c.desc.resv * 4096 - c.pool) then d.readBack n else d

/-- LINK_DOWN. -/
def Dev.linkDown (d : Dev) (peer : Bool) (p reason : Nat) : Dev :=
  if peer then d.peerLinkDown p reason else d.fhLinkDown p reason

/-- SAFE_POINT_REACHED: an engine, a physical tile, or a port, whose ENABLE commands then end. -/
def Dev.safePoint (d : Dev) (kind i : Nat) : Dev :=
  if kind = 0 then d.engineSafe i
  else if kind = 1 then d.tileSafe i
  else
    let st := d.blockState 2 i
    let d := if i < 0x20 then d.fhSafe (i - 0x10) else d.peerSafe (i - 0x20)
    if st = 2 then d.endJobs (enableJob 2 i false) stOk
    else if st = 3 then (d.endJobs (enableJob 2 i false) stOk).endJobs (enableJob 2 i true) stOk
    else d

end Sys2Proof.Machine
end

