-- ==== Sys2Proof/Machine/ExecCmdDebug.lean ====
section
/-!
DEFINITION. The meaning of each row: Roadbook commands of the log and debug groups, and v1 commands.
-/
namespace Sys2Proof.Machine

/-- LOG_READ (R465): Returns log entries by sequence. -/
def execLogRead (s : State) : Host.Outcome State Fault Refusal :=
  run .logRead s (powered (fun d => d.command false 0x0D00 Dev.cmdLogRead))

/-- EVENT_SUB (R430): Sets the mailbox's event class mask. -/
def execEventSub (s : State) : Host.Outcome State Fault Refusal :=
  run .eventSub s (powered (fun d => d.command false 0x0D01 Dev.cmdEventSub))

/-- INJECT (R305): Starts test injection and capture on an unbound tile's ring. -/
def execInject (s : State) : Host.Outcome State Fault Refusal :=
  run .inject s (powered (fun d => d.command false 0x0E00 Dev.cmdInject))

/-- CAPTURE_READ (R306): Returns capture samples. -/
def execCaptureRead (s : State) : Host.Outcome State Fault Refusal :=
  run .captureRead s (powered (fun d => d.command false 0x0E01 Dev.cmdCaptureRead))

/-- HINJ_BIND (R323): Binds the heater injection queue to a ring. -/
def execHinjBind (s : State) : Host.Outcome State Fault Refusal :=
  run .hinjBind s (powered (fun d => d.command false 0x0E02 Dev.cmdHinjBind))

/-- TG_TEST (R264): Puts named Tollgates in QUOTA for a test. -/
def execTgTest (s : State) : Host.Outcome State Fault Refusal :=
  run .tgTest s (powered (fun d => d.command false 0x0E03 Dev.cmdTgTest))

/-- REG_READ (R426): Reads registers with their read effects. -/
def execRegRead (s : State) : Host.Outcome State Fault Refusal :=
  run .regRead s (powered (fun d => d.command false 0x0E04 Dev.cmdRegRead))

/-- INFO (R428): v1 GET_INFO, first 8 bytes. -/
def execInfo (s : State) : Host.Outcome State Fault Refusal :=
  run .info s (powered (fun d => d.command true 0x01 Dev.cmdInfo))

/-- V1_RESET (R428): v1 RESET. -/
def execV1Reset (s : State) : Host.Outcome State Fault Refusal :=
  run .v1Reset s (powered (fun d => d.command true 0x02 Dev.cmdReset))

/-- RDREG (R428): v1 register read. -/
def execRdreg (s : State) : Host.Outcome State Fault Refusal :=
  run .rdreg s (powered (fun d => d.command true 0x03 Dev.cmdRegRead))

/-- WRREG (R428): v1 register write where a host write would reach. -/
def execWrreg (s : State) : Host.Outcome State Fault Refusal :=
  run .wrreg s (powered (fun d => d.command true 0x04 Dev.cmdWrreg))

/-- RUN (R428): v1 immediate list placement. -/
def execRun (s : State) : Host.Outcome State Fault Refusal :=
  run .run s (powered (fun d => d.command true 0x05 Dev.cmdRun))

/-- TEMP (R428): v1 THM_READ. -/
def execTemp (s : State) : Host.Outcome State Fault Refusal :=
  run .temp s (powered (fun d => d.command true 0x06 Dev.cmdThmRead))

/-- LTWR (R428): v1 legacy table write. -/
def execLtwr (s : State) : Host.Outcome State Fault Refusal :=
  run .ltwr s (powered (fun d => d.command true 0x07 Dev.cmdLtabWrite))

/-- LTRD (R428): v1 legacy table read. -/
def execLtrd (s : State) : Host.Outcome State Fault Refusal :=
  run .ltrd s (powered (fun d => d.command true 0x08 Dev.cmdLtabRead))

/-- RECAL (R428): v1 change of RECAL. -/
def execRecal (s : State) : Host.Outcome State Fault Refusal :=
  run .recal s (powered (fun d => d.command true 0x09 Dev.cmdRecal))

/-- LOGRD (R428): v1 log read. -/
def execLogrd (s : State) : Host.Outcome State Fault Refusal :=
  run .logrd s (powered (fun d => d.command true 0x0A Dev.cmdLogRead))

/-- LMODE (R428): v1 change of lock mode. -/
def execLmode (s : State) : Host.Outcome State Fault Refusal :=
  run .lmode s (powered (fun d => d.command true 0x0B Dev.cmdLmode))

end Sys2Proof.Machine
end

