-- ==== Sys2Proof/Machine/ExecCmdDevice.lean ====
section
/-!
DEFINITION. The meaning of each row: Roadbook commands of the device and life-cycle group.
-/
namespace Sys2Proof.Machine

/-- GET_INFO (R426): Returns life-cycle, DEVNUM, firmware and readiness. -/
def execGetInfo (s : State) : Host.Outcome State Fault Refusal :=
  run .getInfo s (powered (fun d => d.command false 0x0100 Dev.cmdGetInfo))

/-- SET_DEVNUM (R29): Sets DEVNUM once and repeats the peer exchange. -/
def execSetDevnum (s : State) : Host.Outcome State Fault Refusal :=
  run .setDevnum s (powered (fun d => d.command false 0x0101 Dev.cmdSetDevnum))

/-- FN_ASSIGN (R412): Assigns engines, contexts, Milestone range and BAR2 to a function. -/
def execFnAssign (s : State) : Host.Outcome State Fault Refusal :=
  run .fnAssign s (powered (fun d => d.command false 0x0102 Dev.cmdFnAssign))

/-- ENABLE (R358): Disables or enables an engine, logical tile or port. -/
def execEnable (s : State) : Host.Outcome State Fault Refusal :=
  run .enable s (powered (fun d => d.command false 0x0103 Dev.cmdEnable))

/-- RESET (R441): Orders a warm reset, optionally keeping the log. -/
def execReset (s : State) : Host.Outcome State Fault Refusal :=
  run .reset s (powered (fun d => d.command false 0x0104 Dev.cmdReset))

/-- LC_ADVANCE (R455): Changes life-cycle state after authorisation, zeroing DRAM and burning fuses. -/
def execLcAdvance (s : State) : Host.Outcome State Fault Refusal :=
  run .lcAdvance s (powered (fun d => d.command false 0x0105 Dev.cmdLcAdvance))

/-- KEY_INSTALL (R454): Installs a key digest in a key slot. -/
def execKeyInstall (s : State) : Host.Outcome State Fault Refusal :=
  run .keyInstall s (powered (fun d => d.command false 0x0106 Dev.cmdKeyInstall))

/-- FW_UPDATE (R426): Writes and verifies a firmware image into a slot. -/
def execFwUpdate (s : State) : Host.Outcome State Fault Refusal :=
  run .fwUpdate s (powered (fun d => d.command false 0x0107 Dev.cmdFwUpdate))

/-- FW_SELECT (R426): Selects the boot slot for the next boot. -/
def execFwSelect (s : State) : Host.Outcome State Fault Refusal :=
  run .fwSelect s (powered (fun d => d.command false 0x0108 Dev.cmdFwSelect))

/-- GRANT_DIRECT (R434): Opens a direct register write window. -/
def execGrantDirect (s : State) : Host.Outcome State Fault Refusal :=
  run .grantDirect s (powered (fun d => d.command false 0x0109 Dev.cmdGrantDirect))

/-- REVOKE_DIRECT (R434): Closes a direct register window. -/
def execRevokeDirect (s : State) : Host.Outcome State Fault Refusal :=
  run .revokeDirect s (powered (fun d => d.command false 0x010A Dev.cmdRevokeDirect))

end Sys2Proof.Machine
end

