-- ==== Sys2Proof/Machine/ExecCmdIo.lean ====
section
/-!
DEFINITION. The meaning of each row: Roadbook commands of the converter, thermal, port and Tollgate groups.
-/
namespace Sys2Proof.Machine

/-- AUX_CFG (R320): Configures a host AUX channel. -/
def execAuxCfg (s : State) : Host.Outcome State Fault Refusal :=
  run .auxCfg s (powered (fun d => d.command false 0x0900 Dev.cmdAuxCfg))

/-- AUX_CODE (R426): Writes a static code or queues codes. -/
def execAuxCode (s : State) : Host.Outcome State Fault Refusal :=
  run .auxCode s (powered (fun d => d.command false 0x0901 Dev.cmdAuxCode))

/-- AUX_PWRUP (R318): Writes a channel's power-up record. -/
def execAuxPwrup (s : State) : Host.Outcome State Fault Refusal :=
  run .auxPwrup s (powered (fun d => d.command false 0x0902 Dev.cmdAuxPwrup))

/-- MADC_HOST (R332): Programs host entries of converter B. -/
def execMadcHost (s : State) : Host.Outcome State Fault Refusal :=
  run .madcHost s (powered (fun d => d.command false 0x0903 Dev.cmdMadcHost))

/-- MADC_TRIGGER_CMD (R328): Raises a HOST trigger in named regions. -/
def execMadcTriggerCmd (s : State) : Host.Outcome State Fault Refusal :=
  run .madcTriggerCmd s (powered (fun d => d.command false 0x0904 Dev.cmdMadcTrigger))

/-- MADC_RING (R333): Configures a region's record ring. -/
def execMadcRing (s : State) : Host.Outcome State Fault Refusal :=
  run .madcRing s (powered (fun d => d.command false 0x0905 Dev.cmdMadcRing))

/-- THM_READ (R426): Returns all temperatures, steps and trip state. -/
def execThmRead (s : State) : Host.Outcome State Fault Refusal :=
  run .thmRead s (powered (fun d => d.command false 0x0A00 Dev.cmdThmRead))

/-- THM_LIMITS (R377): Sets a class's warning and throttle thresholds. -/
def execThmLimits (s : State) : Host.Outcome State Fault Refusal :=
  run .thmLimits s (powered (fun d => d.command false 0x0A01 Dev.cmdThmLimits))

/-- THM_SET (R426): Writes THM_SLEWrg or THM_CFG. -/
def execThmSet (s : State) : Host.Outcome State Fault Refusal :=
  run .thmSet s (powered (fun d => d.command false 0x0A02 Dev.cmdThmSet))

/-- FH_QUAD (R383): Sets a fronthaul quad's mode. -/
def execFhQuad (s : State) : Host.Outcome State Fault Refusal :=
  run .fhQuad s (powered (fun d => d.command false 0x0B00 Dev.cmdFhQuad))

/-- FLOW_WRITE (R388): Writes flow table entries. -/
def execFlowWrite (s : State) : Host.Outcome State Fault Refusal :=
  run .flowWrite s (powered (fun d => d.command false 0x0B01 Dev.cmdFlowWrite))

/-- EXC_RING (R392): Configures the exception ring. -/
def execExcRing (s : State) : Host.Outcome State Fault Refusal :=
  run .excRing s (powered (fun d => d.command false 0x0B02 Dev.cmdExcRing))

/-- MOD_READ (R407): Reads module memory. -/
def execModRead (data : Option (List Byte)) (s : State) : Host.Outcome State Fault Refusal :=
  run (.modRead data) s (powered (fun d => d.command false 0x0B03 (fun d c => d.cmdModRead c data)))

/-- MOD_WRITE (R407): Writes module memory. -/
def execModWrite (ok : Bool) (s : State) : Host.Outcome State Fault Refusal :=
  run (.modWrite ok) s (powered (fun d => d.command false 0x0B04 (fun d c => d.cmdModWrite c ok)))

/-- TIMING_PINS (R409): Sets PPS_OUT enable and pin delays. -/
def execTimingPins (s : State) : Host.Outcome State Fault Refusal :=
  run .timingPins s (powered (fun d => d.command false 0x0B05 Dev.cmdTimingPins))

/-- TG_FREEZE (R269): Sets or clears a Tollgate freeze. -/
def execTgFreeze (s : State) : Host.Outcome State Fault Refusal :=
  run .tgFreeze s (powered (fun d => d.command false 0x0C00 Dev.cmdTgFreeze))

/-- TG_CFG (R264): Writes Tollgate configuration and lock watchdog. -/
def execTgCfg (s : State) : Host.Outcome State Fault Refusal :=
  run .tgCfg s (powered (fun d => d.command false 0x0C01 Dev.cmdTgCfg))

/-- TG_CLASS (R258): Pins or unpins a requester's class. -/
def execTgClass (s : State) : Host.Outcome State Fault Refusal :=
  run .tgClass s (powered (fun d => d.command false 0x0C02 Dev.cmdTgClass))

/-- TG_CLSCFG (R265): Sets calibration lift margin and HOT. -/
def execTgClscfg (s : State) : Host.Outcome State Fault Refusal :=
  run .tgClscfg s (powered (fun d => d.command false 0x0C03 Dev.cmdTgClscfg))

end Sys2Proof.Machine
end

