-- ==== Sys2Proof/Machine/ExecCmdTiles.lean ====
section
/-!
DEFINITION. The meaning of each row: Roadbook commands of the tile and light groups.
-/
namespace Sys2Proof.Machine

/-- CURVE_WRITE (R77): Installs or stages a curve image. -/
def execCurveWrite (s : State) : Host.Outcome State Fault Refusal :=
  run .curveWrite s (powered (fun d => d.command false 0x0700 Dev.cmdCurveWrite))

/-- CURVE_READ (R426): Returns an installed curve. -/
def execCurveRead (s : State) : Host.Outcome State Fault Refusal :=
  run .curveRead s (powered (fun d => d.command false 0x0701 Dev.cmdCurveRead))

/-- GAINSET_WRITE (R290): Installs or stages a gain-set image. -/
def execGainsetWrite (s : State) : Host.Outcome State Fault Refusal :=
  run .gainsetWrite s (powered (fun d => d.command false 0x0702 Dev.cmdGainsetWrite))

/-- LOCK_CFG (R275): Writes a logical tile's or spare's lock configuration. -/
def execLockCfg (s : State) : Host.Outcome State Fault Refusal :=
  run .lockCfg s (powered (fun d => d.command false 0x0703 Dev.cmdLockCfg))

/-- ACQUIRE (R464): Runs a full acquisition of an unbound tile. -/
def execAcquire (s : State) : Host.Outcome State Fault Refusal :=
  run .acquire s (powered (fun d => d.command false 0x0704 Dev.cmdAcquire))

/-- TILE_CFG (R64): Writes a logical tile's TILE_CFG. -/
def execTileCfg (s : State) : Host.Outcome State Fault Refusal :=
  run .tileCfg s (powered (fun d => d.command false 0x0705 Dev.cmdTileCfg))

/-- RDWK_CFG (R350): Sets a region's roadworks mode, lead, rotation and window. -/
def execRdwkCfg (s : State) : Host.Outcome State Fault Refusal :=
  run .rdwkCfg s (powered (fun d => d.command false 0x0706 Dev.cmdRdwkCfg))

/-- LTAB_WRITE (R427): Installs or stages a legacy table. -/
def execLtabWrite (s : State) : Host.Outcome State Fault Refusal :=
  run .ltabWrite s (powered (fun d => d.command false 0x0707 Dev.cmdLtabWrite))

/-- LTAB_READ (R427): Writes a tile's legacy table to memory. -/
def execLtabRead (s : State) : Host.Outcome State Fault Refusal :=
  run .ltabRead s (powered (fun d => d.command false 0x0708 Dev.cmdLtabRead))

/-- LSA_THR (R340): Sets a stack's fade thresholds. -/
def execLsaThr (s : State) : Host.Outcome State Fault Refusal :=
  run .lsaThr s (powered (fun d => d.command false 0x0800 Dev.cmdLsaThr))

/-- COMMISSION (R337): Writes commissioning line powers. -/
def execCommission (s : State) : Host.Outcome State Fault Refusal :=
  run .commission s (powered (fun d => d.command false 0x0801 Dev.cmdCommission))

/-- COMB_READMIT (R345): Re-admits a degraded or failed comb as spare. -/
def execCombReadmit (s : State) : Host.Outcome State Fault Refusal :=
  run .combReadmit s (powered (fun d => d.command false 0x0802 Dev.cmdCombReadmit))

/-- LSA_QUERY (R426): Returns comb status and line values. -/
def execLsaQuery (s : State) : Host.Outcome State Fault Refusal :=
  run .lsaQuery s (powered (fun d => d.command false 0x0803 Dev.cmdLsaQuery))

end Sys2Proof.Machine
end

