-- ==== Sys2Proof/Machine/ExecCmdTime.lean ====
section
/-!
DEFINITION. The meaning of each row: Roadbook commands of the time and Milestone groups.
-/
namespace Sys2Proof.Machine

/-- TIME_SET (R230): Loads device time under HOST as a set or step. -/
def execTimeSet (s : State) : Host.Outcome State Fault Refusal :=
  run .timeSet s (powered (fun d => d.command false 0x0200 Dev.cmdTimeSet))

/-- PPS_LABEL (R229): Sets the value of the next PPS edge. -/
def execPpsLabel (s : State) : Host.Outcome State Fault Refusal :=
  run .ppsLabel s (powered (fun d => d.command false 0x0201 Dev.cmdPpsLabel))

/-- FREQ_TRIM (R226): Trims the HOST-source frequency. -/
def execFreqTrim (s : State) : Host.Outcome State Fault Refusal :=
  run .freqTrim s (powered (fun d => d.command false 0x0202 Dev.cmdFreqTrim))

/-- TIME_SRC (R226): Selects the time source and its parameters. -/
def execTimeSrc (s : State) : Host.Outcome State Fault Refusal :=
  run .timeSrc s (powered (fun d => d.command false 0x0203 Dev.cmdTimeSrc))

/-- PTP_ADDR (R426): Sets PTP own and master IP addresses. -/
def execPtpAddr (s : State) : Host.Outcome State Fault Refusal :=
  run .ptpAddr s (powered (fun d => d.command false 0x0204 Dev.cmdPtpAddr))

/-- TIME_STEP_BACK (R487): Steps device time backward when no placement or valid active entry exists. -/
def execTimeStepBack (s : State) : Host.Outcome State Fault Refusal :=
  run .timeStepBack s (powered (fun d => d.command false 0x0205 Dev.cmdTimeStepBack))

/-- CT_CFG (R237): Configures, enables or disables a carrier timeline. -/
def execCtCfg (s : State) : Host.Outcome State Fault Refusal :=
  run .ctCfg s (powered (fun d => d.command false 0x0206 Dev.cmdCtCfg))

/-- TIME_STATUS (R426): Returns timeline status, offset and time. -/
def execTimeStatus (s : State) : Host.Outcome State Fault Refusal :=
  run .timeStatus s (powered (fun d => d.command false 0x0207 Dev.cmdTimeStatus))

/-- MS_WRITE (R240): Writes shadow Milestone entries in the mailbox's domain. -/
def execMsWrite (s : State) : Host.Outcome State Fault Refusal :=
  run .msWrite s (powered (fun d => d.command false 0x0300 Dev.cmdMsWrite))

/-- MS_READ (R426): Reads shadow or active Milestone entries. -/
def execMsRead (s : State) : Host.Outcome State Fault Refusal :=
  run .msRead s (powered (fun d => d.command false 0x0301 Dev.cmdMsRead))

/-- MS_COMMIT (R244): Commits the shadow bank at the next slot boundary of a timeline. -/
def execMsCommit (s : State) : Host.Outcome State Fault Refusal :=
  run .msCommit s (powered (fun d => d.command false 0x0302 Dev.cmdMsCommit))

end Sys2Proof.Machine
end

