-- ==== Sys2Proof/Machine/ExecCmdWork.lean ====
section
/-!
DEFINITION. The meaning of each row: Roadbook commands of the stream, list and residency groups.
-/
namespace Sys2Proof.Machine

/-- STRM_ARM (R203): Arms any stream context from a descriptor. -/
def execStrmArm (s : State) : Host.Outcome State Fault Refusal :=
  run .strmArm s (powered (fun d => d.command false 0x0400 Dev.cmdStrmArm))

/-- STRM_REARM (R159): Re-arms a persistent context with a new base. -/
def execStrmRearm (s : State) : Host.Outcome State Fault Refusal :=
  run .strmRearm s (powered (fun d => d.command false 0x0401 Dev.cmdStrmRearm))

/-- STRM_DISARM (R426): Stops a context after the element in flight. -/
def execStrmDisarm (s : State) : Host.Outcome State Fault Refusal :=
  run .strmDisarm s (powered (fun d => d.command false 0x0402 Dev.cmdStrmDisarm))

/-- COPY (R380): Copies between host and device memory. -/
def execCopy (s : State) : Host.Outcome State Fault Refusal :=
  run .copy s (powered (fun d => d.command false 0x0403 Dev.cmdCopy))

/-- COPY_COMPLETE (R424): The data movement of an async COPY ends and its final status is reported, by ASYNC_DONE or
by releasing the held mailbox. -/
def execCopyComplete (data : List Byte) (ok : Bool) (s : State) : Host.Outcome State Fault Refusal :=
  run (.copyComplete data ok) s (powered (fun d => d.copyDone data ok))

/-- SCRUB_CFG (R197): Configures the patrol scrubber. -/
def execScrubCfg (s : State) : Host.Outcome State Fault Refusal :=
  run .scrubCfg s (powered (fun d => d.command false 0x0404 Dev.cmdScrubCfg))

/-- POOL_CFG (R200): Sets pool size, watchdog and spill area. -/
def execPoolCfg (s : State) : Host.Outcome State Fault Refusal :=
  run .poolCfg s (powered (fun d => d.command false 0x0405 Dev.cmdPoolCfg))

/-- LIST_PLACE (R134): Places a list on engines with start, deadline and biases. -/
def execListPlace (s : State) : Host.Outcome State Fault Refusal :=
  run .listPlace s (powered (fun d => d.command false 0x0500 Dev.cmdListPlace))

/-- LIST_CANCEL (R426): Removes placements and optionally stops running lists. -/
def execListCancel (s : State) : Host.Outcome State Fault Refusal :=
  run .listCancel s (powered (fun d => d.command false 0x0501 Dev.cmdListCancel))

/-- ENG_QUERY (R426): Returns engine status, SEQ and PC. -/
def execEngQuery (s : State) : Host.Outcome State Fault Refusal :=
  run .engQuery s (powered (fun d => d.command false 0x0502 Dev.cmdEngQuery))

/-- ENG_CFG (R426): Sets an engine's ENG_CFG and skip threshold. -/
def execEngCfg (s : State) : Host.Outcome State Fault Refusal :=
  run .engCfg s (powered (fun d => d.command false 0x0503 Dev.cmdEngCfg))

/-- RSLOT_INSTALL (R186): Installs a resident slot of tiles. -/
def execRslotInstall (s : State) : Host.Outcome State Fault Refusal :=
  run .rslotInstall s (powered (fun d => d.command false 0x0600 Dev.cmdRslotInstall))

/-- RES_WRITE (R187): Writes residency table entries. -/
def execResWrite (s : State) : Host.Outcome State Fault Refusal :=
  run .resWrite s (powered (fun d => d.command false 0x0601 Dev.cmdResWrite))

/-- RES_READ (R187): Reads residency table entries. -/
def execResRead (s : State) : Host.Outcome State Fault Refusal :=
  run .resRead s (powered (fun d => d.command false 0x0602 Dev.cmdResRead))

end Sys2Proof.Machine
end

