-- ==== Sys2Proof/Machine/ExecConv.lean ====
section
/-!
DEFINITION. The meaning of each row: converters, light, roadworks and safe points (chapters 11 and 12).
-/
namespace Sys2Proof.Machine

/-- AUX_SAMPLE_INSTANT (R319): At a sample instant, running channels update, take queue codes, underflow or raise
low-water. -/
def execAuxSampleInstant (rg ch : Nat) (s : State) : Host.Outcome State Fault Refusal :=
  run (.auxSampleInstant rg ch) s (powered (fun d => d.auxSample rg ch))

/-- MADC_ENTRY_COMPLETE (R326): A monitor ADC entry completes: result and record written, next entry or run. -/
def execMadcEntryComplete (rg c : Nat) (raws : List Nat) (tile : Nat) (s : State) :
    Host.Outcome State Fault Refusal :=
  run (.madcEntryComplete rg c raws tile) s (powered (fun d => d.madcComplete rg c raws tile))

/-- MADC_ROUND_START (R327): A regular round starts at its period, with overrun counting. -/
def execMadcRoundStart (rg c : Nat) (s : State) : Host.Outcome State Fault Refusal :=
  run (.madcRoundStart rg c) s (powered (fun d => d.madcRoundStart rg c))

/-- MADC_TRIGGER (R329): A trigger aborts the regular entry and runs the injected sequence, or is pending, merged or
discarded. -/
def execMadcTrigger (rg c b : Nat) (s : State) : Host.Outcome State Fault Refusal :=
  run (.madcTrigger rg c b) s (powered (fun d => d.madcTrigger rg c b))

/-- LINE_MONITOR_ROUND (R340): The CP judges line powers each round and sets or clears fade levels. -/
def execLineMonitorRound (sk : Nat) (powers : List Int) (s : State) : Host.Outcome State Fault Refusal :=
  run (.lineMonitorRound sk powers) s (powered (fun d => d.lineRound sk powers))

/-- LOSS_DETECTOR (R340): The comb's loss detector fires, forcing a detour. -/
def execLossDetector (sk : Nat) (s : State) : Host.Outcome State Fault Refusal :=
  run (.lossDetector sk) s (powered (fun d => d.lossDetector sk))

/-- DETOUR_VERIFY (R343): Verification after the equaliser passes or fails the detour. -/
def execDetourVerify (sk : Nat) (powers : List Int) (eq : List Nat) (s : State) : Host.Outcome State Fault Refusal :=
  run (.detourVerify sk powers eq) s (powered (fun d => d.detourVerify sk powers eq))

/-- DETOUR_GAP_CLOSE (R343): WINLEN after opening, the gap closes and tiles resume. -/
def execDetourGapClose (sk : Nat) (s : State) : Host.Outcome State Fault Refusal :=
  run (.detourGapClose sk) s (powered (fun d => d.gapClose sk))

/-- DETOUR_WAIT (R342): An armed detour has waited 1 s and DETOUR_WAIT is raised. -/
def execDetourWait (sk : Nat) (s : State) : Host.Outcome State Fault Refusal :=
  run (.detourWait sk) s (powered (fun d => d.detourWait sk))

/-- COMB_STANDBY (R339): A powered comb reaches STANDBY as its TEC settles. -/
def execCombStandby (sk c : Nat) (ok : Bool) (s : State) : Host.Outcome State Fault Refusal :=
  run (.combStandby sk c ok) s (powered (fun d => d.combStandby sk c ok))

/-- COMB_ALIGNED (R339): The spare comb reaches ALIGNED; a waiting forced switch proceeds. -/
def execCombAligned (sk c : Nat) (grid : Option (Int × Int)) (lines : List Int) (s : State) :
    Host.Outcome State Fault Refusal :=
  run (.combAligned sk c grid lines) s (powered (fun d => d.combAligned sk c grid lines))

/-- ALIGNMENT_CHECK (R339): Every 10 ms the CP checks and corrects spare alignment. -/
def execAlignmentCheck (sk : Nat) (grid : (Int × Int)) (s : State) : Host.Outcome State Fault Refusal :=
  run (.alignmentCheck sk grid) s (powered (fun d => d.alignCheck sk grid))

/-- ROADWORKS_AUTO_FIRING (R350): An internal AUTO roadworks firing occurs for a region. -/
def execRoadworksAutoFiring (rg : Nat) (s : State) : Host.Outcome State Fault Refusal :=
  run (.roadworksAutoFiring rg) s (powered (fun d => d.rdwkAutoRow rg))

/-- SPARE_PREPARE (R353): LEAD before an expected firing the spare soft-starts to NEXT's operating point. -/
def execSparePrepare (rg : Nat) (s : State) : Host.Outcome State Fault Refusal :=
  run (.sparePrepare rg) s (powered (fun d => d.sparePrepare rg))

/-- ROADWORKS_DRAIN_END (R119): In-flight work on the old tile drains and the spare loads from the shadow. -/
def execRoadworksDrainEnd (rg : Nat) (s : State) : Host.Outcome State Fault Refusal :=
  run (.roadworksDrainEnd rg) s (powered (fun d => d.drainEnd rg))

/-- SWAP_LOAD_DONE (R119): The spare's load ends; map and spare entries update atomically. -/
def execSwapLoadDone (rg : Nat) (s : State) : Host.Outcome State Fault Refusal :=
  run (.swapLoadDone rg) s (powered (fun d => d.swapLoaded rg))

/-- SWAP_COMPLETE (R119): Feed-forward is taken and the tile returns to IDLE or ACTIVE. -/
def execSwapComplete (rg : Nat) (s : State) : Host.Outcome State Fault Refusal :=
  run (.swapComplete rg) s (powered (fun d => d.swapDone rg))

/-- CALIBRATION_STEP (R355): A calibration step of the freed tile completes and the next begins. -/
def execCalibrationStep (rg : Nat) (ok : Bool) (vals : List (Nat × Int)) (curves : List (Nat × List (Int × Int))) (s : State) :
    Host.Outcome State Fault Refusal :=
  run (.calibrationStep rg ok vals curves) s (powered (fun d => d.calStep rg ok vals curves))

/-- CALIBRATION_COMPLETE (R356): Calibration ends: staged images installed, the tile becomes the spare. -/
def execCalibrationComplete (rg : Nat) (s : State) : Host.Outcome State Fault Refusal :=
  run (.calibrationComplete rg) s (powered (fun d => d.calComplete rg))

/-- SAFE_POINT_REACHED (R358): A disabled block reaches its safe point; a pending enable starts it up. -/
def execSafePointReached (kind idx : Nat) (s : State) : Host.Outcome State Fault Refusal :=
  run (.safePointReached kind idx) s (powered (fun d => d.safePoint kind idx))

end Sys2Proof.Machine
end

