-- ==== Sys2Proof/Machine/ExecHost.lean ====
section
/-!
DEFINITION. The meaning of each row: the host port, registers and mailboxes (chapters 0, 14 and 15).
-/
namespace Sys2Proof.Machine

/-- HOST_BAR2_READ (R27): A host read through BAR2 of DRAM, engine SRAM or a reserved address. -/
def execHostBar2Read (fn off n : Nat) (ue cache : Option Nat) (s : State) : Host.Outcome State Fault Refusal :=
  run (.hostBar2Read fn off n ue cache) s (powered (fun d => d.bar2Read fn off n ue cache))

/-- HOST_BAR2_WRITE (R27): A host write through BAR2. -/
def execHostBar2Write (fn off : Nat) (data : List Byte) (cache : Option Nat) (s : State) :
    Host.Outcome State Fault Refusal :=
  run (.hostBar2Write fn off data cache) s (powered (fun d => d.bar2Write fn off data cache))

/-- HOST_ATOMIC (R379): A PCIe FetchAdd or CAS on DRAM completes. -/
def execHostAtomic (fn off : Nat) (cas : Bool) (val cmp : Nat) (s : State) : Host.Outcome State Fault Refusal :=
  run (.hostAtomic fn off cas val cmp) s (powered (fun d => d.bar2Atomic fn off cas val cmp))

/-- VF_FLR (R382): A VF function-level reset empties its mailbox and ends its BAR2 accesses. -/
def execVfFlr (v : Nat) (s : State) : Host.Outcome State Fault Refusal :=
  run (.vfFlr v) s (powered (fun d => d.vfFlr v))

/-- PF_FLR (R439): A PF function-level reset empties MBX0 and MBX5 and closes grant windows. -/
def execPfFlr (s : State) : Host.Outcome State Fault Refusal :=
  run .pfFlr s (powered (fun d => d.pfFlr))

/-- VF_ENABLE (R381): The host enables or disables the VFs, which fixes the VF BAR2 bases and makes FN_ASSIGN BAR2
changes refuse with STATE_CONFLICT while they are enabled. -/
def execVfEnable (on : Bool) (s : State) : Host.Outcome State Fault Refusal :=
  run (.vfEnable on) s (powered (fun d => d.vfEnable on))

/-- HOST_LINK_TRAINED (R379): The PCIe host link finishes training; if it settles below 64 GT/s ×16 it is operated,
logged and reported by a LINK_DEGRADED event. -/
def execHostLinkTrained (rate width : Nat) (s : State) : Host.Outcome State Fault Refusal :=
  run (.hostLinkTrained rate width) s (powered (fun d => d.hostTrained rate width))

/-- SMBUS_WINDOW_WRITE (R418): Block write code 0x10 writes MBX7's window. -/
def execSmbusWindowWrite (o : Nat) (data : List Byte) (pecOk : Bool) (s : State) : Host.Outcome State Fault Refusal :=
  run (.smbusWindowWrite o data pecOk) s (powered (fun d => d.smbusWrite o data pecOk))

/-- SMBUS_OFFSET_SET (R418): Block write code 0x11 sets the read offset. -/
def execSmbusOffsetSet (o : Nat) (pecOk : Bool) (s : State) : Host.Outcome State Fault Refusal :=
  run (.smbusOffsetSet o pecOk) s (powered (fun d => d.smbusOffset o pecOk))

/-- SMBUS_BLOCK_READ (R418): Block read returns 32 bytes of MBX7's window. -/
def execSmbusBlockRead (s : State) : Host.Outcome State Fault Refusal :=
  run .smbusBlockRead s (powered (fun d => d.smbusRead))

/-- BAD_WIDTH_ACCESS (R5): A BAR0 access not an aligned 32-bit word is ignored and logged. -/
def execBadWidthAccess (fn off : Nat) (isRead : Bool) (s : State) : Host.Outcome State Fault Refusal :=
  run (.badWidthAccess fn off isRead) s (powered (fun d => d.badWidth fn (bar0 fn off) isRead))

/-- REGISTER_WRITE (R433): A write to a register without its own row, reached or dropped by access rules. -/
def execRegisterWrite (fn off v : Nat) (s : State) : Host.Outcome State Fault Refusal :=
  run (.registerWrite fn off v) s (powered (fun d => d.hostWrite fn (bar0 fn off) v))

/-- LO_READ (R9): Reading a _LO half captures the upper half for that requester. -/
def execLoRead (fn off : Nat) (s : State) : Host.Outcome State Fault Refusal :=
  run (.loRead fn off) s (powered (fun d => d.hostRead fn (bar0 fn off)))

/-- HI_READ (R9): Reading a _HI half returns the captured or live upper half. -/
def execHiRead (fn off : Nat) (s : State) : Host.Outcome State Fault Refusal :=
  run (.hiRead fn off) s (powered (fun d => d.hostRead fn (bar0 fn off)))

/-- LO_WRITE (R9): Writing a _LO half holds it for the requester. -/
def execLoWrite (fn off v : Nat) (s : State) : Host.Outcome State Fault Refusal :=
  run (.loWrite fn off v) s (powered (fun d => d.hostWrite fn (bar0 fn off) v))

/-- HI_WRITE (R9): Writing a _HI half applies the 64-bit value. -/
def execHiWrite (fn off v : Nat) (s : State) : Host.Outcome State Fault Refusal :=
  run (.hiWrite fn off v) s (powered (fun d => d.hostWrite fn (bar0 fn off) v))

/-- RC_READ (R7): Reading a read-to-clear register returns and clears it. -/
def execRcRead (fn off : Nat) (s : State) : Host.Outcome State Fault Refusal :=
  run (.rcRead fn off) s (powered (fun d => d.hostRead fn (bar0 fn off)))

/-- W1C_WRITE (R7): Writing 1s clears write-1-to-clear bits. -/
def execW1cWrite (fn off v : Nat) (s : State) : Host.Outcome State Fault Refusal :=
  run (.w1cWrite fn off v) s (powered (fun d => d.hostWrite fn (bar0 fn off) v))

/-- DOORBELL_RING (R415): Writing RING submits the command buffer, or is ignored while BUSY. -/
def execDoorbellRing (fn m v : Nat) (s : State) : Host.Outcome State Fault Refusal :=
  run (.doorbellRing fn m v) s (powered (fun d => d.hostWrite fn (RegName.MBX_DOORBELL.off m) v))

/-- COMMAND_TAKE (R416): The CP takes the next rung mailbox's command in order. -/
def execCommandTake (s : State) : Host.Outcome State Fault Refusal :=
  run .commandTake s (powered (fun d => d.takeCommand))

/-- EVQ_CONS_WRITE (R431): Writing MBX_EVQ_CONS consumes event entries. -/
def execEvqConsWrite (fn m v : Nat) (s : State) : Host.Outcome State Fault Refusal :=
  run (.evqConsWrite fn m v) s (powered (fun d => d.hostWrite fn (RegName.MBX_EVQ_CONS.off m) v))

/-- MBX_VER_WRITE (R420): Writing MBX_CFG.VER selects the header version. -/
def execMbxVerWrite (fn m v : Nat) (s : State) : Host.Outcome State Fault Refusal :=
  run (.mbxVerWrite fn m v) s (powered (fun d => d.hostWrite fn (RegName.MBX_CFG.off m) v))

/-- TILE_CFG_RATE_WRITE (R64): A write of TILE_CFG sets a pending rate and other fields for the next product. -/
def execTileCfgRateWrite (lt v : Nat) (s : State) : Host.Outcome State Fault Refusal :=
  run (.tileCfgRateWrite lt v) s (powered (fun d => d.hostWrite 0 (RegName.TILE_CFG.off (lt / 4) (lt % 4)) v))

/-- LOCK_MODE_WRITE (R308): A LOCK_CFG.MODE write is staged for the next calibration or dropped if invalid. -/
def execLockModeWrite (lt v : Nat) (s : State) : Host.Outcome State Fault Refusal :=
  run (.lockModeWrite lt v) s (powered (fun d => d.hostWrite 0 (RegName.LOCK_CFG.off (lt / 4) (lt % 4)) v))

/-- TG_FREEZE_WRITE (R269): Writing TG_CTRL.FREEZE stops or resumes new grants. -/
def execTgFreezeWrite (n v : Nat) (s : State) : Host.Outcome State Fault Refusal :=
  run (.tgFreezeWrite n v) s (powered (fun d => d.hostWrite 0 (RegName.TG_CTRL.off n) v))

/-- AUX_RUN_WRITE (R322): Setting or clearing RUN starts or stops an AUX channel. -/
def execAuxRunWrite (rg ch v : Nat) (s : State) : Host.Outcome State Fault Refusal :=
  run (.auxRunWrite rg ch v) s (powered (fun d => d.hostWrite 0 (RegName.DAC_AUX_CFG.off rg ch) v))

/-- AUX_QDATA_WRITE (R321): Writing QDATA appends a code or sets OVF. -/
def execAuxQdataWrite (rg ch v : Nat) (s : State) : Host.Outcome State Fault Refusal :=
  run (.auxQdataWrite rg ch v) s (powered (fun d => d.hostWrite 0 (RegName.DAC_AUX_QDATA.off rg ch) v))

/-- MADC_RUN_WRITE (R327): Setting or clearing RUN starts or stops a monitor converter. -/
def execMadcRunWrite (rg c v : Nat) (s : State) : Host.Outcome State Fault Refusal :=
  run (.madcRunWrite rg c v) s (powered (fun d => d.hostWrite 0 (RegName.MADC_C_CFG.off rg c) v))

end Sys2Proof.Machine
end

