-- ==== Sys2Proof/Machine/ExecHub.lean ====
section
/-!
DEFINITION. The meaning of each row: Tollgates, device memory and streams (chapters 7 and 9).
-/
namespace Sys2Proof.Machine

/-- TOLLGATE_GRANT (R259): Each hub cycle, a Tollgate picks grants by lock, Nth grant, lift and class. -/
def execTollgateGrant (n : Nat) (reqs : List Nat) (done : Nat) (s : State) : Host.Outcome State Fault Refusal :=
  run (.tollgateGrant n reqs done) s (powered (fun d => d.tgCycle n reqs done))

/-- QUOTA_WINDOW_END (R263): A quota window ends and masked requesters are unmasked. -/
def execQuotaWindowEnd (n : Nat) (s : State) : Host.Outcome State Fault Refusal :=
  run (.quotaWindowEnd n) s (powered (fun d => d.quotaEnd n))

/-- LOCK_WATCHDOG_EXPIRY (R268): The lock watchdog count ends: lock aborted, owner's list stops with LOCK_ABORT. -/
def execLockWatchdogExpiry (n : Nat) (s : State) : Host.Outcome State Fault Refusal :=
  run (.lockWatchdogExpiry n) s (powered (fun d => d.lockAbort n))

/-- SCRUB_READ (R197): The patrol scrubber reads the next DRAM block and writes back corrections. -/
def execScrubRead (sectors : Nat) (ue : Bool) (s : State) : Host.Outcome State Fault Refusal :=
  run (.scrubRead sectors ue) s (powered (fun d => d.scrubRead sectors ue))

/-- DRAM_READ_COMPLETE (R195): A DRAM block read completes with ECC correction or poisoning. -/
def execDramReadComplete (a who sectors : Nat) (ue : Bool) (s : State) : Host.Outcome State Fault Refusal :=
  run (.dramReadComplete a who sectors ue) s (powered (fun d => d.dramRead a who sectors ue))

/-- STREAM_REQUEST_ISSUE (R213): A READ context issues read-ahead block requests within its space and pool
allowance. -/
def execStreamRequestIssue (n : Nat) (s : State) : Host.Outcome State Fault Refusal :=
  run (.streamRequestIssue n) s (powered (fun d => d.streamIssue n))

/-- STREAM_DATA_ARRIVAL (R214): Read data arrives and elements are placed in pattern order, PROG written and fork
members fed. -/
def execStreamDataArrival (n : Nat) (cache : Option Nat) (s : State) : Host.Outcome State Fault Refusal :=
  run (.streamDataArrival n cache) s (powered (fun d => d.streamArrival n cache))

/-- STREAM_WRITE_COMPLETE (R214): A WRITE context's elements become visible and PROG advances. -/
def execStreamWriteComplete (n : Nat) (s : State) : Host.Outcome State Fault Refusal :=
  run (.streamWriteComplete n) s (powered (fun d => d.streamWritten n))

/-- STREAM_WAIT_RESUME (R207): A waiting context finds space, data, pool lines or gate frontier and resumes. -/
def execStreamWaitResume (n : Nat) (s : State) : Host.Outcome State Fault Refusal :=
  run (.streamWaitResume n) s (powered (fun d => d.streamResume n))

/-- STREAM_PASS_END (R211): A context ends its pass: PASS_END if persistent, IDLE otherwise. -/
def execStreamPassEnd (n : Nat) (s : State) : Host.Outcome State Fault Refusal :=
  run (.streamPassEnd n) s (powered (fun d => d.streamPassEnd n))

/-- REARM_EFFECT (R211): A held re-arm takes effect at pass end: PROG zeroed, new BASE. -/
def execRearmEffect (n : Nat) (s : State) : Host.Outcome State Fault Refusal :=
  run (.rearmEffect n) s (powered (fun d => d.rearmEffect n))

/-- SPILL (R218): The circular-wait watchdog expires and spills one context to the spill area. -/
def execSpill (s : State) : Host.Outcome State Fault Refusal :=
  run .spill s (powered (fun d => d.spillNow))

/-- SPILL_READBACK (R218): A spilled context reads back its data and returns to its former state. -/
def execSpillReadback (n : Nat) (s : State) : Host.Outcome State Fault Refusal :=
  run (.spillReadback n) s (powered (fun d => d.spillReadback n))

/-- FH_IN_PASS_ADVANCE (R209): At each slot boundary an FH_IN context moves to the next pass buffer and fork members
may join or rejoin. -/
def execFhInPassAdvance (f : Nat) (s : State) : Host.Outcome State Fault Refusal :=
  run (.fhInPassAdvance f) s (powered (fun d => d.fhInAdvance f))

/-- FORK_MEMBER_DROP (R220): A member's lag exceeds SLACK or its buffer is about to be overwritten: dropped, gap
record written. -/
def execForkMemberDrop (n : Nat) (s : State) : Host.Outcome State Fault Refusal :=
  run (.forkMemberDrop n) s (powered (fun d => d.lagDrops n none))

/-- FORK_FLUSH (R402): A fork batch is flushed FLUSH after its first element. -/
def execForkFlush (n dev : Nat) (s : State) : Host.Outcome State Fault Refusal :=
  run (.forkFlush n dev) s (powered (fun d => d.forkFlush n dev))

end Sys2Proof.Machine
end

