-- ==== Sys2Proof/Machine/ExecLock.lean ====
section
/-!
DEFINITION. The meaning of each row: ring lock (chapter 10).
-/
namespace Sys2Proof.Machine

/-- SAMPLE_WINDOW_END (R279): A 50 µs sample window ends: demodulation starts, the gain bands are evaluated and
capture samples are taken. -/
def execSampleWindowEnd (p : Nat) (mons taps outs : List Nat) (s : State) : Host.Outcome State Fault Refusal :=
  run (.sampleWindowEnd p mons taps outs) s (powered (fun d => d.windowEnd p mons taps outs))

/-- ESTIMATES_READY (R294): The error estimates are ready 700 ns after the window: following-error supervision and
the quiet watch run. -/
def execEstimatesReady (p : Nat) (s : State) : Host.Outcome State Fault Refusal :=
  run (.estimatesReady p) s (powered (fun d => d.estimatesReady p))

/-- PATCH_SAMPLE (R283): In its chip slot, a patch runs the observer control law and writes its 64 heater codes. -/
def execPatchSample (p q ce : Nat) (ue : Option Nat) (s : State) : Host.Outcome State Fault Refusal :=
  run (.patchSample p q ce ue) s (powered (fun d => d.patchSample p q ce ue))

/-- COEF_REWRITE (R461): The CP rewrites the failing coefficient word from its copy. -/
def execCoefRewrite (p : Nat) (s : State) : Host.Outcome State Fault Refusal :=
  run (.coefRewrite p) s (powered (fun d => d.coefRewrite p))

/-- PATCH_DEADLINE_MISS (R291): The end of the chip slot finds the sample incomplete: it is dropped and counted, and
the fourth miss is a DEADLINE loss. -/
def execPatchDeadlineMiss (p q : Nat) (s : State) : Host.Outcome State Fault Refusal :=
  run (.patchDeadlineMiss p q) s (powered (fun d => d.deadlineMiss p q))

/-- TEMP_REFRESH (R286): Every 1 ms the tile temperature refreshes the set-points, and a step larger than TSTEP
starts a soft-start. -/
def execTempRefresh (p : Nat) (s : State) : Host.Outcome State Fault Refusal :=
  run (.tempRefresh p) s (powered (fun d => d.tempRefresh p))

/-- SOFT_START_COMPLETE (R292): A soft-start ramp reaches its target. -/
def execSoftStartComplete (p : Nat) (s : State) : Host.Outcome State Fault Refusal :=
  run (.softStartComplete p) s (powered (fun d => (d.softStartDone p).judgeSpare (regionOfP p)))

/-- THERMAL_SETTLE_END (R299): The 150 ms open-loop settling ends and the sweep begins. -/
def execThermalSettleEnd (p : Nat) (s : State) : Host.Outcome State Fault Refusal :=
  run (.thermalSettleEnd p) s (powered (fun d => d.settleEnd p))

/-- SWEEP_TOOTH_END (R301): A sawtooth sweep tooth ends and the found codes are recorded. -/
def execSweepToothEnd (p : Nat) (s : State) : Host.Outcome State Fault Refusal :=
  run (.sweepToothEnd p) s (powered (fun d => d.toothEnd p))

/-- CAPTURE_END (R299): The capture phase ends with the loop closed and identity checks begin. -/
def execCaptureEnd (p : Nat) (s : State) : Host.Outcome State Fault Refusal :=
  run (.captureEnd p) s (powered (fun d => d.captureEnd p))

/-- IDENTITY_CHECK_END (R303): A 3.2 ms identity check completes, and rings are confirmed, repeated, recovered or
failed. -/
def execIdentityCheckEnd (p : Nat) (s : State) : Host.Outcome State Fault Refusal :=
  run (.identityCheckEnd p) s (powered (fun d => d.identityEnd p))

/-- WRONG_LINE_MOVE_DONE (R304): The heater move of a wrong-line ring ends, and its local sweep begins. -/
def execWrongLineMoveDone (p : Nat) (s : State) : Host.Outcome State Fault Refusal :=
  run (.wrongLineMoveDone p) s (powered (fun d => d.moveDone p))

/-- LOCAL_SWEEP_END (R296): A re-acquisition local sweep and its capture end. -/
def execLocalSweepEnd (p : Nat) (s : State) : Host.Outcome State Fault Refusal :=
  run (.localSweepEnd p) s (powered (fun d => d.localSweepEnd p))

/-- LEGACY_TABLE_UPDATE (R307): Every 1 ms a legacy tile's heater codes are interpolated from its table. -/
def execLegacyTableUpdate (p : Nat) (s : State) : Host.Outcome State Fault Refusal :=
  run (.legacyTableUpdate p) s (powered (fun d => d.legacyUpdate p))

/-- LEGACY_RECAL_BURST (R308): Every RECAL seconds, a legacy tile runs an 8-window dithered burst and shifts its
table. -/
def execLegacyRecalBurst (p : Nat) (s : State) : Host.Outcome State Fault Refusal :=
  run (.legacyRecalBurst p) s (powered (fun d => d.legacyBurst p))

end Sys2Proof.Machine
end

