-- ==== Sys2Proof/Machine/ExecPort.lean ====
section
/-!
DEFINITION. The meaning of each row: fronthaul, modules and peer links (chapter 14).
-/
namespace Sys2Proof.Machine

/-- FRAME_RECEIVED (R388): A fronthaul frame is checked, classified by the flow table and written as records or
dropped. -/
def execFrameReceived (p lag : Nat) (fcsOk : Bool) (frame : List Byte) (s : State) :
    Host.Outcome State Fault Refusal :=
  run (.frameReceived p lag fcsOk frame) s (powered (fun d => d.frameReceived p lag fcsOk frame))

/-- FH_OUT_PASS_READ (R394): At the boundary of slot k − 2 an FH_OUT context starts reading pass buffer k. -/
def execFhOutPassRead (f : Nat) (s : State) : Host.Outcome State Fault Refusal :=
  run (.fhOutPassRead f) s (powered (fun d => d.fhOutRead f))

/-- FH_OUT_FRAME_SEND (R395): A frame leaves at its SEND time, or is judged late and dropped or sent. -/
def execFhOutFrameSend (p : Nat) (s : State) : Host.Outcome State Fault Refusal :=
  run (.fhOutFrameSend p) s (powered (fun d => d.fhOutSend p))

/-- LINK_UP (R385): A port's PCS link rises and the port enters UP_GATED or UP. -/
def execLinkUp (p : Nat) (s : State) : Host.Outcome State Fault Refusal :=
  run (.linkUp p) s (powered (fun d => d.fhLinkUp p))

/-- LINK_DOWN (R463): A port's link falls; it retrains, logs LINK_DOWN and drops affected members. -/
def execLinkDown (peer : Bool) (p reason : Nat) (s : State) : Host.Outcome State Fault Refusal :=
  run (.linkDown peer p reason) s (powered (fun d => d.linkDown peer p reason))

/-- MODULE_INSERTION (R406): A module is inserted: reset, CMIS state machine and Application selection. -/
def execModuleInsertion (m : Nat) (found : Option (Nat × List Nat)) (s : State) : Host.Outcome State Fault Refusal :=
  run (.moduleInsertion m found) s (powered (fun d => d.modInsert m found))

/-- MODULE_REMOVAL (R406): A module is removed and an event is raised. -/
def execModuleRemoval (m : Nat) (s : State) : Host.Outcome State Fault Refusal :=
  run (.moduleRemoval m) s (powered (fun d => d.modRemove m))

/-- MODULE_INTERRUPT (R406): INT_N falls and the module flags are read within 1 ms. -/
def execModuleInterrupt (m found byte page : Nat) (s : State) : Host.Outcome State Fault Refusal :=
  run (.moduleInterrupt m found byte page) s (powered (fun d => d.modInterrupt m found byte page))

/-- MODULE_POLL (R406): Periodic reading of module flags and monitors. -/
def execModulePoll (m found byte page : Nat) (s : State) : Host.Outcome State Fault Refusal :=
  run (.modulePoll m found byte page) s (powered (fun d => d.modPoll m found byte page))

/-- PEER_TRAINING_DONE (R397): A peer link trains, exchanges DEVNUM and DEV_UID, and checks for conflict. -/
def execPeerTrainingDone (p pport : Nat) (pdev : Option Nat) (puid : Nat) (s : State) :
    Host.Outcome State Fault Refusal :=
  run (.peerTrainingDone p pport pdev puid) s (powered (fun d => d.peerTrained p pport pdev puid))

/-- PEER_FRAME_REPLAY (R396): A frame with a bad check is replayed, and 8 replays retrain the link. -/
def execPeerFrameReplay (p k : Nat) (s : State) : Host.Outcome State Fault Refusal :=
  run (.peerFrameReplay p k) s (powered (fun d => d.peerReplay p k))

/-- PEER_WRITE (R400): An inbound WRITE transfer is written and acknowledged. -/
def execPeerWrite (p : Nat) (h : PHdr) (data : List Byte) (s : State) : Host.Outcome State Fault Refusal :=
  run (.peerWrite p h data) s (powered (fun d => d.peerWrite p h data))

/-- PEER_READ (R400): An inbound READ is served with READ_DATA. -/
def execPeerRead (p : Nat) (h : PHdr) (ue : Option Nat) (s : State) : Host.Outcome State Fault Refusal :=
  run (.peerRead p h ue) s (powered (fun d => d.peerRead p h ue))

/-- PEER_READ_DATA (R399): READ_DATA completes the requester's read. -/
def execPeerReadData (p : Nat) (h : PHdr) (data : List Byte) (s : State) : Host.Outcome State Fault Refusal :=
  run (.peerReadData p h data) s (powered (fun d => d.peerReadData p h data))

/-- PEER_ADD (R399): An inbound 64-bit atomic add is performed and acknowledged. -/
def execPeerAdd (p : Nat) (h : PHdr) (data : List Byte) (s : State) : Host.Outcome State Fault Refusal :=
  run (.peerAdd p h data) s (powered (fun d => d.peerAdd p h data))

/-- PEER_ACK (R400): An ACK completes a WRITE or ADD. -/
def execPeerAck (p : Nat) (h : PHdr) (s : State) : Host.Outcome State Fault Refusal :=
  run (.peerAck p h) s (powered (fun d => d.peerAck p h))

/-- PEER_FORK (R402): Fork elements are written into the named members' rings. -/
def execPeerFork (p : Nat) (h : PHdr) (ks : List (Nat × Option (Nat × Nat × Nat × Nat))) (start : Bool) (data : List Byte) (s : State) :
    Host.Outcome State Fault Refusal :=
  run (.peerFork p h ks start data) s (powered (fun d => d.peerFork p h ks start data))

/-- PEER_CREDIT (R402): A CREDIT frame updates a fork source's view of member space. -/
def execPeerCredit (p : Nat) (h : PHdr) (cs : List (Nat × Nat × Nat × Bool)) (s : State) :
    Host.Outcome State Fault Refusal :=
  run (.peerCredit p h cs) s (powered (fun d => d.peerCredit p h cs))

/-- PEER_MBX (R419): A Roadbook message for MBX6, its response or an event travels in an MBX frame. -/
def execPeerMbx (p : Nat) (h : PHdr) (msg : List Byte) (s : State) : Host.Outcome State Fault Refusal :=
  run (.peerMbx p h msg) s (powered (fun d => d.peerMbx p h msg))

/-- PEER_TIME_FRAME (R404): A time-comparison frame is timestamped. -/
def execPeerTimeFrame (p : Nat) (h : PHdr) (answer : Bool) (s : State) : Host.Outcome State Fault Refusal :=
  run (.peerTimeFrame p h answer) s (powered (fun d => d.peerTimeFrame p h answer))

/-- PEER_NOT_READY (R401): A refused request is scheduled for retry. -/
def execPeerNotReady (p : Nat) (h : PHdr) (s : State) : Host.Outcome State Fault Refusal :=
  run (.peerNotReady p h) s (powered (fun d => d.peerNotReady p h))

/-- PEER_RETRY (R401): After RETRY µs a refused transfer is sent again. -/
def execPeerRetry (tag : Nat) (s : State) : Host.Outcome State Fault Refusal :=
  run (.peerRetry tag) s (powered (fun d => d.peerRetry tag))

/-- PEER_TRANSFER_TIMEOUT (R396): A transfer undeliverable 1 ms after link loss or refusal fails. -/
def execPeerTransferTimeout (tag : Nat) (s : State) : Host.Outcome State Fault Refusal :=
  run (.peerTransferTimeout tag) s (powered (fun d => d.xferTimeout tag))

/-- PEER_TIME_COMPARISON (R404): Sixteen times a second a time comparison runs and the offset limit is checked. -/
def execPeerTimeComparison (p t1 t2 t3 t4 : Nat) (plocked : Bool) (s : State) : Host.Outcome State Fault Refusal :=
  run (.peerTimeComparison p t1 t2 t3 t4 plocked) s (powered (fun d => d.peerCompare p t1 t2 t3 t4 plocked))

/-- PEER_DEVNUM_EXCHANGE (R397): On a peer port already in UP, the partner reports its newly valid DEVNUM, and the
device checks for a conflict and may enter DEVNUM_CONFLICT. -/
def execPeerDevnumExchange (p dev : Nat) (s : State) : Host.Outcome State Fault Refusal :=
  run (.peerDevnumExchange p dev) s (powered (fun d => d.peerExchange p dev))

end Sys2Proof.Machine
end

