-- ==== Sys2Proof/Machine/ExecPower.lean ====
section
/-!
DEFINITION. The meaning of each row: power, resets and bring-up (chapters 16 and 18).
-/
namespace Sys2Proof.Machine

/-- PWRGD_RISING (R439): The board asserts PWRGD: the device latches the straps, starts the boot ROM and runs a cold
reset. -/
def execPwrgdRising (straps : Nat) (s : State) : Host.Outcome State Fault Refusal :=
  run (.pwrgdRising straps) s (fun d => d.pwrgdRise straps)

/-- PWRGD_FALLING (R437): PWRGD falls: the lasers go off, the heaters go to 0 and everything outside the always-on
domain is held in reset. -/
def execPwrgdFalling (s : State) : Host.Outcome State Fault Refusal :=
  run .pwrgdFalling s (fun d => d.pwrgdFall)

/-- RAIL_LOSS (R472): A rail leaves its tolerance while PWRGD is asserted; this is logged and handled as loss of
PWRGD. -/
def execRailLoss (rail : Nat) (s : State) : Host.Outcome State Fault Refusal :=
  run (.railLoss rail) s (fun d => d.railLoss rail)

/-- CLOCK_ABSENT (R475): A reference clock input is absent, and the effect listed for that clock follows. -/
def execClockAbsent (clk : Nat) (absent : Bool) (s : State) : Host.Outcome State Fault Refusal :=
  run (.clockAbsent clk absent) s (fun d => d.clockChange clk absent)

/-- PERST_N_ASSERT (R439): PERST_N has been low for 100 µs, which begins the PERST_N reset. -/
def execPerstAssert (s : State) : Host.Outcome State Fault Refusal :=
  run .perstAssert s (fun d => d.perstAssert)

/-- PERST_N_RELEASE (R438): PERST_N is released: the straps are sampled, the link trains and a trip latch is
cleared. -/
def execPerstRelease (straps : Nat) (s : State) : Host.Outcome State Fault Refusal :=
  run (.perstRelease straps) s (fun d => d.perstRelease straps)

/-- RESET_BEGIN (R441): 1 ms after DONE of a RESET command, the warm reset begins. -/
def execResetBegin (s : State) : Host.Outcome State Fault Refusal :=
  run .resetBegin s (powered (fun d => d.orderedReset false d.cp.straps))

/-- CP_WATCHDOG_EXPIRY (R439): The firmware has left the hardware watchdog unserviced for 500 ms, which causes a CP
watchdog reset and a CP_WDOG log entry. -/
def execCpWatchdogExpiry (word : Nat) (s : State) : Host.Outcome State Fault Refusal :=
  run (.cpWatchdogExpiry word) s (powered (fun d => d.cpWatchdog word))

/-- CP_READY (R417): The verified firmware makes the CP ready: every mailbox sets READY, a READY event is raised and
the board section is applied. -/
def execCpReady (s : State) : Host.Outcome State Fault Refusal :=
  run .cpReady s (powered (fun d => d.cpReady))

/-- DRAM_READY (R443): DRAM training and zeroing complete, so BAR2 and DRAM accesses become usable. -/
def execDramReady (s : State) : Host.Outcome State Fault Refusal :=
  run .dramReady s (powered (fun d => d.dramUp))

/-- REGION_READY (R444): A region meets every readiness condition: its engines become IDLE and a READY event is
raised. -/
def execRegionReady (rg : Nat) (s : State) : Host.Outcome State Fault Refusal :=
  run (.regionReady rg) s (powered (fun d => d.regionReady rg))

/-- DEVICE_READY (R447): Every region is ready or degraded: the Tollgates go to SERVICE, roadworks starts, the fuses
advance and the standalone program starts if strapped. -/
def execDeviceReady (s : State) : Host.Outcome State Fault Refusal :=
  run .deviceReady s (powered (fun d => d.deviceReady))

/-- LC_CHANGE_RESET (R455): 1 ms after ASYNC_DONE of a life-cycle change, the life-cycle-change reset begins. -/
def execLcChangeReset (straps : Nat) (s : State) : Host.Outcome State Fault Refusal :=
  run (.lcChangeReset straps) s (powered (fun d => d.orderedReset true straps))

/-- REGION_ACQUISITION_START (R300): After every reset, the CP starts the full acquisition of each region's tiles at
the region's staggered instant (180 + 20·rg ms in the first second), once the stack's comb is in use. -/
def execRegionAcquisitionStart (rg : Nat) (s : State) : Host.Outcome State Fault Refusal :=
  run (.regionAcquisitionStart rg) s (powered (fun d => d.acquireRegion rg))

/-- VDD_IO_LOSS (R472): VDD_IO is lost, which removes the always-on domain with its log, trip record and trip latch,
unlogged; its return acts as a cold power-up. -/
def execVddIoLoss (s : State) : Host.Outcome State Fault Refusal :=
  run .vddIoLoss s (fun d => d.vddIoLoss)

/-- FLASH_WRITE_COMPLETE (R426): The async FW_UPDATE write and signature check of a flash slot end, and ASYNC_DONE
carries OK or BAD_FIELD. -/
def execFlashWriteComplete (s : State) : Host.Outcome State Fault Refusal :=
  run .flashWriteComplete s (powered (fun d => d.flashDone))

/-- LC_ZEROING_COMPLETE (R455): The 60 ms DRAM zeroing of a life-cycle change ends; the fuses are burnt, LCCOUNT
increments and ASYNC_DONE is placed. -/
def execLcZeroingComplete (s : State) : Host.Outcome State Fault Refusal :=
  run .lcZeroingComplete s (powered (fun d => d.lcZeroed))

end Sys2Proof.Machine
end

