-- ==== Sys2Proof/Machine/ExecTask.lean ====
section
/-!
DEFINITION. The meaning of each row: task words and the sequencer (chapters 4 to 6).
-/
namespace Sys2Proof.Machine

/-- DECODE_RESUME (R114): A full queue frees an entry and decoding resumes. -/
def execDecodeResume (e : Nat) (s : State) : Host.Outcome State Fault Refusal :=
  run (.decodeResume e) s (powered (fun d => d.decodeResume e))

/-- NOP (R168): A no-operation task word. -/
def execNop (e : Nat) (s : State) : Host.Outcome State Fault Refusal :=
  run (.nop e) s (powered (fun d => d.taskRow e 0x00))

/-- LOADW (R139): Load weights into tiles: recode into planes, range-check, then write rows. -/
def execLoadw (e : Nat) (s : State) : Host.Outcome State Fault Refusal :=
  run (.loadw e) s (powered (fun d => d.taskRow e 0x01))

/-- MVM (R142): Real tile product over digit passes. -/
def execMvm (e : Nat) (s : State) : Host.Outcome State Fault Refusal :=
  run (.mvm e) s (powered (fun d => d.taskRow e 0x02))

/-- MVMC (R146): Complex product on a tile pair by the three-product rotation. -/
def execMvmc (e : Nat) (s : State) : Host.Outcome State Fault Refusal :=
  run (.mvmc e) s (powered (fun d => d.taskRow e 0x03))

/-- DMM (R147): Matrix product on the digital MAC array. -/
def execDmm (e : Nat) (ue : Option Nat) (s : State) : Host.Outcome State Fault Refusal :=
  run (.dmm e ue) s (powered (fun d => d.taskOrUe e 0x04 ue))

/-- VEC (R149): Vector-unit operation selected by VOP. -/
def execVec (e : Nat) (ue : Option Nat) (s : State) : Host.Outcome State Fault Refusal :=
  run (.vec e ue) s (powered (fun d => d.taskOrUe e 0x05 ue))

/-- ACC (R152): Open, deliver, free or deliver-and-free an accumulation area. -/
def execAcc (e : Nat) (s : State) : Host.Outcome State Fault Refusal :=
  run (.acc e) s (powered (fun d => d.taskRow e 0x06))

/-- ROUTE (R154): Mixture-of-experts dispatch task word, a decode barrier. -/
def execRoute (e : Nat) (s : State) : Host.Outcome State Fault Refusal :=
  run (.route e) s (powered (fun d => d.taskRow e 0x07))

/-- ROUTE_EVALUATION (R155): After earlier VECs, experts are selected and sections run with narrowed masks. -/
def execRouteEvaluation (e : Nat) (s : State) : Host.Outcome State Fault Refusal :=
  run (.routeEvaluation e) s (powered (fun d => d.routeEval e))

/-- EXIT (R156): Early-exit test task word, a decode barrier. -/
def execExit (e : Nat) (s : State) : Host.Outcome State Fault Refusal :=
  run (.exit e) s (powered (fun d => d.taskRow e 0x08))

/-- EXIT_EVALUATION (R157): Confident items are cleared, XMAP is written and the list skips to TARGET if none
remain. -/
def execExitEvaluation (e : Nat) (s : State) : Host.Outcome State Fault Refusal :=
  run (.exitEvaluation e) s (powered (fun d => d.exitEval e))

/-- ARM (R159): Full arm or re-arm of an engine stream context. -/
def execArm (e : Nat) (s : State) : Host.Outcome State Fault Refusal :=
  run (.arm e) s (powered (fun d => d.taskRow e 0x09))

/-- WAITM (R161): Hold decoding until a Milestone release. -/
def execWaitm (e : Nat) (s : State) : Host.Outcome State Fault Refusal :=
  run (.waitm e) s (powered (fun d => d.taskRow e 0x0A))

/-- WAITM_TIMEOUT (R160): A WAITM exceeds its TIMEOUT: task-word error TIMEOUT. -/
def execWaitmTimeout (e : Nat) (s : State) : Host.Outcome State Fault Refusal :=
  run (.waitmTimeout e) s (powered (fun d => d.waitmTimeout e))

/-- SIGNAL (R162): Queue a write, add or event after earlier work. -/
def execSignal (e : Nat) (s : State) : Host.Outcome State Fault Refusal :=
  run (.signal e) s (powered (fun d => d.taskRow e 0x0B))

/-- SIGNAL_EFFECT (R163): A SIGNAL takes effect after earlier work is visible, writing or adding and raising its
event. -/
def execSignalEffect (e : Nat) (s : State) : Host.Outcome State Fault Refusal :=
  run (.signalEffect e) s (powered (fun d => d.signalEffect e))

/-- FENCE (R165): Hold decoding for earlier work in scope and optionally a memory value. -/
def execFence (e : Nat) (s : State) : Host.Outcome State Fault Refusal :=
  run (.fence e) s (powered (fun d => d.taskRow e 0x0C))

/-- FENCE_POLL (R165): Every 64 cycles the FENCE word is read and compared. -/
def execFencePoll (e : Nat) (s : State) : Host.Outcome State Fault Refusal :=
  run (.fencePoll e) s (powered (fun d => d.fencePoll e))

/-- FENCE_TIMEOUT (R165): A FENCE poll exceeds its TIMEOUT. -/
def execFenceTimeout (e : Nat) (s : State) : Host.Outcome State Fault Refusal :=
  run (.fenceTimeout e) s (powered (fun d => d.fenceTimeout e))

/-- LOCKSEQ (R167): Open or close a locked sequence on a Tollgate. -/
def execLockseq (e : Nat) (s : State) : Host.Outcome State Fault Refusal :=
  run (.lockseq e) s (powered (fun d => d.taskRow e 0x0D))

/-- LOCKSEQ_TIMEOUT (R166): A LOCKSEQ OPEN waits beyond its TIMEOUT. -/
def execLockseqTimeout (e : Nat) (s : State) : Host.Outcome State Fault Refusal :=
  run (.lockseqTimeout e) s (powered (fun d => d.lockTimeout e))

/-- LIST_START (R135): A placed list starts at the later of its start firing and the previous list's end, and the
class is re-evaluated. -/
def execListStart (e : Nat) (s : State) : Host.Outcome State Fault Refusal :=
  run (.listStart e) s (powered (fun d => d.listStart e))

/-- LIST_END (R136): A list ends: LIST_DONE events, class re-evaluation and residency scoring at roadworks
boundaries. -/
def execListEnd (e : Nat) (s : State) : Host.Outcome State Fault Refusal :=
  run (.listEnd e) s (powered (fun d => d.listEnd e))

/-- HOT_MARGIN_REACHED (R258): Device time reaches deadline minus HOT and the engine's requesters become class 3. -/
def execHotMarginReached (e : Nat) (s : State) : Host.Outcome State Fault Refusal :=
  run (.hotMarginReached e) s (powered (fun d => d.reclass e))

end Sys2Proof.Machine
end

