-- ==== Sys2Proof/Machine/ExecThermal.lean ====
section
/-!
DEFINITION. The meaning of each row: heat and dither chips (chapters 10 and 13).
-/
namespace Sys2Proof.Machine

/-- THERMAL_SAMPLE (R365): A sensor group sample is compared with its thresholds: levels set or clear, faults are
detected and the sample rate changes. -/
def execThermalSample (g : Nat) (readings : List Int) (s : State) : Host.Outcome State Fault Refusal :=
  run (.thermalSample g readings) s (fun d => d.thermalSample g readings)

/-- TRIP_POWER_OFF (R374): 10 µs after a trip, the internal switches open the supplies and hold the package in
reset. -/
def execTripPowerOff (s : State) : Host.Outcome State Fault Refusal :=
  run .tripPowerOff s (fun d => d.tripOff)

/-- THERMAL_RESTART (R375): At least 10 s after a trip, with every sensor below its restart value, THERMTRIP_N is
released and power-up runs. -/
def execThermalRestart (straps : Nat) (s : State) : Host.Outcome State Fault Refusal :=
  run (.thermalRestart straps) s (fun d => d.thermalRestart straps)

/-- THROTTLE_ESCALATE (R370): After an ESC interval at or above the throttle value without a 0.5 °C fall, the
source's step rises by 1. -/
def execThrottleEscalate (g : Nat) (s : State) : Host.Outcome State Fault Refusal :=
  run (.throttleEscalate g) s (powered (fun d => d.escalate g))

/-- THROTTLE_RELEASE (R370): After a REL interval following a clear, the source's step falls by 1. -/
def execThrottleRelease (g : Nat) (s : State) : Host.Outcome State Fault Refusal :=
  run (.throttleRelease g) s (powered (fun d => d.release g))

/-- DITHER_CHIP (R276): A dither chip boundary applies the dither signs, the throttle pause and the slew-budget
ceiling and floor. -/
def execDitherChip (s : State) : Host.Outcome State Fault Refusal :=
  run .ditherChip s (powered (fun d => d.ditherChip))

/-- QUIET_PERIOD_LIMIT (R91): 2 ms after suspension, the quiet period ends. -/
def execQuietPeriodLimit (p : Nat) (s : State) : Host.Outcome State Fault Refusal :=
  run (.quietPeriodLimit p) s (powered (fun d => d.quietLimit p))

end Sys2Proof.Machine
end

