-- ==== Sys2Proof/Machine/ExecTile.lean ====
section
/-!
DEFINITION. The meaning of each row: tile conversions, the MAC array, deliveries and the vector pipes (chapters 2 to
4).
-/
namespace Sys2Proof.Machine

/-- TILE_RATE_CHANGE (R64): A pending TILE_CFG.RATE takes effect once the tile is IDLE with no open operation. -/
def execTileRateChange (e t : Nat) (s : State) : Host.Outcome State Fault Refusal :=
  run (.tileRateChange e t) s (powered (fun d => d.kick e t))

/-- INTEGRATION_WINDOW_OPEN (R103): A conversion's window opens once its segments are buffered, after the KRATE
check, the gain setting and the quiet wait. -/
def execIntegrationWindowOpen (e : Nat) (t : (Nat × Nat)) (s : State) : Host.Outcome State Fault Refusal :=
  run (.integrationWindowOpen e t) s (powered (fun d => d.windowOpen e t.1 t.2))

/-- CONVERSION_COMPLETE (R44): A conversion's column words and half-differences arrive, then saturation policy and
the confidence gate apply. -/
def execConversionComplete (e t : Nat) (errs diffs : List Int) (s : State) : Host.Outcome State Fault Refusal :=
  run (.conversionComplete e t errs diffs) s (powered (fun d => d.convComplete e t errs diffs))

/-- SATURATION_RERUN (R54): A re-run window opens from the replay buffer at the first free slot. -/
def execSaturationRerun (e t : Nat) (s : State) : Host.Outcome State Fault Refusal :=
  run (.saturationRerun e t) s (powered (fun d => d.againOpen e t false))

/-- CONFIDENCE_REREAD (R83): R − 1 further readings start from the replay buffer at the first free slot. -/
def execConfidenceReread (e t : Nat) (s : State) : Host.Outcome State Fault Refusal :=
  run (.confidenceReread e t) s (powered (fun d => d.againOpen e t true))

/-- MAC_ARRAY_JOB_START (R109): The MAC array takes a job by priority kind and list order at a cycle boundary. -/
def execMacArrayJobStart (e : Nat) (s : State) : Host.Outcome State Fault Refusal :=
  run (.macArrayJobStart e) s (powered (fun d => d.macStart e))

/-- SPLIT_DONE (R110): A split column's exact word reaches the tile output path. -/
def execSplitDone (e : Nat) (s : State) : Host.Outcome State Fault Refusal :=
  run (.splitDone e) s (powered (fun d => d.macDone e true))

/-- MAC_ARRAY_JOB_DONE (R88): A MAC-array fallback, redirect, SENS or DMM job completes with exact results. -/
def execMacArrayJobDone (e : Nat) (s : State) : Host.Outcome State Fault Refusal :=
  run (.macArrayJobDone e) s (powered (fun d => d.macDone e false))

/-- RELOAD_COMPLETE (R39): A tile reload settles: the shadow and offsets are updated, feed-forward is passed and the
tile is IDLE. -/
def execReloadComplete (e t : Nat) (s : State) : Host.Outcome State Fault Refusal :=
  run (.reloadComplete e t) s (powered (fun d => d.reloadComplete e t))

/-- TILE_WAIT_EXPIRY (R117): TILE_WAIT expires on a waiting tile operation, which is redirected to the MAC array. -/
def execTileWaitExpiry (e t : Nat) (s : State) : Host.Outcome State Fault Refusal :=
  run (.tileWaitExpiry e t) s (powered (fun d => d.tileWaitExpiry e t))

/-- ACC_DELIVERY (R107): An area's delivery starts once all contributions are in: statuses and converted vectors are
written, LATE is judged and SEQ is assigned. -/
def execAccDelivery (e : Nat) (s : State) : Host.Outcome State Fault Refusal :=
  run (.accDelivery e) s (powered (fun d => d.accDelivery e))

/-- VEC_COMPLETE (R137): A VEC task word finishes on the vector pipes; this releases FENCE scope 2 and lets waiting
EXIT or ROUTE evaluations and SIGNALs proceed. -/
def execVecComplete (e pipe : Nat) (s : State) : Host.Outcome State Fault Refusal :=
  run (.vecComplete e pipe) s (powered (fun d => d.vecComplete e pipe))

end Sys2Proof.Machine
end

