-- ==== Sys2Proof/Machine/ExecTime.lean ====
section
/-!
DEFINITION. The meaning of each row: device time and Milestones (chapter 8).
-/
namespace Sys2Proof.Machine

/-- MILESTONE_FIRING (R242): A valid entry fires and dispatches its actions in order. -/
def execMilestoneFiring (n late : Nat) (s : State) : Host.Outcome State Fault Refusal :=
  run (.milestoneFiring n late) s (powered (fun d => d.milestone n late))

/-- COMMIT_EFFECT (R244): At boundary B the changed shadow entries are copied atomically, apart from deferred ones.
-/
def execCommitEffect (s : State) : Host.Outcome State Fault Refusal :=
  run .commitEffect s (powered (fun d => d.commitEffect d.time))

/-- DEFERRED_COPY (R245): At the next slot boundary of its timeline a deferred entry is copied, and the commit may
end. -/
def execDeferredCopy (s : State) : Host.Outcome State Fault Refusal :=
  run .deferredCopy s (powered (fun d => d.deferredCopy d.time))

/-- PHASE_MEASUREMENT (R233): A source phase measurement steps or slews device time and may enter LOCKED. -/
def execPhaseMeasurement (sub : Int) (s : State) : Host.Outcome State Fault Refusal :=
  run (.phaseMeasurement sub) s (powered (fun d => d.phaseMeasurement sub))

/-- SOURCE_LOSS (R232): The source is lost: LOCKED becomes HOLDOVER. -/
def execSourceLoss (s : State) : Host.Outcome State Fault Refusal :=
  run .sourceLoss s (powered (fun d => d.sourceLoss))

/-- SOURCE_RETURN (R232): The source returns and HOLDOVER becomes ACQUIRING. -/
def execSourceReturn (s : State) : Host.Outcome State Fault Refusal :=
  run .sourceReturn s (powered (fun d => d.sourceReturn))

/-- HOLD_MAX_EXPIRY (R232): HOLD_MAX seconds of holdover elapse and the state becomes ACQUIRING. -/
def execHoldMaxExpiry (s : State) : Host.Outcome State Fault Refusal :=
  run .holdMaxExpiry s (powered (fun d => d.holdMaxExpiry))

/-- PTP_MESSAGE (R227): A PTP event or general message is received and timestamped for the slave clock. -/
def execPtpMessage (p kind domain lag src seq : Nat) (twoStep : Bool) (time : Nat) (data : List Byte) (s : State) :
    Host.Outcome State Fault Refusal :=
  run (.ptpMessage p kind domain lag src seq twoStep time data) s
    (powered (fun d => d.ptpMessage p kind domain lag src seq twoStep time data))

/-- ESMC_RECEIVE (R228): An ESMC frame updates the SyncE quality level. -/
def execEsmcReceive (p ql : Nat) (s : State) : Host.Outcome State Fault Refusal :=
  run (.esmcReceive p ql) s (powered (fun d => d.esmcReceive p ql))

/-- ESMC_SEND (R386): Once per second every port sends ESMC with DNU. -/
def execEsmcSend (s : State) : Host.Outcome State Fault Refusal :=
  run .esmcSend s (powered (fun d => d.esmcSend))

/-- PPS_IN_EDGE (R229): A PPS_IN rising edge is timestamped and judged as a second or a phase error. -/
def execPpsInEdge (lag : Nat) (s : State) : Host.Outcome State Fault Refusal :=
  run (.ppsInEdge lag) s (powered (fun d => d.ppsIn lag))

/-- PPS_OUT_EDGE (R409): PPS_OUT rises before each whole second while time locked. -/
def execPpsOutEdge (s : State) : Host.Outcome State Fault Refusal :=
  run .ppsOutEdge s (powered (fun d => d.ppsOutEdge))

/-- PPS_CHECK (R408): Each second, CLK10M_IN and PPS spacing are checked for PPS_OK. -/
def execPpsCheck (n10 n25 : Nat) (s : State) : Host.Outcome State Fault Refusal :=
  run (.ppsCheck n10 n25) s (powered (fun d => d.ppsCheck n10 n25))

end Sys2Proof.Machine
end

