-- ==== Sys2Proof/Machine/Dispatch.lean ====
section
/-!
DEFINITION. What each command does: one direct call of its meaning.
-/
namespace Sys2Proof.Machine

def exec (i : Instr) (s : State) : Host.Outcome State Fault Refusal :=
  match i with
  | .pwrgdRising straps => Sys2Proof.Machine.execPwrgdRising straps s
  | .railLoss rail => Sys2Proof.Machine.execRailLoss rail s
  | .clockAbsent clk absent => Sys2Proof.Machine.execClockAbsent clk absent s
  | .perstRelease straps => Sys2Proof.Machine.execPerstRelease straps s
  | .cpWatchdogExpiry word => Sys2Proof.Machine.execCpWatchdogExpiry word s
  | .regionReady rg => Sys2Proof.Machine.execRegionReady rg s
  | .lcChangeReset straps => Sys2Proof.Machine.execLcChangeReset straps s
  | .thermalSample g readings => Sys2Proof.Machine.execThermalSample g readings s
  | .thermalRestart straps => Sys2Proof.Machine.execThermalRestart straps s
  | .throttleEscalate g => Sys2Proof.Machine.execThrottleEscalate g s
  | .throttleRelease g => Sys2Proof.Machine.execThrottleRelease g s
  | .quietPeriodLimit p => Sys2Proof.Machine.execQuietPeriodLimit p s
  | .sampleWindowEnd p mons taps outs => Sys2Proof.Machine.execSampleWindowEnd p mons taps outs s
  | .estimatesReady p => Sys2Proof.Machine.execEstimatesReady p s
  | .patchSample p q ce ue => Sys2Proof.Machine.execPatchSample p q ce ue s
  | .coefRewrite p => Sys2Proof.Machine.execCoefRewrite p s
  | .patchDeadlineMiss p q => Sys2Proof.Machine.execPatchDeadlineMiss p q s
  | .tempRefresh p => Sys2Proof.Machine.execTempRefresh p s
  | .softStartComplete p => Sys2Proof.Machine.execSoftStartComplete p s
  | .thermalSettleEnd p => Sys2Proof.Machine.execThermalSettleEnd p s
  | .sweepToothEnd p => Sys2Proof.Machine.execSweepToothEnd p s
  | .captureEnd p => Sys2Proof.Machine.execCaptureEnd p s
  | .identityCheckEnd p => Sys2Proof.Machine.execIdentityCheckEnd p s
  | .wrongLineMoveDone p => Sys2Proof.Machine.execWrongLineMoveDone p s
  | .localSweepEnd p => Sys2Proof.Machine.execLocalSweepEnd p s
  | .legacyTableUpdate p => Sys2Proof.Machine.execLegacyTableUpdate p s
  | .legacyRecalBurst p => Sys2Proof.Machine.execLegacyRecalBurst p s
  | .tileRateChange e t => Sys2Proof.Machine.execTileRateChange e t s
  | .integrationWindowOpen e t => Sys2Proof.Machine.execIntegrationWindowOpen e t s
  | .conversionComplete e t errs diffs => Sys2Proof.Machine.execConversionComplete e t errs diffs s
  | .saturationRerun e t => Sys2Proof.Machine.execSaturationRerun e t s
  | .confidenceReread e t => Sys2Proof.Machine.execConfidenceReread e t s
  | .macArrayJobStart e => Sys2Proof.Machine.execMacArrayJobStart e s
  | .splitDone e => Sys2Proof.Machine.execSplitDone e s
  | .macArrayJobDone e => Sys2Proof.Machine.execMacArrayJobDone e s
  | .reloadComplete e t => Sys2Proof.Machine.execReloadComplete e t s
  | .tileWaitExpiry e t => Sys2Proof.Machine.execTileWaitExpiry e t s
  | .decodeResume e => Sys2Proof.Machine.execDecodeResume e s
  | .nop e => Sys2Proof.Machine.execNop e s
  | .loadw e => Sys2Proof.Machine.execLoadw e s
  | .mvm e => Sys2Proof.Machine.execMvm e s
  | .mvmc e => Sys2Proof.Machine.execMvmc e s
  | .dmm e ue => Sys2Proof.Machine.execDmm e ue s
  | .vec e ue => Sys2Proof.Machine.execVec e ue s
  | .acc e => Sys2Proof.Machine.execAcc e s
  | .accDelivery e => Sys2Proof.Machine.execAccDelivery e s
  | .route e => Sys2Proof.Machine.execRoute e s
  | .routeEvaluation e => Sys2Proof.Machine.execRouteEvaluation e s
  | .exit e => Sys2Proof.Machine.execExit e s
  | .exitEvaluation e => Sys2Proof.Machine.execExitEvaluation e s
  | .arm e => Sys2Proof.Machine.execArm e s
  | .waitm e => Sys2Proof.Machine.execWaitm e s
  | .waitmTimeout e => Sys2Proof.Machine.execWaitmTimeout e s
  | .signal e => Sys2Proof.Machine.execSignal e s
  | .signalEffect e => Sys2Proof.Machine.execSignalEffect e s
  | .fence e => Sys2Proof.Machine.execFence e s
  | .fencePoll e => Sys2Proof.Machine.execFencePoll e s
  | .fenceTimeout e => Sys2Proof.Machine.execFenceTimeout e s
  | .lockseq e => Sys2Proof.Machine.execLockseq e s
  | .lockseqTimeout e => Sys2Proof.Machine.execLockseqTimeout e s
  | .listStart e => Sys2Proof.Machine.execListStart e s
  | .listEnd e => Sys2Proof.Machine.execListEnd e s
  | .hotMarginReached e => Sys2Proof.Machine.execHotMarginReached e s
  | .milestoneFiring n late => Sys2Proof.Machine.execMilestoneFiring n late s
  | .phaseMeasurement sub => Sys2Proof.Machine.execPhaseMeasurement sub s
  | .ptpMessage p kind domain lag src seq twoStep time data => Sys2Proof.Machine.execPtpMessage p kind domain lag src seq twoStep time data s
  | .esmcReceive p ql => Sys2Proof.Machine.execEsmcReceive p ql s
  | .ppsInEdge lag => Sys2Proof.Machine.execPpsInEdge lag s
  | .ppsCheck n10 n25 => Sys2Proof.Machine.execPpsCheck n10 n25 s
  | .tollgateGrant n reqs done => Sys2Proof.Machine.execTollgateGrant n reqs done s
  | .quotaWindowEnd n => Sys2Proof.Machine.execQuotaWindowEnd n s
  | .lockWatchdogExpiry n => Sys2Proof.Machine.execLockWatchdogExpiry n s
  | .scrubRead sectors ue => Sys2Proof.Machine.execScrubRead sectors ue s
  | .dramReadComplete a who sectors ue => Sys2Proof.Machine.execDramReadComplete a who sectors ue s
  | .streamRequestIssue n => Sys2Proof.Machine.execStreamRequestIssue n s
  | .streamDataArrival n cache => Sys2Proof.Machine.execStreamDataArrival n cache s
  | .streamWriteComplete n => Sys2Proof.Machine.execStreamWriteComplete n s
  | .streamWaitResume n => Sys2Proof.Machine.execStreamWaitResume n s
  | .streamPassEnd n => Sys2Proof.Machine.execStreamPassEnd n s
  | .rearmEffect n => Sys2Proof.Machine.execRearmEffect n s
  | .spillReadback n => Sys2Proof.Machine.execSpillReadback n s
  | .fhInPassAdvance f => Sys2Proof.Machine.execFhInPassAdvance f s
  | .forkMemberDrop n => Sys2Proof.Machine.execForkMemberDrop n s
  | .frameReceived p lag fcsOk frame => Sys2Proof.Machine.execFrameReceived p lag fcsOk frame s
  | .fhOutPassRead f => Sys2Proof.Machine.execFhOutPassRead f s
  | .fhOutFrameSend p => Sys2Proof.Machine.execFhOutFrameSend p s
  | .linkUp p => Sys2Proof.Machine.execLinkUp p s
  | .linkDown peer p reason => Sys2Proof.Machine.execLinkDown peer p reason s
  | .moduleInsertion m found => Sys2Proof.Machine.execModuleInsertion m found s
  | .moduleRemoval m => Sys2Proof.Machine.execModuleRemoval m s
  | .moduleInterrupt m found byte page => Sys2Proof.Machine.execModuleInterrupt m found byte page s
  | .modulePoll m found byte page => Sys2Proof.Machine.execModulePoll m found byte page s
  | .peerTrainingDone p pport pdev puid => Sys2Proof.Machine.execPeerTrainingDone p pport pdev puid s
  | .peerFrameReplay p k => Sys2Proof.Machine.execPeerFrameReplay p k s
  | .peerWrite p h data => Sys2Proof.Machine.execPeerWrite p h data s
  | .peerRead p h ue => Sys2Proof.Machine.execPeerRead p h ue s
  | .peerReadData p h data => Sys2Proof.Machine.execPeerReadData p h data s
  | .peerAdd p h data => Sys2Proof.Machine.execPeerAdd p h data s
  | .peerAck p h => Sys2Proof.Machine.execPeerAck p h s
  | .peerFork p h ks start data => Sys2Proof.Machine.execPeerFork p h ks start data s
  | .peerCredit p h cs => Sys2Proof.Machine.execPeerCredit p h cs s
  | .peerMbx p h msg => Sys2Proof.Machine.execPeerMbx p h msg s
  | .peerTimeFrame p h answer => Sys2Proof.Machine.execPeerTimeFrame p h answer s
  | .peerNotReady p h => Sys2Proof.Machine.execPeerNotReady p h s
  | .peerRetry tag => Sys2Proof.Machine.execPeerRetry tag s
  | .peerTransferTimeout tag => Sys2Proof.Machine.execPeerTransferTimeout tag s
  | .peerTimeComparison p t1 t2 t3 t4 plocked => Sys2Proof.Machine.execPeerTimeComparison p t1 t2 t3 t4 plocked s
  | .forkFlush n dev => Sys2Proof.Machine.execForkFlush n dev s
  | .hostBar2Read fn off n ue cache => Sys2Proof.Machine.execHostBar2Read fn off n ue cache s
  | .hostBar2Write fn off data cache => Sys2Proof.Machine.execHostBar2Write fn off data cache s
  | .hostAtomic fn off cas val cmp => Sys2Proof.Machine.execHostAtomic fn off cas val cmp s
  | .vfFlr v => Sys2Proof.Machine.execVfFlr v s
  | .smbusWindowWrite o data pecOk => Sys2Proof.Machine.execSmbusWindowWrite o data pecOk s
  | .smbusOffsetSet o pecOk => Sys2Proof.Machine.execSmbusOffsetSet o pecOk s
  | .badWidthAccess fn off isRead => Sys2Proof.Machine.execBadWidthAccess fn off isRead s
  | .registerWrite fn off v => Sys2Proof.Machine.execRegisterWrite fn off v s
  | .loRead fn off => Sys2Proof.Machine.execLoRead fn off s
  | .hiRead fn off => Sys2Proof.Machine.execHiRead fn off s
  | .loWrite fn off v => Sys2Proof.Machine.execLoWrite fn off v s
  | .hiWrite fn off v => Sys2Proof.Machine.execHiWrite fn off v s
  | .rcRead fn off => Sys2Proof.Machine.execRcRead fn off s
  | .w1cWrite fn off v => Sys2Proof.Machine.execW1cWrite fn off v s
  | .doorbellRing fn m v => Sys2Proof.Machine.execDoorbellRing fn m v s
  | .evqConsWrite fn m v => Sys2Proof.Machine.execEvqConsWrite fn m v s
  | .mbxVerWrite fn m v => Sys2Proof.Machine.execMbxVerWrite fn m v s
  | .tileCfgRateWrite lt v => Sys2Proof.Machine.execTileCfgRateWrite lt v s
  | .lockModeWrite lt v => Sys2Proof.Machine.execLockModeWrite lt v s
  | .tgFreezeWrite n v => Sys2Proof.Machine.execTgFreezeWrite n v s
  | .auxRunWrite rg ch v => Sys2Proof.Machine.execAuxRunWrite rg ch v s
  | .auxQdataWrite rg ch v => Sys2Proof.Machine.execAuxQdataWrite rg ch v s
  | .madcRunWrite rg c v => Sys2Proof.Machine.execMadcRunWrite rg c v s
  | .auxSampleInstant rg ch => Sys2Proof.Machine.execAuxSampleInstant rg ch s
  | .madcEntryComplete rg c raws tile => Sys2Proof.Machine.execMadcEntryComplete rg c raws tile s
  | .madcRoundStart rg c => Sys2Proof.Machine.execMadcRoundStart rg c s
  | .madcTrigger rg c b => Sys2Proof.Machine.execMadcTrigger rg c b s
  | .lineMonitorRound sk powers => Sys2Proof.Machine.execLineMonitorRound sk powers s
  | .lossDetector sk => Sys2Proof.Machine.execLossDetector sk s
  | .detourVerify sk powers eq => Sys2Proof.Machine.execDetourVerify sk powers eq s
  | .detourGapClose sk => Sys2Proof.Machine.execDetourGapClose sk s
  | .detourWait sk => Sys2Proof.Machine.execDetourWait sk s
  | .combStandby sk c ok => Sys2Proof.Machine.execCombStandby sk c ok s
  | .combAligned sk c grid lines => Sys2Proof.Machine.execCombAligned sk c grid lines s
  | .alignmentCheck sk grid => Sys2Proof.Machine.execAlignmentCheck sk grid s
  | .roadworksAutoFiring rg => Sys2Proof.Machine.execRoadworksAutoFiring rg s
  | .sparePrepare rg => Sys2Proof.Machine.execSparePrepare rg s
  | .roadworksDrainEnd rg => Sys2Proof.Machine.execRoadworksDrainEnd rg s
  | .swapLoadDone rg => Sys2Proof.Machine.execSwapLoadDone rg s
  | .swapComplete rg => Sys2Proof.Machine.execSwapComplete rg s
  | .calibrationStep rg ok vals curves => Sys2Proof.Machine.execCalibrationStep rg ok vals curves s
  | .calibrationComplete rg => Sys2Proof.Machine.execCalibrationComplete rg s
  | .safePointReached kind idx => Sys2Proof.Machine.execSafePointReached kind idx s
  | .modRead data => Sys2Proof.Machine.execModRead data s
  | .modWrite ok => Sys2Proof.Machine.execModWrite ok s
  | .regionAcquisitionStart rg => Sys2Proof.Machine.execRegionAcquisitionStart rg s
  | .vecComplete e pipe => Sys2Proof.Machine.execVecComplete e pipe s
  | .peerDevnumExchange p dev => Sys2Proof.Machine.execPeerDevnumExchange p dev s
  | .hostLinkTrained rate width => Sys2Proof.Machine.execHostLinkTrained rate width s
  | .copyComplete data ok => Sys2Proof.Machine.execCopyComplete data ok s
  | .vfEnable on => Sys2Proof.Machine.execVfEnable on s
  | .pwrgdFalling => Sys2Proof.Machine.execPwrgdFalling s
  | .perstAssert => Sys2Proof.Machine.execPerstAssert s
  | .resetBegin => Sys2Proof.Machine.execResetBegin s
  | .cpReady => Sys2Proof.Machine.execCpReady s
  | .dramReady => Sys2Proof.Machine.execDramReady s
  | .deviceReady => Sys2Proof.Machine.execDeviceReady s
  | .tripPowerOff => Sys2Proof.Machine.execTripPowerOff s
  | .ditherChip => Sys2Proof.Machine.execDitherChip s
  | .commitEffect => Sys2Proof.Machine.execCommitEffect s
  | .deferredCopy => Sys2Proof.Machine.execDeferredCopy s
  | .sourceLoss => Sys2Proof.Machine.execSourceLoss s
  | .sourceReturn => Sys2Proof.Machine.execSourceReturn s
  | .holdMaxExpiry => Sys2Proof.Machine.execHoldMaxExpiry s
  | .esmcSend => Sys2Proof.Machine.execEsmcSend s
  | .ppsOutEdge => Sys2Proof.Machine.execPpsOutEdge s
  | .spill => Sys2Proof.Machine.execSpill s
  | .pfFlr => Sys2Proof.Machine.execPfFlr s
  | .smbusBlockRead => Sys2Proof.Machine.execSmbusBlockRead s
  | .commandTake => Sys2Proof.Machine.execCommandTake s
  | .getInfo => Sys2Proof.Machine.execGetInfo s
  | .setDevnum => Sys2Proof.Machine.execSetDevnum s
  | .fnAssign => Sys2Proof.Machine.execFnAssign s
  | .enable => Sys2Proof.Machine.execEnable s
  | .reset => Sys2Proof.Machine.execReset s
  | .lcAdvance => Sys2Proof.Machine.execLcAdvance s
  | .keyInstall => Sys2Proof.Machine.execKeyInstall s
  | .fwUpdate => Sys2Proof.Machine.execFwUpdate s
  | .fwSelect => Sys2Proof.Machine.execFwSelect s
  | .grantDirect => Sys2Proof.Machine.execGrantDirect s
  | .revokeDirect => Sys2Proof.Machine.execRevokeDirect s
  | .timeSet => Sys2Proof.Machine.execTimeSet s
  | .ppsLabel => Sys2Proof.Machine.execPpsLabel s
  | .freqTrim => Sys2Proof.Machine.execFreqTrim s
  | .timeSrc => Sys2Proof.Machine.execTimeSrc s
  | .ptpAddr => Sys2Proof.Machine.execPtpAddr s
  | .timeStepBack => Sys2Proof.Machine.execTimeStepBack s
  | .ctCfg => Sys2Proof.Machine.execCtCfg s
  | .timeStatus => Sys2Proof.Machine.execTimeStatus s
  | .msWrite => Sys2Proof.Machine.execMsWrite s
  | .msRead => Sys2Proof.Machine.execMsRead s
  | .msCommit => Sys2Proof.Machine.execMsCommit s
  | .strmArm => Sys2Proof.Machine.execStrmArm s
  | .strmRearm => Sys2Proof.Machine.execStrmRearm s
  | .strmDisarm => Sys2Proof.Machine.execStrmDisarm s
  | .copy => Sys2Proof.Machine.execCopy s
  | .scrubCfg => Sys2Proof.Machine.execScrubCfg s
  | .poolCfg => Sys2Proof.Machine.execPoolCfg s
  | .listPlace => Sys2Proof.Machine.execListPlace s
  | .listCancel => Sys2Proof.Machine.execListCancel s
  | .engQuery => Sys2Proof.Machine.execEngQuery s
  | .engCfg => Sys2Proof.Machine.execEngCfg s
  | .rslotInstall => Sys2Proof.Machine.execRslotInstall s
  | .resWrite => Sys2Proof.Machine.execResWrite s
  | .resRead => Sys2Proof.Machine.execResRead s
  | .curveWrite => Sys2Proof.Machine.execCurveWrite s
  | .curveRead => Sys2Proof.Machine.execCurveRead s
  | .gainsetWrite => Sys2Proof.Machine.execGainsetWrite s
  | .lockCfg => Sys2Proof.Machine.execLockCfg s
  | .acquire => Sys2Proof.Machine.execAcquire s
  | .tileCfg => Sys2Proof.Machine.execTileCfg s
  | .rdwkCfg => Sys2Proof.Machine.execRdwkCfg s
  | .ltabWrite => Sys2Proof.Machine.execLtabWrite s
  | .ltabRead => Sys2Proof.Machine.execLtabRead s
  | .lsaThr => Sys2Proof.Machine.execLsaThr s
  | .commission => Sys2Proof.Machine.execCommission s
  | .combReadmit => Sys2Proof.Machine.execCombReadmit s
  | .lsaQuery => Sys2Proof.Machine.execLsaQuery s
  | .auxCfg => Sys2Proof.Machine.execAuxCfg s
  | .auxCode => Sys2Proof.Machine.execAuxCode s
  | .auxPwrup => Sys2Proof.Machine.execAuxPwrup s
  | .madcHost => Sys2Proof.Machine.execMadcHost s
  | .madcTriggerCmd => Sys2Proof.Machine.execMadcTriggerCmd s
  | .madcRing => Sys2Proof.Machine.execMadcRing s
  | .thmRead => Sys2Proof.Machine.execThmRead s
  | .thmLimits => Sys2Proof.Machine.execThmLimits s
  | .thmSet => Sys2Proof.Machine.execThmSet s
  | .fhQuad => Sys2Proof.Machine.execFhQuad s
  | .flowWrite => Sys2Proof.Machine.execFlowWrite s
  | .excRing => Sys2Proof.Machine.execExcRing s
  | .timingPins => Sys2Proof.Machine.execTimingPins s
  | .tgFreeze => Sys2Proof.Machine.execTgFreeze s
  | .tgCfg => Sys2Proof.Machine.execTgCfg s
  | .tgClass => Sys2Proof.Machine.execTgClass s
  | .tgClscfg => Sys2Proof.Machine.execTgClscfg s
  | .logRead => Sys2Proof.Machine.execLogRead s
  | .eventSub => Sys2Proof.Machine.execEventSub s
  | .inject => Sys2Proof.Machine.execInject s
  | .captureRead => Sys2Proof.Machine.execCaptureRead s
  | .hinjBind => Sys2Proof.Machine.execHinjBind s
  | .tgTest => Sys2Proof.Machine.execTgTest s
  | .regRead => Sys2Proof.Machine.execRegRead s
  | .info => Sys2Proof.Machine.execInfo s
  | .v1Reset => Sys2Proof.Machine.execV1Reset s
  | .rdreg => Sys2Proof.Machine.execRdreg s
  | .wrreg => Sys2Proof.Machine.execWrreg s
  | .run => Sys2Proof.Machine.execRun s
  | .temp => Sys2Proof.Machine.execTemp s
  | .ltwr => Sys2Proof.Machine.execLtwr s
  | .ltrd => Sys2Proof.Machine.execLtrd s
  | .recal => Sys2Proof.Machine.execRecal s
  | .logrd => Sys2Proof.Machine.execLogrd s
  | .lmode => Sys2Proof.Machine.execLmode s
  | .flashWriteComplete => Sys2Proof.Machine.execFlashWriteComplete s
  | .lcZeroingComplete => Sys2Proof.Machine.execLcZeroingComplete s
  | .vddIoLoss => Sys2Proof.Machine.execVddIoLoss s

end Sys2Proof.Machine
end

