-- ==== Sys2Proof/Machine/Tick.lean ====
section
/-!
DEFINITION. What passes while no command waits: one cycle of the timeline clock (log entry 11).
-/
namespace Sys2Proof.Machine

/-- Units of 5·10⁻¹⁰ Tc in a Tc. -/
def tickUnit : Nat := 2000000000

/-- What one cycle of the timeline clock adds to device time, in those units: 4 Tc, the trim of the HOST source (R226)
and the slew of at most 100 ppm (R233). -/
def Timeline.gain (x : Timeline) (host : Bool) : Int :=
  4 * (tickUnit : Int) + (if host then 8 * x.trimPpb else 0) + clampInt (-800000) 800000 x.slew

/-- Device time advances by one cycle of the timeline clock (R225). -/
def Dev.passTime (d : Dev) : Dev :=
  let n : Nat := (d.tl.gain (d.tlSrc = 0) + (d.tl.frac : Int)).toNat
  { d with
    time := (d.time + n / tickUnit) % 2 ^ 64
    tl := { d.tl with before := d.time, frac := n % tickUnit, slew := d.tl.slew - clampInt (-800000) 800000 d.tl.slew } }

/-- One corrected block waiting for its write-back leaves its queue (R195). -/
def Dev.drainBack (d : Dev) : Dev := { d with str := { d.str with writeBack := d.str.writeBack.drop 1 } }

/-- SRAM requests of the engines that are not OFF lose banks (R102), and single-bit errors of their SRAM are corrected and
counted (R201): how many, the manual does not fix. -/
def Dev.bankConflicts (d : Dev) : Dev :=
  (upTo 32).foldl (fun d e =>
    if (d.eng e).st = .off then d
    else
      let (n, d) := d.fresh
      (d.bump .ENG_CNT_BANKCONF e 0 (Config.bankConf e n)).modEng e
        (fun x => { x with sramCe := x.sramCe + Config.sramCe e n })) d

/-- One cycle: always-on time runs, and with power the timeline too; peer ports begin the time comparisons that fall due. -/
def Dev.tick (d : Dev) : Dev :=
  powered (fun d => d.passTime.peerTimes.drainBack.bankConflicts) { d with aon := d.aon + 4 }

end Sys2Proof.Machine
end

