-- ==== Sys2Proof/Machine/Step.lean ====
section
/-!
DEFINITION. The step: the command at the front of the queue, and with none waiting one clock cycle.
-/
namespace Sys2Proof.Machine

/-- The front command runs with the queue's rest; an empty queue lets one cycle pass (log entry 11). -/
def step (s : State) : Host.Outcome State Fault Refusal :=
  match s.pending with
  | [] => .next (s.after Dev.tick)
  | i :: rest => exec i { s with pending := rest }

/-- The command a table word spells, put at the front of the queue; no row has bits, so none does. -/
def State.withFetchWord (s : State) (nbits w : Nat) : State :=
  match Sys2Proof.decodeTableWord nbits w with
  | some i => { s with pending := i :: s.pending }
  | none => s

end Sys2Proof.Machine
end

