-- ==== Sys2Proof/Safety.lean ====
section
/-!
DEFINITION. What counts as a safe run: no step is a fault or a refusal.
-/
namespace Sys2Proof.Machine

/-- Every command that waits is well formed. -/
def State.queueOk (s : State) : Bool := s.pending.all (·.wellFormed)

/-- The step goes on. -/
def State.goesOn (s : State) : Prop := ∃ t, step s = .next t

/-- `k` steps from `s` all go on. -/
def State.runsSafely (s : State) (k : Nat) : Prop := ∃ t, Sys2Proof.core.run k s = .next t

/-- The domains outside the always-on one have power. -/
@[reducible] def State.on (s : State) : Prop := s.dev.cp.powered = true

/-- Command `i` completes in `s`: `exec` answers the next state, whose queue is that of `s`, and whose device is the end of
a command (`Dev.finish`) that has brought the device to some `d` with `P d`. -/
def Completes (i : Instr) (s : State) (P : Dev → Prop) : Prop :=
  ∃ d : Dev, Sys2Proof.Machine.exec i s = .next { s with dev := s.dev.finish d } ∧ P d

/-- No engine is held at a FENCE, and MBX6 has no partner: the end of a command then only drives the pins, watches the
stream pool, and makes the collected changes in memory. -/
def Dev.calm (d : Dev) : Prop :=
  (∀ e, e < 32 → ∀ n s p a v t i m, (d.eng e).hold ≠ .fence n s p a v t i m) ∧ d.peers.mbxDev = none

/-- Entry `n`, in the version the active bank held then, has a firing instant `late` Tc ago that may be dispatched now: its carrier
timeline was enabled by then, nothing later has been dispatched, this timeline cycle has room, and no commit is pending. -/
@[reducible] def Dev.mayFire (d : Dev) (n late : Nat) : Prop :=
  late ≤ d.time ∧ d.ms.commit = none ∧ d.isFiring (d.entryAt n (d.time - late)) (d.time - late) = true ∧
  tget d.ms.enabled (MsEntry.ct (d.entryAt n (d.time - late))) 0 ≤ d.time - late ∧
  d.overtaken n (d.time - late) = false ∧ d.slotFree = true

/-- The device as the decode of word `w` on engine `e` finds it: its prefetch buffer filled, the word and the engine's
configuration taken. -/
def Dev.decoded (d : Dev) (e : Nat) (w : Tw) : Dev :=
  (d.refill e).setEng e { (d.refill e).eng e with cur := w, hold := .none, cfg := some ((d.refill e).reg .ENG_CFG e) }

/-- Engine `e` is about to decode task word `w` of its run `r`, `h` being what holds decoding: the word passes the checks of
decode, carries no label and ends neither the list nor a section, and no tile operation waits to issue. -/
@[reducible] def Dev.wordReady (d : Dev) (e : Nat) (r : Run) (w : Tw) (h : Hold := .none) : Prop :=
  (d.eng e).run = some r ∧ r.ended = false ∧ r.fail = none ∧ (d.eng e).hold = h ∧ usableRange (d.eng e).pc 32 = true ∧
  d.nextWord e = w ∧ (d.refill e).nextWord e = w ∧ twLbl w = false ∧ twEnd w = false ∧ twRet w = false ∧
  (d.eng e).issueq = [] ∧ (d.decoded e w).twError e w r.plc.bias (((d.eng e).pc - r.plc.list) / 32) = none

/-- Device `d` is `d0` but for its engines, registers, Tollgates, outputs and hub cache: what a task word that only queues work
touches, with the fetch of the words before it. -/
@[reducible] def Dev.queuedFrom (d0 d : Dev) : Prop :=
  d = { d0 with engs := d.engs, regs := d.regs, tgs := d.tgs, out := d.out, str := { d0.str with cache := d.str.cache } }

/-- Peer port `p` is up on a device that is ready and whose DEVNUM the header names, and the frame is of TYPE `typ`. -/
@[reducible] def Dev.peerTakes (d : Dev) (p typ : Nat) (h : PHdr) : Prop :=
  (d.peer p).st = .up ∧ d.cp.ready = true ∧ d.devnum = some h.dst ∧ h.typ = typ

/-- With power, the CP holds command `c`, of opcode `op` under header version 2, or 1. -/
@[reducible] def State.holds (s : State) (c : Cmd) (op : Nat) (v1 : Bool := false) : Prop :=
  s.on ∧ s.dev.cp.cur = some c ∧ c.v1 = v1 ∧ c.opcode = op

/-- The work of a command that ends later (R424): the mailbox is held until then unless the command is async. -/
def Cmd.job (c : Cmd) (num : Nat) : Job :=
  { opcode := c.opcode, mbx := c.mbx, v1 := c.v1, seq := c.seq, hostts := c.hostts, held := !c.async, payload := c.payload
    num }

/-- The CP with the job of `c` beside the others (R424). -/
def Cp.withJob (x : Cp) (c : Cmd) : Cp := { x with jobs := x.jobs ++ [c.job x.nextJob], nextJob := x.nextJob + 1 }

/-- Device `d` is `d0` once the CP has answered `c` with status `st` and `payload`: the response stands in the mailbox (R415,
R420–R423), which is DONE and has its bit 0 of INT_STAT set; what else changed are outputs, and, where the response is
for a partner of MBX6, a TAG or the messages that wait for a port to it. -/
def Dev.answersWith (d0 d : Dev) (c : Cmd) (st : Nat) (payload : List Byte := []) : Prop :=
  (∃ rest, d.mb c.mbx = { d0.mb c.mbx with
    rsp := respHeader c.v1 c.opcode st c.seq c.hostts payload.length ++ payload ++ rest, state := .done
    lastStatus := st, lastSeq := c.seq, rung := false, intStat := (d0.mb c.mbx).intStat ||| 1#5 }) ∧
  (∀ m, m ≠ c.mbx → d.mb m = d0.mb m) ∧
  d = { d0 with
    cp := { d0.cp with cur := none }, mbx := d.mbx, out := d.out
    peers := { d0.peers with nextTag := d.peers.nextTag, mbxOut := d.peers.mbxOut } }

/-- Device `d` is `d0` once the CP has begun the long work of `c` (R424): its job has joined the others, and an async command
has its PENDING answer. -/
def Dev.beginsJob (d0 d : Dev) (c : Cmd) : Prop :=
  (c.async = true →
    Dev.answersWith { d0 with cp := d0.cp.withJob c } d c 1) ∧
  (c.async = false → d = { d0 with cp := { d0.cp.withJob c with cur := none } })

end Sys2Proof.Machine
end

