-- ==== Sys2Proof/Certificates/Slice0/Obligations.lean ====
section
/-!
DEFINITION. The statements for the provers. `Completes i s P` (Safety.lean) says that `exec` answers the next state, which is
the end of a command (`Dev.finish`) that has brought the device to some `d` with `P d`; what the end of a command may still
change is said once, by `FinishKeepsTheRest` and `CalmFinishKeepsReports`. In a frame `d = { s.dev with a := d.a, b := d.b }`
every piece of the device but `a` and `b` is as it was.
-/
open Sys2Proof Sys2Proof.Machine

/-! ### The machine -/

/-- A step with a command at the front of the queue is that command's meaning with the queue's rest. -/
def Obligations.StepRunsFrontCommand : Prop :=
  ∀ (i : Instr) (rest : List Instr) (s : State),
    Sys2Proof.Machine.step { s with pending := i :: rest } = Sys2Proof.Machine.exec i { s with pending := rest }

/-- The model's choice (log entry 11): with no command waiting, one cycle of the timeline clock passes. Always-on time runs by 4 Tc;
with power, and no slew under way and no trim of a HOST source in force, device time runs by 4 Tc (R225). -/
def Obligations.EmptyQueueLetsOneCyclePass : Prop :=
  ∀ s : State, s.pending = [] →
    ∃ t, Sys2Proof.Machine.step s = .next t ∧ t.pending = [] ∧ t.dev.aon = s.dev.aon + 4 ∧
      (s.dev.cp.powered = false → t.dev.time = s.dev.time ∧ t.dev.tl = s.dev.tl) ∧
      (s.dev.cp.powered = true → s.dev.tl.slew = 0 → s.dev.tl.trimPpb = 0 → s.dev.tl.frac < tickUnit →
        t.dev.time = (s.dev.time + 4) % 2 ^ 64 ∧ t.dev.tl = { s.dev.tl with before := s.dev.time })

/-- Every command completes and leaves the queue's rest alone; nothing faults and nothing is turned away. The model's choice
(log entry 144): a command that is not well formed names nothing the device has, and has no effect of its own. -/
def Obligations.WellFormedCommandsComplete : Prop :=
  ∀ (i : Instr) (s : State), Completes i s fun d => i.wellFormed = false → d = s.dev

/-- Every step keeps device memory in its canonical form, and leaves no change waiting. -/
def Obligations.MemoryStaysCanonical : Prop :=
  ∀ s t : State, Memory.wf s.dev.mem = true → s.dev.wr = [] → Sys2Proof.Machine.step s = .next t →
    Memory.wf t.dev.mem = true ∧ t.dev.wr = []

/-- After every command ALERT_N and THERMTRIP_N stand as their causes say (R367, R376, R418). -/
def Obligations.PinsFollowTheirCauses : Prop :=
  ∀ s t : State, Sys2Proof.Machine.step s = .next t →
    (t.dev.cp.alert = true ↔
      t.dev.th.latched = true ∨ (∃ x ∈ t.dev.th.sensors, x.2.throt = true ∨ x.2.shut = true) ∨
        (t.dev.cp.powered = true ∧ ((t.dev.mb 7).intStat &&& (t.dev.mb 7).intEn) ≠ 0#5)) ∧
    (t.dev.cp.therm = true ↔ t.dev.th.tripped.isSome = true ∨ t.dev.th.latched = true)

/-- What the end of a command leaves of what the command did: everything but engines, registers, the log, mailboxes,
outputs with the TLPs that wait to leave, peer links, what waits at Tollgates, the hub cache's lines, the pool's watchdog, the
pins and memory. -/
def Obligations.FinishKeepsTheRest : Prop :=
  ∀ d0 d : Dev,
    (d0.finish d) = { d with
      engs := (d0.finish d).engs, regs := (d0.finish d).regs, wr := [], log := (d0.finish d).log
      mbx := (d0.finish d).mbx, out := (d0.finish d).out, peers := (d0.finish d).peers, mem := (d0.finish d).mem
      tgs := (d0.finish d).tgs, ports := { d.ports with tlps := (d0.finish d).ports.tlps }
      str := { d.str with wdogFrom := (d0.finish d).str.wdogFrom, cache := (d0.finish d).str.cache }
      cp := { d.cp with alert := (d0.finish d).cp.alert, therm := (d0.finish d).cp.therm, ppsOut := (d0.finish d).cp.ppsOut } }

/-- With no engine held at a FENCE and no partner of MBX6, the end of a command leaves those alone too, and makes in memory
the changes the command collected: every byte then reads as the command in progress read it. Of the outputs the TLPs go to
wait at Tollgate 52, behind those that wait there (R256), and no other Tollgate sees anything of it. -/
def Obligations.CalmFinishKeepsReports : Prop :=
  ∀ d0 d : Dev, d.calm →
    (d0.finish d).engs = d.engs ∧ (d0.finish d).regs = d.regs ∧ (d0.finish d).log = d.log ∧ (d0.finish d).mbx = d.mbx ∧
    (d0.finish d).out = d.out.filter (fun o => o.tlpOf.isNone) ∧
    (d0.finish d).ports.tlps = d.ports.tlps ++ d.out.reverse.filterMap (fun o => o.tlpOf.map (fun w => (w, o))) ∧
    (∀ n, n ≠ 52 → (d0.finish d).tg n = d.tg n) ∧ (d0.finish d).str.cache = d.str.cache ∧ (d0.finish d).peers = d.peers ∧ (d.wr = [] → (d0.finish d).mem = d0.mem) ∧
    (Memory.wf d0.mem = true → ∀ a, Memory.read (d0.finish d).mem a = Dev.rd { d with mem := d0.mem } a)

/-! ### The host port (R5, R7, R9, R27, R379, R381, R382, R418, R439) -/

/-- VF_FLR, PF_FLR, VF_ENABLE and HOST_LINK_TRAINED. A function-level reset ends that function's BAR2 accesses in
flight: their completions, which wait at Tollgate 52, never leave (R382). -/
def Obligations.FunctionResetsAndLink : Prop :=
  (∀ (s : State) (v : Nat), s.on → v < 4 → Completes (.vfFlr v) s fun d =>
    d.mb (1 + v) = mbxReset (1 + v) ∧ (∀ m, m ≠ 1 + v → d.mb m = s.dev.mb m) ∧
    d.ports.tlps = s.dev.ports.tlps.filter (fun t => t.2.accessOf != some (1 + v)) ∧
    d = { s.dev with
      mbx := d.mbx, ports := { s.dev.ports with tlps := d.ports.tlps }
      cp := { s.dev.cp with cur := s.dev.cp.cur.filter (fun c => c.mbx != 1 + v) } }) ∧
  (∀ s : State, s.on → Completes .pfFlr s fun d =>
    d.mb 0 = mbxReset 0 ∧ d.mb 5 = mbxReset 5 ∧ (∀ m, m ≠ 0 → m ≠ 5 → d.mb m = s.dev.mb m) ∧ d.cp.windows = [] ∧
    d.ports.tlps = s.dev.ports.tlps.filter (fun t => t.2.accessOf != some 0) ∧
    d = { s.dev with
      mbx := d.mbx, ports := { s.dev.ports with tlps := d.ports.tlps }
      cp := { s.dev.cp with windows := [], cur := d.cp.cur } }) ∧
  (∀ (s : State) (on : Bool), s.on → Completes (.vfEnable on) s fun d =>
    d = { s.dev with ports := { s.dev.ports with vfs := on } }) ∧
  (∀ (s : State) (rate width : Nat), s.on → okRate rate = true → okWidth width = true →
    s.dev.cp.perst = false → bit s.dev.cp.clocks 1 = true →
    Completes (.hostLinkTrained rate width) s fun d =>
      d.ports.host = some (if bit s.dev.cp.straps 2 then min 32 rate else rate, width) ∧
      (rate = 64 → width = 16 → bit s.dev.cp.straps 2 = false → d.log = s.dev.log) ∧
      ((rate < 64 ∨ width < 16 ∨ bit s.dev.cp.straps 2 = true) → d.log.written = s.dev.log.written + 1) ∧
      d = { s.dev with ports := d.ports, log := d.log, mbx := d.mbx, out := d.out })

/-- HOST_BAR2_READ, HOST_BAR2_WRITE and HOST_ATOMIC of the PF on DRAM that is ready: what completes, what is stored, and
where. A byte written reads back as written, every other byte as before. The access passes the hub cache and the Tollgates
before it. -/
def Obligations.Bar2ReachesMemory : Prop :=
  (∀ (s : State) (off n : Nat), s.on → s.dev.cp.dramReady = true → s.dev.wr = [] → 1 ≤ n → n ≤ 4096 →
    off + n ≤ 0x6000000000 → Completes (.hostBar2Read 0 off n none none) s fun d =>
      d.out = .bar2Data 0 off (s.dev.poisoned off n) ((List.range n).map (fun k => Memory.read s.dev.mem (off + k))) ::
        s.dev.out ∧
      d = { s.dev with out := d.out, tgs := d.tgs, str := { s.dev.str with cache := d.str.cache } }) ∧
  (∀ (s : State) (off : Nat) (data : List Byte), s.on → s.dev.cp.dramReady = true → s.dev.wr = [] →
    1 ≤ data.length → data.length ≤ 4096 → off + data.length ≤ 0x6000000000 →
    Completes (.hostBar2Write 0 off data none) s fun d =>
      (∀ k, k < data.length → d.rd (off + k) = data.getD k 0#8) ∧
      (∀ a, a < off ∨ off + data.length ≤ a → d.rd a = Memory.read s.dev.mem a) ∧
      d = { s.dev with
        wr := d.wr, tgs := d.tgs, str := { s.dev.str with poison := d.str.poison, cache := d.str.cache } }) ∧
  (∀ (s : State) (off val cmp : Nat) (cas : Bool), s.on → s.dev.cp.dramReady = true → s.dev.wr = [] →
    val < 2 ^ 64 → cmp < 2 ^ 64 → off % 8 = 0 → off + 8 ≤ 0x6000000000 → s.dev.poisoned off 8 = false →
    Completes (.hostAtomic 0 off cas val cmp) s fun d =>
      d.out = .atomicData 0 off (s.dev.rdLe off 8) false :: s.dev.out ∧
      d.rdLe off 8 = (if cas then (if s.dev.rdLe off 8 = cmp then val else s.dev.rdLe off 8)
        else (s.dev.rdLe off 8 + val) % 2 ^ 64) ∧
      (∀ a, a < off ∨ off + 8 ≤ a → d.rd a = Memory.read s.dev.mem a) ∧
      d = { s.dev with
        wr := d.wr, out := d.out, tgs := d.tgs
        str := { s.dev.str with poison := d.str.poison, cache := d.str.cache } })

/-- LO_READ, HI_READ, LO_WRITE and HI_WRITE: a read of a _LO half keeps the upper half for its requester, whose next read of
_HI returns it and empties the holding register; a _LO write is held, and a _HI write applies both halves (here of the spill
base, STRM_SPILL; the model's choice, log entry 172: while a context is armed, it changes nothing). -/
def Obligations.HalvesOfPairs : Prop :=
  (∀ (s : State) (fn off : Nat) (n h : RegName) (is js : List Nat), s.on → s.dev.cp.ready = true → okReg fn off = true →
    s.dev.fnOn fn = true → regAt (bar0 fn off) = some (n, is) → n.row.half = 1 → regAt (bar0 fn off + 4) = some (h, js) →
    Completes (.loRead fn off) s fun d =>
      d.out = .busData fn (bar0 fn off) (s.dev.value n is) :: s.dev.out ∧
      heldHalf d.holdR fn (lsaFold (bar0 fn off) + 4) = some (s.dev.value h js) ∧
      d = { s.dev with out := d.out, holdR := d.holdR }) ∧
  (∀ (s : State) (fn off : Nat) (n : RegName) (is : List Nat), s.on → s.dev.cp.ready = true → okReg fn off = true →
    s.dev.fnOn fn = true → regAt (bar0 fn off) = some (n, is) → n.row.half = 2 →
    Completes (.hiRead fn off) s fun d =>
      d.out = .busData fn (bar0 fn off)
        ((heldHalf s.dev.holdR fn (lsaFold (bar0 fn off))).getD (s.dev.value n is)) :: s.dev.out ∧
      heldHalf d.holdR fn (lsaFold (bar0 fn off)) = none ∧
      d = { s.dev with out := d.out, holdR := d.holdR }) ∧
  (∀ (s : State) (fn off v : Nat) (n : RegName) (is : List Nat), s.on → okReg fn off = true → v < 2 ^ 32 →
    s.dev.fnOn fn = true → s.dev.reaches fn (bar0 fn off) = true → regAt (bar0 fn off) = some (n, is) → n.row.half = 1 →
    n.row.rw ≠ 0 → Completes (.loWrite fn off v) s fun d =>
      heldHalf d.holdW fn (bar0 fn off + 4) = some v ∧ d = { s.dev with holdW := d.holdW }) ∧
  (∀ (s : State) (lo v : Nat), s.on → v < 2 ^ 32 → lo < 2 ^ 32 → s.dev.reaches 0 0x8000C = true →
    heldHalf s.dev.holdW 0 0x8000C = some lo → Completes (.hiWrite 0 0x8000C v) s fun d =>
      (s.dev.armedCtxs = [] →
        d.reg .STRM_SPILL_LO = (s.dev.reg .STRM_SPILL_LO &&& 0xFF) ||| (lo &&& 0xFFFFFF00) ∧
        d.reg .STRM_SPILL_HI = (s.dev.reg .STRM_SPILL_HI &&& 0xFFFFFF80) ||| (v &&& 0x7F)) ∧
      (s.dev.armedCtxs ≠ [] → d.regs = s.dev.regs) ∧
      heldHalf d.holdW 0 0x8000C = none ∧ d = { s.dev with regs := d.regs, holdW := d.holdW })

/-- RC_READ, W1C_WRITE, REGISTER_WRITE and BAD_WIDTH_ACCESS: a read of a counter returns it and clears it; a 1 written
clears its INT_STAT bit and a 0 leaves it; a plain register takes its RW bits and keeps the others; a host write outside
what R433 lets reach changes nothing and is logged; an access of another width has no effect but its log entry, and a read
completes with all ones. -/
def Obligations.PlainRegisterAccesses : Prop :=
  (∀ (s : State) (e : Nat), s.on → s.dev.cp.ready = true → e < 32 →
    Completes (.rcRead 0 (RegName.ENG_CNT_TW.off e)) s fun d =>
      d.out = .busData 0 (RegName.ENG_CNT_TW.off e) (s.dev.reg .ENG_CNT_TW e) :: s.dev.out ∧ d.reg .ENG_CNT_TW e = 0 ∧
      d = { s.dev with out := d.out, regs := d.regs }) ∧
  (∀ (s : State) (v : Nat), s.on → v < 2 ^ 32 → Completes (.w1cWrite 0 (RegName.MBX_INT_STAT.off 0) v) s fun d =>
    (d.mb 0).intStat = (s.dev.mb 0).intStat &&& ~~~(BitVec.ofNat 5 v) ∧
    d = { s.dev with mbx := tset s.dev.mbx 0 { s.dev.mb 0 with intStat := (d.mb 0).intStat } }) ∧
  (∀ (s : State) (e v : Nat), s.on → e < 32 → v < 2 ^ 32 → s.dev.reaches 0 (RegName.DEV_SKIPTHR.off e) = true →
    Completes (.registerWrite 0 (RegName.DEV_SKIPTHR.off e) v) s fun d =>
      d.reg .DEV_SKIPTHR e = (s.dev.reg .DEV_SKIPTHR e &&& 0xFFFF0000) ||| (v &&& 0xFFFF) ∧ d = { s.dev with regs := d.regs }) ∧
  (∀ (s : State) (fn off v : Nat), s.on → okReg fn off = true → v < 2 ^ 32 → s.dev.fnOn fn = true →
    s.dev.reaches fn (bar0 fn off) = false → Completes (.registerWrite fn off v) s fun d =>
      d.log.written = s.dev.log.written + 1 ∧ d = { s.dev with log := d.log, mbx := d.mbx, out := d.out }) ∧
  (∀ (s : State) (fn off : Nat) (isRead : Bool), s.on → okBar0 fn off = true → s.dev.fnOn fn = true →
    Completes (.badWidthAccess fn off isRead) s fun d =>
      d.log.written = s.dev.log.written + 1 ∧
      (isRead = true → d.out.head? = some (.busData fn (bar0 fn off) 0xFFFFFFFF)) ∧
      d = { s.dev with log := d.log, mbx := d.mbx, out := d.out })

/-- DOORBELL_RING, EVQ_CONS_WRITE and MBX_VER_WRITE (R415, R420, R431): a ring makes the mailbox BUSY for the CP, a ring while
BUSY only sets its interrupt bit; entries consumed leave the queue; the header version changes while not BUSY. -/
def Obligations.MailboxRegisters : Prop :=
  (∀ (s : State) (fn m v : Nat), s.on → okFnMbx fn m = true → v < 2 ^ 32 → v % 2 = 1 → s.dev.fnOn fn = true →
    s.dev.reaches fn (RegName.MBX_DOORBELL.off m) = true → s.dev.cp.ready = true → s.dev.resetOrdered = false →
    (s.dev.mb m).state ≠ .busy → Completes (.doorbellRing fn m v) s fun d =>
      d = s.dev.setMb m { s.dev.mb m with state := .busy, rung := true }) ∧
  (∀ (s : State) (fn m v : Nat), s.on → okFnMbx fn m = true → v < 2 ^ 32 → v % 2 = 1 → s.dev.fnOn fn = true →
    s.dev.reaches fn (RegName.MBX_DOORBELL.off m) = true → (s.dev.mb m).state = .busy →
    Completes (.doorbellRing fn m v) s fun d =>
      d.mb m = { s.dev.mb m with intStat := (s.dev.mb m).intStat ||| 0x10#5 } ∧ d = { s.dev with mbx := d.mbx, out := d.out }) ∧
  (∀ (s : State) (fn m n v : Nat), s.on → okFnMbx fn m = true → s.dev.fnOn fn = true →
    s.dev.reaches fn (RegName.MBX_EVQ_CONS.off m) = true → n ≤ (s.dev.mb m).evq.length → n < 2 ^ 31 →
    (s.dev.mb m).cons < 2 ^ 32 → v = ((s.dev.mb m).cons + n) % 2 ^ 32 → Completes (.evqConsWrite fn m v) s fun d =>
      d = s.dev.setMb m { s.dev.mb m with evq := (s.dev.mb m).evq.drop n, cons := v }) ∧
  (∀ (s : State) (fn m v : Nat), s.on → okFnMbx fn m = true → v < 2 ^ 32 → s.dev.fnOn fn = true →
    s.dev.reaches fn (RegName.MBX_CFG.off m) = true → Completes (.mbxVerWrite fn m v) s fun d =>
      ((s.dev.mb m).state ≠ .busy → v % 4 = 1 ∨ v % 4 = 2 → d = s.dev.setMb m { s.dev.mb m with ver := v % 4 }) ∧
      ((s.dev.mb m).state = .busy → d = s.dev))

/-- COMMAND_TAKE (R416): the CP takes the command of the mailbox that is next in order; MBX7 always is, once rung. A command
that passes the checks of its header, length, gaps and class is held for its own row, and nothing else has changed. -/
def Obligations.CommandIsTaken : Prop :=
  (∀ (s : State) (m : Nat) (r : CmdRow), s.on → s.dev.cp.ready = true → s.dev.cp.cur = none → s.dev.resetOrdered = false →
    s.dev.cp.recovery = false → s.dev.cp.standalone = false → s.dev.nextMbx = some m →
    cmdRow (s.dev.cmdIn m).v1 (s.dev.cmdIn m).opcode = some r → (s.dev.lenIn m).1 ≤ (s.dev.lenIn m).2 →
    (s.dev.lenIn m).1 = layLen 0 (r.lay (s.dev.cmdIn m).payload) →
    (∀ o ∈ layGaps 0 (r.lay (s.dev.cmdIn m).payload), (s.dev.cmdIn m).f o 1 = 0) →
    s.dev.permits m (classOfCmd (s.dev.cmdIn m) r) = true → (r.mfpv = true → s.dev.cp.lcState ≤ 1) →
    ((s.dev.cmdIn m).v1 = false → (s.dev.cmdIn m).opcode = 0x0106 → s.dev.cp.lcState = 0) →
    Completes .commandTake s fun d =>
      d = { s.dev.setMb m { s.dev.mb m with rung := false } with
        cp := { s.dev.cp with cur := some (s.dev.cmdIn m), lastServed := m } }) ∧
  (∀ d : Dev, (d.mb 7).rung = true → d.nextMbx = some 7)

/-- TILE_CFG_RATE_WRITE, LOCK_MODE_WRITE and TG_FREEZE_WRITE (R64, R269, R308): the register takes its RW bits, a change of
MODE is staged on the bound tile, and an invalid MODE is dropped with a log entry. -/
def Obligations.TileLockAndFreezeWrites : Prop :=
  (∀ (s : State) (lt v : Nat), s.on → lt < 128 → v < 2 ^ 32 →
    s.dev.reaches 0 (RegName.TILE_CFG.off (lt / 4) (lt % 4)) = true → Completes (.tileCfgRateWrite lt v) s fun d =>
      d.reg .TILE_CFG (lt / 4) (lt % 4) =
        (s.dev.reg .TILE_CFG (lt / 4) (lt % 4) &&& 0xFFF0F0CC) ||| (v &&& 0x000F0F33) ∧ d = { s.dev with regs := d.regs }) ∧
  (∀ (s : State) (lt v : Nat), s.on → lt < 128 → v < 2 ^ 32 →
    s.dev.reaches 0 (RegName.LOCK_CFG.off (lt / 4) (lt % 4)) = true → Completes (.lockModeWrite lt v) s fun d =>
      (v % 4 < 2 → s.dev.phys lt ≠ 0xFF →
        (d.pt (s.dev.phys lt)).modeNext = (if (s.dev.pt (s.dev.phys lt)).legacy = decide (v % 4 = 1) then none
          else some (decide (v % 4 = 1))) ∧ d.log = s.dev.log ∧
        d.reg .LOCK_CFG (lt / 4) (lt % 4) =
          (s.dev.reg .LOCK_CFG (lt / 4) (lt % 4) &&& 0xC0E00000) ||| (v &&& 0x3F1FFFFF)) ∧
      (2 ≤ v % 4 → d.log.written = s.dev.log.written + 1 ∧ d.regs = s.dev.regs ∧ d.ptiles = s.dev.ptiles) ∧
      d = { s.dev with regs := d.regs, ptiles := d.ptiles, log := d.log, mbx := d.mbx, out := d.out }) ∧
  (∀ (s : State) (n v : Nat), s.on → n < 54 → v < 2 ^ 32 → s.dev.reaches 0 (RegName.TG_CTRL.off n) = true →
    Completes (.tgFreezeWrite n v) s fun d =>
      d.rf .TG_CTRL 0 1 n = v % 2 ∧ d = { s.dev with regs := d.regs })

/-- AUX_RUN_WRITE, AUX_QDATA_WRITE and MADC_RUN_WRITE (R321, R322, R327): RUN set with a valid configuration starts the channel
afresh for the writer's mailbox, RUN cleared empties its queue; a code is appended to the queue, or sets OVF when 64 wait; RUN
of a stopped converter starts its regular sequence at entry 0, and clearing it between injected runs stops it. -/
def Obligations.ConverterRegisters : Prop :=
  (∀ (s : State) (rg ch v : Nat), s.on → rg < 8 → ch < 8 → v < 2 ^ 32 →
    s.dev.reaches 0 (RegName.DAC_AUX_CFG.off rg ch) = true → s.dev.auxRun rg ch = false → bit v 16 = true →
    auxValid (fld v 0 3) (fld v 4 2) (s.dev.rf .DAC_AUX_LIM 0 16 rg ch) (s.dev.rf .DAC_AUX_LIM 16 16 rg ch)
      (s.dev.rf .DAC_AUX_STEP 0 16 rg ch) = true →
    Completes (.auxRunWrite rg ch v) s fun d =>
      d.auxRun rg ch = true ∧ d.auxMode rg ch = fld v 0 3 ∧ (d.aux rg ch).begun = false ∧ (d.aux rg ch).mbx = 0 ∧
      (d.aux rg ch).queue = (s.dev.aux rg ch).queue ∧ d = { s.dev with regs := d.regs, rgs := d.rgs }) ∧
  (∀ (s : State) (rg ch v : Nat), s.on → rg < 8 → ch < 8 → v < 2 ^ 32 →
    s.dev.reaches 0 (RegName.DAC_AUX_CFG.off rg ch) = true → s.dev.auxRun rg ch = true → bit v 16 = false →
    fld v 0 3 = s.dev.rf .DAC_AUX_CFG 0 3 rg ch → fld v 4 2 = s.dev.rf .DAC_AUX_CFG 4 2 rg ch →
    Completes (.auxRunWrite rg ch v) s fun d =>
      d.auxRun rg ch = false ∧ (d.aux rg ch).queue = [] ∧ d = { s.dev with regs := d.regs, rgs := d.rgs }) ∧
  (∀ (s : State) (rg ch v : Nat), s.on → rg < 8 → ch < 9 → v < 2 ^ 32 →
    s.dev.reaches 0 (RegName.DAC_AUX_QDATA.off rg ch) = true → Completes (.auxQdataWrite rg ch v) s fun d =>
      ((s.dev.aux rg ch).queue.length < 64 → (d.aux rg ch).queue = (s.dev.aux rg ch).queue ++ [v % 65536]) ∧
      (64 ≤ (s.dev.aux rg ch).queue.length → d.rf .DAC_AUX_STATUS 2 1 rg ch = 1 ∧ (d.aux rg ch).queue = (s.dev.aux rg ch).queue) ∧
      d = { s.dev with regs := d.regs, rgs := d.rgs }) ∧
  (∀ (s : State) (rg c v : Nat), s.on → rg < 8 → c < 2 → v < 2 ^ 32 →
    s.dev.reaches 0 (RegName.MADC_C_CFG.off rg c) = true → Completes (.madcRunWrite rg c v) s fun d =>
      (v % 2 = 1 → s.dev.rf .MADC_C_CFG 0 1 rg c = 0 → (s.dev.madc rg c).st = 0 →
        (d.madc rg c).st = 1 ∧ (d.madc rg c).entry = 0) ∧
      (v % 2 = 0 → s.dev.rf .MADC_C_CFG 0 1 rg c = 1 → (s.dev.madc rg c).st = 1 → (d.madc rg c).st = 0) ∧
      d.rf .MADC_C_CFG 0 1 rg c = v % 2 ∧ d = { s.dev with regs := d.regs, rgs := d.rgs })

/-! ### Device time and Milestones (R225–R255, R385, R408, R409) -/

/-- MILESTONE_FIRING: a SNAPSHOT entry latches its instant, its position and the map's generation; an EVENT entry places one
event in each mailbox of its mask; one that is not due, out of order or beyond 8 of its cycle changes nothing; a late one
counts in MS_CNT_SLIP (R239–R242, R253).
COMMIT_EFFECT and DEFERRED_COPY: at B every changed entry of the mailbox's range that no other timeline's slot defers is
copied and no other; when nothing is left to copy the commit ends and GEN counts it (R244–R247). -/
def Obligations.MilestonesAndCommits : Prop :=
  (∀ (s : State) (n late : Nat) (m : MsEntry), s.on → n < 4096 → s.dev.mayFire n late → late ≤ 24 →
    s.dev.entryAt n (s.dev.time - late) = m → MsEntry.actions m = 0x20 →
    Completes (.milestoneFiring n late) s fun d =>
      tget d.ms.snaps (MsEntry.snapsel m) {} =
        { ts := s.dev.time - late, pos := s.dev.posAt (MsEntry.ct m) (s.dev.time - late) + MsEntry.ct m
          tmap := s.dev.tmapGen } ∧
      d = { s.dev with
        ms := { s.dev.ms with snaps := d.ms.snaps, last := some (s.dev.time - late, n), cycle := d.ms.cycle }
        engs := d.engs }) ∧
  (∀ (s : State) (n late : Nat) (m : MsEntry), s.on → n < 4096 → s.dev.mayFire n late → late ≤ 24 →
    s.dev.entryAt n (s.dev.time - late) = m → MsEntry.actions m = 0x40 →
    (∀ b, b < 8 → (s.dev.mb b).evq.length < 256) → Completes (.milestoneFiring n late) s fun d =>
      (∀ b, b < 8 → (d.mb b).evq.length = (s.dev.mb b).evq.length + (if bit (MsEntry.mbxmask m) b then 1 else 0)) ∧
      d = { s.dev with
        ms := { s.dev.ms with last := some (s.dev.time - late, n), cycle := d.ms.cycle }
        mbx := d.mbx, out := d.out, engs := d.engs }) ∧
  (∀ (s : State) (n late : Nat), s.on → n < 4096 → s.dev.ms.commit = none →
    (s.dev.isFiring (s.dev.entryAt n (s.dev.time - late)) (s.dev.time - late) = false ∨
      s.dev.overtaken n (s.dev.time - late) = true ∨ s.dev.slotFree = false) →
    Completes (.milestoneFiring n late) s fun d => d = s.dev) ∧
  (∀ (s : State) (n late : Nat) (m : MsEntry), s.on → n < 4096 → s.dev.mayFire n late → 24 < late →
    s.dev.entryAt n (s.dev.time - late) = m → MsEntry.actions m = 0x20 →
    Completes (.milestoneFiring n late) s fun d =>
      d.reg .MS_CNT_SLIP = min 0xFFFFFFFF (s.dev.reg .MS_CNT_SLIP + 1)) ∧
  (∀ (s : State) (c : Commit), s.on → s.dev.ms.commit = some c → c.copied = false → c.b ≤ s.dev.time → c.deferred = [] →
    (∀ n ∈ s.dev.changedEntries c.mbx, s.dev.deferTo c.ct c.b n = none) → Completes .commitEffect s fun d =>
      (∀ n, d.msActive n = if s.dev.inDomain c.mbx n then s.dev.msShadow n else s.dev.msActive n) ∧
      d.ms.shadow = s.dev.ms.shadow ∧ d.ms.commit = none ∧ d.ms.gen = (s.dev.ms.gen + 1) % 2 ^ 32 ∧
      d = { s.dev with ms := d.ms, mbx := d.mbx, out := d.out }) ∧
  (∀ s : State, s.on → (∀ c, s.dev.ms.commit = some c → s.dev.time < c.b) → Completes .commitEffect s fun d => d = s.dev) ∧
  (∀ (s : State) (c : Commit), s.on → s.dev.ms.commit = some c → c.copied = true →
    (∀ p ∈ c.deferred, p.2 ≤ s.dev.time) → Completes .deferredCopy s fun d =>
      (∀ p ∈ c.deferred, d.msActive p.1 = s.dev.msShadow p.1) ∧
      (∀ n, (∀ p ∈ c.deferred, p.1 ≠ n) → d.msActive n = s.dev.msActive n) ∧
      d.ms.commit = none ∧ d.ms.gen = (s.dev.ms.gen + 1) % 2 ^ 32 ∧ d = { s.dev with ms := d.ms, mbx := d.mbx, out := d.out })

/-- PHASE_MEASUREMENT, SOURCE_LOSS, SOURCE_RETURN and HOLD_MAX_EXPIRY under PTP (R231–R233), a measurement being that of the last
complete exchange (R227; the model's choice, log entry 208: with `sub` for what lies below its Tc): the eighth good measurement of
a device that has been locked locks it again; a measurement within the threshold slews and leaves the count; one beyond it,
without AUTO, asks for a step; a loss turns LOCKED into HOLDOVER, and a return or the end of HOLD_MAX that into ACQUIRING.
PTP_MESSAGE: a Delay_Resp of the master completes the exchange; ESMC_RECEIVE, ESMC_SEND, PPS_IN_EDGE, PPS_OUT_EDGE and PPS_CHECK (R227–R229, R386, R408, R409). -/
def Obligations.TimeKeeping : Prop :=
  (∀ (s : State) (x : Nat × Nat × Nat × Nat) (sub off : Int), s.on → -8 ≤ sub → sub < 8 → s.dev.tlSrc = 1 →
    s.dev.tl.srcPresent = true → s.dev.tl.ptp.exchange = some x → off = exchangeOffset x + sub → -1572 ≤ off → off ≤ 1572 →
    s.dev.tl.everLocked = true → s.dev.tl.state = .acquiring → 7 ≤ s.dev.tl.good →
    Completes (.phaseMeasurement sub) s fun d =>
      d.tl.state = .locked ∧ d.tl.slew = off * 125000000 ∧ d.tl.offset = off ∧ d.time = s.dev.time ∧
      d = { s.dev with tl := d.tl, mbx := d.mbx, out := d.out }) ∧
  (∀ (s : State) (x : Nat × Nat × Nat × Nat) (sub off : Int), s.on → -8 ≤ sub → sub < 8 → s.dev.tlSrc = 1 →
    s.dev.tl.srcPresent = true → s.dev.tl.ptp.exchange = some x → off = exchangeOffset x + sub →
    s.dev.tl.state = .locked → s.dev.tl.everLocked = true → s.dev.rf .TL_CFG 12 1 = 0 →
    Completes (.phaseMeasurement sub) s fun d =>
      d = { s.dev with tl := { s.dev.tl with
        ptp := { s.dev.tl.ptp with exchange := none }
        offset := clampInt (-(2 ^ 31)) (2 ^ 31 - 1) off, slew := off * 125000000
        good := (if -1572 ≤ off ∧ off ≤ 1572 then min 8 (s.dev.tl.good + 1) else 0)
        stepReq := decide (((max 1 (s.dev.rf .TL_CFG 16 8) : Nat) : Int) * 3145728 < off * 100) } }) ∧
  (∀ s : State, s.on → s.dev.tlSrc = 1 ∨ s.dev.tlSrc = 2 → s.dev.tl.state = .locked → Completes .sourceLoss s fun d =>
    d.tl.state = .holdover ∧ d.tl.holdFrom = s.dev.aon ∧ d.tl.srcPresent = false ∧ d.log.written = s.dev.log.written + 1 ∧
    d = { s.dev with tl := d.tl, log := d.log, mbx := d.mbx, out := d.out }) ∧
  (∀ s : State, s.on → s.dev.tlSrc = 1 ∨ s.dev.tlSrc = 2 → s.dev.tl.state = .holdover → s.dev.tl.everLocked = true →
    Completes .sourceReturn s fun d =>
      d.tl.state = .acquiring ∧ d.tl.srcPresent = true ∧ d.ports.outq = [] ∧
      (∀ p x, (p, x) ∈ d.ports.fh → x.st ≠ .up) ∧
      d = { s.dev with tl := d.tl, ports := d.ports, regs := d.regs, mbx := d.mbx, out := d.out }) ∧
  (∀ s : State, s.on → s.dev.tl.state = .holdover → s.dev.rf .TL_CFG 24 8 ≠ 0 →
    s.dev.tl.holdFrom + s.dev.rf .TL_CFG 24 8 * tcPerSec ≤ s.dev.aon → Completes .holdMaxExpiry s fun d =>
    d.tl.state = .acquiring ∧ d = { s.dev with tl := d.tl, ports := d.ports, regs := d.regs, mbx := d.mbx, out := d.out }) ∧
  (∀ (s : State) (p kind domain lag src seq time : Nat) (two : Bool) (data : List Byte), s.on →
    Instr.wellFormed (.ptpMessage p kind domain lag src seq two time data) = true → s.dev.tlSrc = 1 →
    p = s.dev.rf .TL_CFG 4 3 → domain = s.dev.tl.ptpDomain → ptpTaken kind = true → (s.dev.fh p).link = true →
    Completes (.ptpMessage p kind domain lag src seq two time data) s fun d =>
      (∀ t1 t2 t3 r, kind = 9 → s.dev.ptpUnicast = false → s.dev.tl.ptp.master = some src →
        s.dev.tl.ptp.sync = some (r, t2, some t1) → s.dev.tl.ptp.request = some (seq, t3) →
        d.tl.ptp.exchange = some (t1, t2, t3, time)) ∧
      d = { s.dev with
        tl := { s.dev.tl with ptpSeen := (kind, s.dev.time - lag) :: s.dev.tl.ptpSeen, ptp := d.tl.ptp }, out := d.out }) ∧
  (∀ (s : State) (p ql : Nat), s.on → p < 8 → ql < 256 → s.dev.rf .TL_CFG 7 1 = 1 → p = s.dev.rf .TL_CFG 4 3 →
    (s.dev.fh p).link = true → Completes (.esmcReceive p ql) s fun d =>
      d = { s.dev with tl := { s.dev.tl with esmcQl := some ql } }) ∧
  (∀ s : State, s.on → Completes .esmcSend s fun d =>
    d.out = ((List.range 8).filter (fun p => (s.dev.fh p).link)).reverse.map (fun p => .esmc p 0xF) ++ s.dev.out ∧
    d = { s.dev with out := d.out }) ∧
  (∀ (s : State) (lag : Nat), s.on → Instr.wellFormed (.ppsInEdge lag) = true → s.dev.tlSrc = 2 →
    s.dev.tl.ppsLast = none → Completes (.ppsInEdge lag) s fun d =>
    d.tl.ppsLast = some (s.dev.tl.ppsLabel.getD
      ((((s.dev.time : Int) - lag - s.dev.rf .PRT_TIMING_CFG 0 16) / tcPerSec + 1).toNat * tcPerSec)) ∧
    d.tl.ppsLabel = none ∧ d.tl.ppsInAt = some ((s.dev.time : Int) - lag - s.dev.rf .PRT_TIMING_CFG 0 16) ∧
    d = { s.dev with tl := d.tl }) ∧
  (∀ s : State, s.on → s.dev.rf .TL_CFG 13 1 = 1 → s.dev.timeLocked = true →
    (s.dev.time + s.dev.rf .PRT_TIMING_CFG 16 16 + 2) % tcPerSec ≤ 4 → Completes .ppsOutEdge s fun d =>
      d = { s.dev with out := .ppsOut s.dev.time :: s.dev.out, tl := { s.dev.tl with ppsEdge := some s.dev.time } }) ∧
  (∀ (s : State) (n10 n25 : Nat), s.on → Completes (.ppsCheck n10 n25) s fun d =>
    (d.tl.ppsOk = true ↔ bit s.dev.cp.clocks 4 = true ∧ 0 < n25 ∧
      (5 * (n10 : Int) - 2 * n25).natAbs * 100000 ≤ 2 * n25 ∧ ∃ a g, s.dev.tl.ppsInAt = some a ∧ s.dev.tl.ppsGap = some g ∧
        (g - (tcPerSec : Int)).natAbs ≤ 1966 ∧ (s.dev.time : Int) - a ≤ tcPerSec + 1966) ∧ d = { s.dev with tl := { s.dev.tl with ppsOk := d.tl.ppsOk } })

/-! ### Heat (R90, R91, R362–R376) -/

/-- THERMAL_SAMPLE, with or without power: temperatures that set no level are kept and nothing is logged; a sensor that
reads its shutdown value a second time in succession trips the device (R365–R368, R374). TRIP_POWER_OFF, THERMAL_RESTART,
THROTTLE_ESCALATE and THROTTLE_RELEASE (R370, R371, R374–R376, R439). -/
def Obligations.ThermalManagement : Prop :=
  (∀ (s : State) (g : Nat) (readings : List Int), g < 13 → readings.length = groupSize g →
    (∀ n ∈ groupSensors g, s.dev.sensor n = {}) →
    (∀ r ∈ readings, coldClr < r ∧ ∀ c, c < 4 → r < s.dev.warnSet c ∧ r < s.dev.throtSet c ∧ r < shutSet c) →
    Completes (.thermalSample g readings) s fun d =>
      (∀ p ∈ (groupSensors g).zip readings, (d.sensor p.1).temp = p.2 ∧ (d.sensor p.1).fault = false ∧
        (d.sensor p.1).warn = false ∧ (d.sensor p.1).throt = false ∧ (d.sensor p.1).shut = false) ∧
      d.log = s.dev.log ∧ d.th.steps = s.dev.th.steps ∧ d.th.tripped = s.dev.th.tripped) ∧
  (∀ (s : State) (g : Nat) (readings : List Int) (n : Nat) (r : Int), g < 13 → readings.length = groupSize g →
    (n, r) ∈ (groupSensors g).zip readings → (s.dev.sensor n).fault = false → (s.dev.sensor n).shut = false →
    (s.dev.sensor n).shutN = 1 → r ≠ (s.dev.sensor n).temp → shutSet (sensorClass n) ≤ r → r ≤ 2400 →
    Completes (.thermalSample g readings) s fun d =>
      d.th.tripped.isSome = true ∧ (d.sensor n).shut = true ∧ s.dev.log.written < d.log.written + 1) ∧
  (∀ (s : State) (t : Nat), s.dev.th.tripped = some t → t + 19661 ≤ s.dev.aon → Completes .tripPowerOff s fun d =>
    d.cp.powered = false ∧ d.engs = [] ∧ d.ptiles = [] ∧ d.mbx = [] ∧ d.tmap = [] ∧ d.ports.host = none ∧
    d.th = s.dev.th ∧ d.log = s.dev.log ∧ d.aon = s.dev.aon) ∧
  (∀ (s : State) (straps t : Nat), straps < 16 → s.dev.th.tripped = some t → t + 10 * tcPerSec ≤ s.dev.aon →
    s.dev.cp.powered = false →
    s.dev.th.latched = false → s.dev.cp.pwrgd = true →
    (∀ n, n < 96 → (s.dev.sensor n).fault = true ∨ (s.dev.sensor n).temp < restartBelow (sensorClass n)) →
    Completes (.thermalRestart straps) s fun d =>
      d.cp.powered = true ∧ d.cp.rstCause = 5 ∧ d.cp.straps = straps ∧ d.th.tripped = none ∧ d.th.total = s.dev.th.total ∧
      d.th.trips = s.dev.th.trips ∧ s.dev.log.written < d.log.written ∧ d.engs = [] ∧ d.ptiles = []) ∧
  (∀ (s : State) (g : Nat), s.on → g < 13 → (∃ n ∈ groupSensors g, (s.dev.sensor n).throt = true ∧ n ∉ (tget s.dev.th.srcs g {}).below ∧
      (s.dev.sensor n).fault = false ∧ s.dev.throtSet (sensorClass n) ≤ (s.dev.sensor n).temp) →
    (∀ p ∈ (groupSensors g).zip (tget s.dev.th.srcs g {}).readings, p.2 - (s.dev.sensor p.1).temp < 8) →
    (tget s.dev.th.srcs g {}).readings.length = (groupSensors g).length → tget s.dev.th.steps g 0 < 8 →
    (tget s.dev.th.srcs g {}).from_ + max 1 (fld s.dev.th.intervals 8 8) * subframeTc ≤ s.dev.aon →
    Completes (.throttleEscalate g) s fun d =>
      tget d.th.steps g 0 = tget s.dev.th.steps g 0 + 1 ∧
      d.reg .THM_CNT_THROT = min 0xFFFFFFFF (s.dev.reg .THM_CNT_THROT + 1) ∧ d = { s.dev with th := d.th, regs := d.regs }) ∧
  (∀ (s : State) (g : Nat), s.on → g < 13 → (∀ n ∈ groupSensors g, (s.dev.sensor n).throt = false) →
    0 < tget s.dev.th.steps g 0 → s.dev.classLost g = false →
    (tget s.dev.th.srcs g {}).from_ + max 1 (fld s.dev.th.intervals 0 8) * subframeTc ≤ s.dev.aon →
    Completes (.throttleRelease g) s fun d =>
      tget d.th.steps g 0 = tget s.dev.th.steps g 0 - 1 ∧
      d = { s.dev with th := { s.dev.th with steps := d.th.steps, srcs := d.th.srcs } })

/-- DITHER_CHIP and QUIET_PERIOD_LIMIT: at a chip boundary each tile's next chip becomes the present one, a quiet period that was
asked for begins on a locked tile, and one that was to stop ends; the limit ends a quiet period at the next boundary
(R90, R91, R372). -/
def Obligations.ChipsAndQuietPeriods : Prop :=
  (∀ s : State, s.on → s.dev.th.chip ≠ some (s.dev.time / chipTc) → Completes .ditherChip s fun d =>
    (∀ p, p < 136 → (d.pt p).actNow = (s.dev.pt p).actNext ∧ (d.pt p).actNext = 0 ∧ (s.dev.pt p).actNow ≤ (d.pt p).actPrev ∧
      ((s.dev.pt p).quietStop = true → (d.pt p).quietFrom = none ∧ (d.pt p).quietEnd = some s.dev.time) ∧
      ((s.dev.pt p).quietStop = false → (s.dev.pt p).quietAsk = true → (s.dev.pt p).lock = .locked →
        (s.dev.pt p).quietFrom = none → (d.pt p).quietFrom = some s.dev.time)) ∧
    d = { s.dev with ptiles := d.ptiles, th := { s.dev.th with chip := some (s.dev.time / chipTc) } }) ∧
  (∀ (s : State) (p q : Nat), s.on → p < 136 → (s.dev.pt p).quietFrom = some q → q + 2 * subframeTc ≤ s.dev.time →
    Completes (.quietPeriodLimit p) s fun d =>
    d = s.dev.setPt p { s.dev.pt p with quietStop := true })

/-! ### The ring lock (R275–R310, R461) -/

/-- SAMPLE_WINDOW_END, ESTIMATES_READY and TEMP_REFRESH: a window leaves its estimates for the law, none where it is held, beside
its dark lines; they become the errors of the rings (R279–R281); the tile's temperature is the reading of its region's sensor, or
of the next sensor while that one is faulted (R286, R363). Other tiles stay. -/
def Obligations.LockWindows : Prop :=
  (∀ (s : State) (p : Nat) (mons taps outs : List Nat), s.on → p < 136 →
    (s.dev.pt p).lock ≠ .off → (s.dev.pt p).lock ≠ .faulted → windowTc ≤ s.dev.time →
    Completes (.sampleWindowEnd p mons taps outs) s fun d =>
      ((d.pt p).est.map (fun e => e.1)) = some (s.dev.time / windowTc * windowTc) ∧
      ((d.pt p).est.map (fun e => e.2.2)) = some ((upTo 64).filter (fun j => 8 * min (taps.getD j 0) 262080 < Config.tapFull p j)) ∧
      (s.dev.windowHeld p (s.dev.time / windowTc * windowTc - windowTc) = true →
        ((d.pt p).est.map (fun e => e.2.1)) = some []) ∧
      (d.pt p).duty = (s.dev.pt p).winAct ∧ (d.pt p).winAct = 0 ∧ (d.pt p).lock = (s.dev.pt p).lock ∧
      (∀ q, q ≠ p → d.pt q = s.dev.pt q) ∧ d = { s.dev with ptiles := d.ptiles, regs := d.regs }) ∧
  (∀ (s : State) (p w1 : Nat) (es : Tbl Int) (dk : List Nat), s.on → p < 136 →
    (s.dev.pt p).est = some (w1, es, dk) → (s.dev.pt p).lock ≠ .locked → (s.dev.pt p).lock ≠ .relock →
    (s.dev.pt p).lock ≠ .legacy → (s.dev.pt p).sweepFull = false → (s.dev.pt p).sweepLocal = false →
    Completes (.estimatesReady p) s fun d =>
      (d.pt p).err = es ∧ (d.pt p).errAt = w1 ∧ (d.pt p).errOld = (s.dev.pt p).err ∧ (d.pt p).est = none ∧
      (d.pt p).lock = (s.dev.pt p).lock ∧
      (∀ q, q ≠ p → d.pt q = s.dev.pt q) ∧ d = { s.dev with ptiles := d.ptiles }) ∧
  (∀ (s : State) (p : Nat), s.on → p < 136 →
    (s.dev.sensor (8 * (regionOfP p / 2) + 4 + 2 * (regionOfP p % 2))).fault = false →
    Completes (.tempRefresh p) s fun d =>
      (d.pt p).temp = some (s.dev.sensor (8 * (regionOfP p / 2) + 4 + 2 * (regionOfP p % 2))).temp ∧
      (∀ q, q ≠ p → d.pt q = s.dev.pt q) ∧ d = { s.dev with ptiles := d.ptiles }) ∧
  (∀ (s : State) (p : Nat), s.on → p < 136 →
    (s.dev.sensor (8 * (regionOfP p / 2) + 4 + 2 * (regionOfP p % 2))).fault = true →
    Completes (.tempRefresh p) s fun d =>
      (d.pt p).temp = some (s.dev.sensor (8 * (regionOfP p / 2) + 4 + 2 * (regionOfP p % 2) + 1)).temp ∧
      (∀ q, q ≠ p → d.pt q = s.dev.pt q) ∧ d = { s.dev with ptiles := d.ptiles })

/-- PATCH_SAMPLE, PATCH_DEADLINE_MISS and COEF_REWRITE: in its own chip slot, a patch of a running loop writes heater codes of 12
bits and clears its misses; in a full sweep each ring steps towards the top of its range by at most 16 codes, and on a faulted
tile each heater towards its park code; a missed deadline is counted, and the fourth in succession ends the lock of a locked tile;
a coefficient that failed is rewritten (R282–R294, R301, R313, R461). -/
def Obligations.PatchSamples : Prop :=
  (∀ (s : State) (p q ce c : Nat), s.on → p < 136 → q < 64 → ce ≤ 1 → s.dev.freeSlot p q = some c →
    (s.dev.pt p).loop = true → (s.dev.pt p).parking = false → ((s.dev.pt p).sampleErr q c).isSome = true →
    Completes (.patchSample p q ce none) s fun d =>
      tfind (d.pt p).miss q = none ∧ tget (d.pt p).ran q 0 = c + 1 ∧
      (tfind (d.pt p).xhat q).isSome = true ∧ (tfind (d.pt p).xbar q).isSome = true ∧
      (∀ k, k < 64 → (s.dev.pt p).out (patchRing q k) = false → tget (d.pt p).htr (patchRing q k) 0 < 4096) ∧
      (∀ t, t ≠ p → d.pt t = s.dev.pt t) ∧ d = { s.dev with ptiles := d.ptiles }) ∧
  (∀ (s : State) (p q ce c : Nat) (ue : Option Nat), s.on → p < 136 → q < 64 → s.dev.freeSlot p q = some c →
    (s.dev.pt p).lock = .sweep → (s.dev.pt p).acq.phase = 0 → (s.dev.pt p).parking = false →
    Completes (.patchSample p q ce ue) s fun d =>
      (∀ k, k < 64 → (s.dev.pt p).acq.rings.contains (patchRing q k) = true →
        ∀ g, g < 4096 → tfind (s.dev.pt p).acq.goal (patchRing q k) = some g →
          tget (d.pt p).htr (patchRing q k) 0 =
            (towards (tget (s.dev.pt p).htr (patchRing q k) 0 : Nat) (g : Int) 16).toNat) ∧
      (d.pt p).lock = .sweep ∧ (∀ t, t ≠ p → d.pt t = s.dev.pt t) ∧ d = { s.dev with ptiles := d.ptiles }) ∧
  (∀ (s : State) (p q ce c : Nat) (ue : Option Nat), s.on → p < 136 → q < 64 → s.dev.freeSlot p q = some c →
    (s.dev.pt p).lock = .faulted → Completes (.patchSample p q ce ue) s fun d =>
      (∀ k, k < 64 → tget (d.pt p).htr (patchRing q k) 0 =
        (if tget (s.dev.pt p).htr (patchRing q k) 0 < s.dev.park p (patchRing q k)
          then min (s.dev.park p (patchRing q k)) (tget (s.dev.pt p).htr (patchRing q k) 0 + 16)
          else max (s.dev.park p (patchRing q k)) (tget (s.dev.pt p).htr (patchRing q k) 0 - 16))) ∧
      d = { s.dev with ptiles := d.ptiles }) ∧
  (∀ (s : State) (p q c : Nat), s.on → p < 136 → q < 128 → s.dev.freeSlot p q = some c → (s.dev.pt p).loop = true →
    (tget (s.dev.pt p).miss q 0 < 3 ∨ (s.dev.pt p).lock ≠ .locked) →
    (q = 0 → ((s.dev.pt p).sampleErr 0 c).isSome = true ∨ (s.dev.pt p).lock ≠ .locked) →
    Completes (.patchDeadlineMiss p q) s fun d =>
      tget (d.pt p).miss q 0 = tget (s.dev.pt p).miss q 0 + 1 ∧ (d.pt p).dlmiss = true ∧ tget (d.pt p).ran q 0 = c + 1 ∧
      (d.pt p).lock = (s.dev.pt p).lock ∧ d = { s.dev with ptiles := d.ptiles, regs := d.regs }) ∧
  (∀ (s : State) (p q c : Nat), s.on → p < 136 → q < 64 → s.dev.freeSlot p q = some c →
    (s.dev.pt p).lock = .locked → tget (s.dev.pt p).miss q 0 = 3 →
    (q = 0 → ((s.dev.pt p).sampleErr 0 c).isSome = true) →
    (s.dev.pt p).losses = [] → (s.dev.pt p).quietFrom = none → s.dev.logicalOf p = none → (s.dev.rgn (regionOfP p)).swap = none →
    Completes (.patchDeadlineMiss p q) s fun d =>
      (d.pt p).lock = .relock ∧ (d.pt p).losses = [s.dev.time] ∧
      (d.pt p).lastLoss = some (2, 8 * (q / 8), 8 * (q % 8), 0, (s.dev.pt p).lastGood) ∧
      d.log.written = s.dev.log.written + 1) ∧
  (∀ (s : State) (p w : Nat), s.on → p < 136 → (s.dev.pt p).coefBad = some w → Completes (.coefRewrite p) s fun d =>
    d = s.dev.setPt p { s.dev.pt p with coefAt := some s.dev.time })

/-- A full acquisition, step by step: SOFT_START_COMPLETE, THERMAL_SETTLE_END, SWEEP_TOOTH_END, CAPTURE_END and the
IDENTITY_CHECK_END that confirms the last ring on its own line (R292, R296, R299–R303). -/
def Obligations.AcquisitionSteps : Prop :=
  (∀ (s : State) (p : Nat), s.on → p < 136 → (s.dev.pt p).lock = .ramp → (s.dev.pt p).h0 = [] →
    Completes (.softStartComplete p) s fun d =>
    (d.pt p).lock = .settle ∧ (d.pt p).since = s.dev.time ∧ (d.pt p).ramping = false ∧ (d.pt p).htr = (s.dev.pt p).htr) ∧
  (∀ (s : State) (p : Nat), s.on → p < 136 → (s.dev.pt p).lock = .settle → (s.dev.pt p).since + settleTc ≤ s.dev.time →
    Completes (.thermalSettleEnd p) s fun d =>
    (d.pt p).lock = .sweep ∧ (d.pt p).since = s.dev.time ∧ (d.pt p).acq.full = true ∧ (d.pt p).acq.rings = allRings ∧
    (∀ r, r < 4160 → tget (d.pt p).htr r 0 = s.dev.park p r - 1536 ∧
      tfind (d.pt p).acq.goal r = some (min 4095 (s.dev.park p r + 1536))) ∧
    d = { s.dev with ptiles := d.ptiles }) ∧
  (∀ (s : State) (p : Nat) (code : Nat → Nat), s.on → p < 136 →
    (s.dev.pt p).lock = .sweep → (s.dev.pt p).acq.phase = 0 → (s.dev.pt p).arrived = true →
    (∀ r ∈ (s.dev.pt p).acq.rings, nearestFound (s.dev.pt p).acq.found r (s.dev.park p r) = some (code r)) →
    Completes (.sweepToothEnd p) s fun d =>
      (d.pt p).lock = .capture ∧ (d.pt p).acq.from_ = s.dev.time ∧ (d.pt p).acq.rings = [] ∧
      (∀ r ∈ (s.dev.pt p).acq.rings, tget (d.pt p).htr r 0 = code r) ∧
      (∀ r, r ∉ (s.dev.pt p).acq.rings → tget (d.pt p).htr r 0 = tget (s.dev.pt p).htr r 0) ∧
      d = { s.dev with ptiles := d.ptiles }) ∧
  (∀ (s : State) (p : Nat), s.on → p < 136 → (s.dev.pt p).lock = .capture → (s.dev.pt p).acq.again = false →
    (s.dev.pt p).acq.todo = [] → (s.dev.pt p).acq.from_ + captureTc ≤ s.dev.time → Completes (.captureEnd p) s fun d =>
    (d.pt p).lock = .identity ∧ (d.pt p).since = s.dev.time ∧ (d.pt p).mlev = pilotLev 0 ∧
    (d.pt p).acq = { (s.dev.pt p).acq with
      phase := 0, todo := (upTo 4096).map (fun r => (r, (2, 0))), from_ := s.dev.time, wins := 0, corr := [] } ∧
    d = { s.dev with ptiles := d.ptiles }) ∧
  (∀ (s : State) (p : Nat), s.on → p < 136 → (s.dev.pt p).lock = .identity → (s.dev.pt p).legacy = false →
    (s.dev.pt p).acq.moving = [] → 64 ≤ (s.dev.pt p).acq.wins →
    (∀ t ∈ (s.dev.pt p).acq.todo, t.2.1 ≤ 1 ∧ foundLine (tget (s.dev.pt p).acq.corr t.1 (0, 0, 0)) = some 0) →
    s.dev.logicalOf p = none → s.dev.cp.jobs = [] →
    Completes (.identityCheckEnd p) s fun d =>
      (d.pt p).lock = .locked ∧ (d.pt p).since = s.dev.time ∧ (d.pt p).lastGood = (s.dev.pt p).lastGood ∧ (d.pt p).acq = {} ∧
      d = { s.dev with ptiles := d.ptiles })

/-- A wrong line, a local sweep, and legacy table mode: WRONG_LINE_MOVE_DONE, LOCAL_SWEEP_END, LEGACY_TABLE_UPDATE and
LEGACY_RECAL_BURST (R301, R304, R307, R308). -/
def Obligations.RescueAndLegacyMode : Prop :=
  (∀ (s : State) (p : Nat), s.on → p < 136 → (s.dev.pt p).acq.moving ≠ [] → (s.dev.pt p).arrived = true →
    Completes (.wrongLineMoveDone p) s fun d =>
      (d.pt p).acq.phase = 1 ∧ (d.pt p).acq.moving = [] ∧
      (d.pt p).acq.rings = (s.dev.pt p).acq.moving.map (fun w => w.1) ∧
      (d.pt p).lock = (if (s.dev.pt p).lock = .identity then .sweep else (s.dev.pt p).lock) ∧
      (∀ w ∈ (s.dev.pt p).acq.moving, tget (d.pt p).htr w.1 0 = tget (s.dev.pt p).htr w.1 0 - 256) ∧
      d = { s.dev with ptiles := d.ptiles }) ∧
  (∀ (s : State) (p : Nat) (code : Nat → Nat), s.on → p < 136 →
    (s.dev.pt p).lock = .sweep → (s.dev.pt p).acq.phase = 1 → (s.dev.pt p).arrived = true →
    (∀ r ∈ (s.dev.pt p).acq.rings, nearestFound (s.dev.pt p).acq.found r (s.dev.park p r) = some (code r)) →
    Completes (.localSweepEnd p) s fun d =>
      (d.pt p).lock = .capture ∧ (∀ r ∈ (s.dev.pt p).acq.rings, tget (d.pt p).htr r 0 = code r) ∧
      (∀ r, r ∉ (s.dev.pt p).acq.rings → tget (d.pt p).htr r 0 = tget (s.dev.pt p).htr r 0) ∧
      d = { s.dev with ptiles := d.ptiles }) ∧
  (∀ (s : State) (p : Nat) (t : Int), s.on → p < 136 → (s.dev.pt p).temp = some t → (s.dev.pt p).legacy = true →
    (s.dev.pt p).lock = .legacy → (s.dev.pt p).h0 = [] → Completes (.legacyTableUpdate p) s fun d =>
      (∀ r, r < 4160 → (s.dev.pt p).out r = true → tget (d.pt p).htr r 0 = tget (s.dev.pt p).htr r 0) ∧
      (∀ r, r < 4160 → (s.dev.pt p).out r = false → (∀ i, (s.dev.pt p).inj = some i → i.ring ≠ r) →
        tget (d.pt p).htr r 0 = s.dev.ltCode p r t) ∧
      (∀ i, (s.dev.pt p).inj = some i → i.ring < 4160 → (s.dev.pt p).out i.ring = false →
        tget (d.pt p).htr i.ring 0 =
          (clampInt 0 4095 ((i.frozen.getD (s.dev.ltCode p i.ring t) : Nat) + i.cur)).toNat) ∧
      d = { s.dev with ptiles := d.ptiles }) ∧
  (∀ (s : State) (p : Nat), s.on → p < 136 → (s.dev.pt p).legacy = true → (s.dev.pt p).lock = .legacy →
    (s.dev.pt p).burst = none → (s.dev.pt p).burstAt + max 1 ((s.dev.pt p).cf 0 2 6) * tcPerSec ≤ s.dev.time →
    Completes (.legacyRecalBurst p) s fun d =>
      d = s.dev.setPt p { s.dev.pt p with burst := some (8, []), burstAt := s.dev.time })

/-! ### Tiles, the MAC array, deliveries and the vector pipes (R39–R57, R64, R79–R117, R137) -/

/-- TILE_RATE_CHANGE, RELOAD_COMPLETE and TILE_WAIT_EXPIRY: the pending rate takes effect on an idle tile without work; a
settled reload leaves the tile with the rows in its shadow; an operation whose wait expires is the MAC array's (R39, R64,
R117). INTEGRATION_WINDOW_OPEN, CONVERSION_COMPLETE, SATURATION_RERUN and CONFIDENCE_REREAD: the next conversion's window
opens; its codes, none of them saturated and with no gate to pass, end it; a waiting re-run or re-read opens its window
(R43, R44, R54, R83). -/
def Obligations.TilesConvert : Prop :=
  (∀ (s : State) (e t : Nat), s.on → e < 32 → t < 4 → (s.dev.eng e).issueq = [] → (s.dev.slot e t).state = .idle →
    (s.dev.slot e t).stale = false → Completes (.tileRateChange e t) s fun d =>
      d = s.dev.setSlot e t { s.dev.slot e t with rate := s.dev.rf .TILE_CFG 0 2 e t }) ∧
  (∀ (s : State) (e t : Nat) (r : Reload), s.on → e < 32 → t < 4 → (s.dev.eng e).issueq = [] →
    (s.dev.slot e t).reload = some r → r.kind = .ret → reloadDue r.rows.length r.t0 s.dev.aon = true →
    (s.dev.slot e t).stale = false → (s.dev.eng e).promo = none →
    Completes (.reloadComplete e t) s fun d =>
      (d.slot e t).reload = none ∧ (d.slot e t).shadow = Levels.put (s.dev.slot e t).shadow r.rows ∧
      (∀ u, u < 4 → (d.slot e u).st = (s.dev.slot e u).st ∧ (u ≠ t → (d.slot e u).shadow = (s.dev.slot e u).shadow)) ∧
      (∀ f, f ≠ e → d.eng f = s.dev.eng f) ∧
      d.reg .TILE_CNT_RELOAD e t = min 0xFFFFFFFF (s.dev.reg .TILE_CNT_RELOAD e t + 1)) ∧
  (∀ (s : State) (e t f w : Nat) (st : TileState) (o : TileOp), s.on → e < 32 → t < 4 →
    (s.dev.eng e).current t = some o → o.waitFrom = some (st, f) → (s.dev.slot e t).st = st →
    (st ≠ .idle ∨ s.dev.inForced (e / 8) (detourTc + 1) = true) → s.dev.tileWait e = some w → f + w ≤ s.dev.time →
    (∀ q ∈ (s.dev.eng e).issueq, q.op = 1 → o.num < q.num) → Completes (.tileWaitExpiry e t) s fun d =>
      ∃ j ∈ (d.eng e).macq, j.num = o.num ∧ j.kind = 2 ∧ j.started = none) ∧
  (∀ (s : State) (e t lag : Nat) (o o2 o3 : TileOp) (n : NextConv) (k : Nat) (d1 d2 : Dev), s.on → e < 32 → t < 4 → lag < 4 →
    d1 = s.dev.kick e t → (d1.eng e).current t = some o → o.begun = true → 2 ≤ o.op → mvQuiet o.word = false →
    (d1.slot e t).st = .idle → (d1.slot e t).reload = none → holds (d1.slot e t) o = true →
    (o.opened = true ∨ (d1.slot e t).rate = d1.rf .TILE_CFG 0 2 e t) →
    (d1.eng e).uncheckedLoad (mvTmask o.word) o.num = false →
    d2 = (d1.setEng e ((d1.eng e).setOp o)).kick e t → (d2.eng e).current t = some o2 → o2.num = o.num →
    d2.seek e ((((d2.eng e).workOf o2.num).bad).getD []) (heldFor (d2.slot e t) o2) (seekFuel o2.word) o2 0 = (some n, o3, k) →
    holds (d2.slot e t) o3 = true → (d2.slot e t).reload = none →
    (n.comp ≠ 2 ∨ ((d2.eng e).setOp o3).pairBehind o3 n.p = false) →
    (((d2.eng e).workOf o3.num).rateOk = true ∨ d2.rateOk e o3 = true) →
    (d2.mayOpen e t (if mvArr o3.word then 2 ^ mvKlog o3.word else n.segs.length)).1 = true →
    Completes (.integrationWindowOpen e (t, lag)) s fun d =>
      (d.slot e t).convCount = ((s.dev.slot e t).convCount + 1) % 2 ^ 64 ∧
      ∃ w, (d.slot e t).wins = (s.dev.slot e t).wins ++ [w] ∧ w.kind = .first ∧ w.ts = s.dev.time - lag ∧ w.cols = upTo 64 ∧
        w.n = (if mvArr o3.word then 2 ^ mvKlog o3.word else n.segs.length)) ∧
  (∀ (s : State) (e t : Nat) (errs diffs : List Int) (w : Win) (ws : List Win) (c : Conv), s.on → e < 32 → t < 4 →
    (s.dev.slot e t).wins = w :: ws → tfind (s.dev.slot e t).convs w.cid = some c → w.reading = 0 →
    c.readings = [(0, { openWins := 1 })] → c.want = 1 → c.mac = none → mvThrM c.word = 0 →
    (∀ i, i < 64 → (codeOf (256 * c.chargeOf i w.lo w.n + s.dev.ditherCharge c w + errs.getD i 0 -
      s.dev.zeroShift c.ptile (tget w.gains i 0) i) (tget w.gains i 0)).2 = none) →
    Completes (.conversionComplete e t errs diffs) s fun d =>
      (d.slot e t).wins = ws ∧ tfind (d.slot e t).convs w.cid = none ∧ (d.slot e t).reruns = (s.dev.slot e t).reruns ∧
      (d.slot e t).rereads = (s.dev.slot e t).rereads ∧ (d.slot e t).lastSat = (s.dev.slot e t).lastSat) ∧
  (∀ (s : State) (e t : Nat) (w : Win) (ws : List Win), s.on → e < 32 → t < 4 → (s.dev.slot e t).reruns = w :: ws →
    (s.dev.mayOpen e t w.n true).1 = true → Completes (.saturationRerun e t) s fun d =>
      (d.slot e t).reruns = ws ∧ (d.slot e t).wins =
        (s.dev.slot e t).wins ++ [{ w with ts := s.dev.time, rate := (s.dev.slot e t).rate }] ∧
      (d.slot e t).convCount = ((s.dev.slot e t).convCount + 1) % 2 ^ 64 ∧
      d.reg .TILE_CNT_RERUN e t = min 0xFFFFFFFF (s.dev.reg .TILE_CNT_RERUN e t + 1) ∧
      (∀ u, u ≠ t → d.slot e u = s.dev.slot e u) ∧ d = { s.dev with engs := d.engs, regs := d.regs, ptiles := d.ptiles }) ∧
  (∀ (s : State) (e t : Nat) (w : Win) (ws : List Win), s.on → e < 32 → t < 4 → (s.dev.slot e t).rereads = w :: ws →
    (s.dev.mayOpen e t w.n true).1 = true → Completes (.confidenceReread e t) s fun d =>
      (d.slot e t).rereads = ws ∧ (d.slot e t).wins =
        (s.dev.slot e t).wins ++ [{ w with ts := s.dev.time, rate := (s.dev.slot e t).rate }] ∧
      (d.slot e t).convCount = ((s.dev.slot e t).convCount + 1) % 2 ^ 64 ∧
      (∀ u, u ≠ t → d.slot e u = s.dev.slot e u) ∧ d = { s.dev with engs := d.engs, ptiles := d.ptiles })

/-- MAC_ARRAY_JOB_START, SPLIT_DONE and MAC_ARRAY_JOB_DONE: outside a throttle pause the array takes, of the jobs that can start,
the one that none of them goes before; the job that ends leaves the queue, and what its end hands to the array joins at the end,
where every LOADW that waits has formed its set (R88, R109, R110, R115). -/
def Obligations.MacArrayJobs : Prop :=
  (∀ (s : State) (e : Nat), s.on → e < 32 → inPause (s.dev.throttle (e / 8)) (chipPos s.dev.time 0) = false →
    (∃ j ∈ (s.dev.eng e).macq, (s.dev.eng e).macReady j = true) → Completes (.macArrayJobStart e) s fun d =>
      ∃ (i : Nat) (j : MacJob), (s.dev.eng e).macq[i]? = some j ∧ j.started = none ∧ (s.dev.eng e).macReady j = true ∧
        (∀ k ∈ (s.dev.eng e).macq, (s.dev.eng e).macReady k = true → k.before j = false) ∧
        d = s.dev.setEng e { s.dev.eng e with macq := (s.dev.eng e).macq.set i { j with started := some s.dev.time } }) ∧
  (∀ (s : State) (e : Nat), s.on → e < 32 → (∃ j ∈ (s.dev.eng e).macq, j.started.isSome = true ∧ j.kind = 1) →
    (∀ o ∈ (s.dev.eng e).issueq, o.op = 1 → ((s.dev.eng e).workOf o.num).formed = true) →
    Completes (.splitDone e) s fun d =>
      ∃ (i : Nat) (j : MacJob), (s.dev.eng e).macq[i]? = some j ∧ j.started.isSome = true ∧ j.kind = 1 ∧
        (s.dev.eng e).macq.eraseIdx i <+: (d.eng e).macq) ∧
  (∀ (s : State) (e : Nat), s.on → e < 32 → (∃ j ∈ (s.dev.eng e).macq, j.started.isSome = true ∧ j.kind ≠ 1) →
    (∀ o ∈ (s.dev.eng e).issueq, o.op = 1 → ((s.dev.eng e).workOf o.num).formed = true) →
    Completes (.macArrayJobDone e) s fun d =>
      ∃ (i : Nat) (j : MacJob), (s.dev.eng e).macq[i]? = some j ∧ j.started.isSome = true ∧ j.kind ≠ 1 ∧
        (∀ k ∈ (s.dev.eng e).macq, k.started.isSome = true → k.kind ≠ 1 → k.before j = false) ∧
        (s.dev.eng e).macq.eraseIdx i <+: (d.eng e).macq)

/-- ACC_DELIVERY and VEC_COMPLETE: the delivery at the head of the queue, once nothing contributes to its area any more, gives every
active vector a sequence number and leaves the queue; a VEC with no evaluation before it leaves the vector queue (R107, R137). -/
def Obligations.DeliveriesAndVectors : Prop :=
  (∀ (s : State) (e : Nat) (q : Delivery) (qs : List Delivery) (k : Nat) (a : Area), s.on → e < 32 →
    (s.dev.eng e).delq = q :: qs → (s.dev.eng e).areaBusy q.aid q.num = false → (s.dev.eng e).areaOf q.aid = some (k, a) →
    Completes (.accDelivery e) s fun d =>
      (d.eng e).delq = qs ∧
      (d.eng e).seq % 2 ^ 32 = ((s.dev.eng e).seq + ((upTo a.nvec).filter (fun v =>
        !acImask q.word || activeVec q.mask (acIgrp q.word) v)).length) % 2 ^ 32 ∧
      (a.freeing = false → (d.eng e).areas = (s.dev.eng e).areas) ∧ (∀ f, f ≠ e → d.eng f = s.dev.eng f)) ∧
  (∀ (s : State) (e i : Nat) (j : VecJob), s.on → e < 32 → i < 2 → (s.dev.eng e).vecq[i]? = some j →
    (∀ k ∈ (s.dev.eng e).vecq.take (i + 1), k.kind = .vec) → Completes (.vecComplete e i) s fun d =>
      (d.eng e).vecq = (s.dev.eng e).vecq.eraseIdx i ∧ (d.eng e).mask = (s.dev.eng e).mask ∧
      (d.eng e).areas = (s.dev.eng e).areas ∧ (∀ f, f ≠ e → d.eng f = s.dev.eng f) ∧
      d = { s.dev with engs := d.engs, regs := d.regs, wr := d.wr })

/-! ### Task words and lists (R114–R168, R249–R258) -/

/-- NOP, LOADW, MVM and MVMC: the word takes the next number and decoding goes on behind it; a NOP is complete at once; a
LOADW's tiles have its weight set, unless its weights are out of range; a product adds what it can add to its area's bound
(R95, R114, R139, R142, R146, R168). DMM, VEC and ACC: the work joins the MAC-array queue, the vector queue or the delivery
queue; an OPEN takes the lowest free rows for its area and is complete at once (R106, R114, R147, R149, R152, R153).
DECODE_RESUME decodes the word that a full queue, or an area not free yet, had stopped. -/
def Obligations.TaskWordsQueueWork : Prop :=
  (∀ (s : State) (e : Nat) (r : Run) (w : Tw), s.on → e < 32 → s.dev.wordReady e r w → twOp w = 0 → Completes (.nop e) s fun d =>
    (d.eng e).pc = (s.dev.eng e).pc + 32 ∧ (d.eng e).nextNum = (s.dev.eng e).nextNum + 1 ∧ (d.eng e).cur = w ∧
    (d.eng e).fetched = ((s.dev.refill e).eng e).fetched.drop 1 ∧ (d.eng e).hold = .none ∧
    (d.eng e).run = some r ∧ (d.eng e).mask = (s.dev.eng e).mask ∧ (d.eng e).areas = (s.dev.eng e).areas ∧
    d.reg .ENG_CNT_TW e = min 0xFFFFFFFF (s.dev.reg .ENG_CNT_TW e + 1) ∧ (∀ f, f ≠ e → d.eng f = s.dev.eng f) ∧
    s.dev.queuedFrom d) ∧
  (∀ (s : State) (e : Nat) (r : Run) (w : Tw), s.on → e < 32 → s.dev.wordReady e r w → twOp w = 1 →
    (s.dev.decoded e w).unboundErr e (tilesOf (ldTmask w) (ldDw w) (ldSpread w)) = false → Completes (.loadw e) s fun d =>
      (d.eng e).pc = (s.dev.eng e).pc + 32 ∧ (d.eng e).nextNum = (s.dev.eng e).nextNum + 1 ∧ (d.eng e).cur = w ∧
      ((d.eng e).run.any (fun r => r.fail.isSome) = true ∨ ∀ t, t < 4 → bit (ldTmask w) t = true →
        ((d.slot e t).wset.map (·.num)) = some (s.dev.eng e).nextNum)) ∧
  (∀ (i : Instr) (s : State) (e : Nat) (r : Run) (w : Tw) (a : Area), s.on → e < 32 → s.dev.wordReady e r w →
    (i = .mvm e ∧ twOp w = 2) ∨ (i = .mvmc e ∧ twOp w = 3) → tfind (s.dev.eng e).areas (mvArea w) = some a →
    (mvSens w = true → (s.dev.eng e).macJobs < 8) → (mvSens w = false →
      (s.dev.decoded e w).unboundErr e (tilesOf (mvTmask w) (mvDw w) (mvSpread w && twOp w = 2)) = false) →
    Completes i s fun d =>
      (d.eng e).pc = (s.dev.eng e).pc + 32 ∧ (d.eng e).nextNum = (s.dev.eng e).nextNum + 1 ∧ (d.eng e).cur = w ∧
      ∃ b, tfind (d.eng e).areas (mvArea w) = some b ∧ b.aid = a.aid ∧
        b.bound = a.bound + mvBound w ((s.dev.eng e).sparseOf (mvTmask w)) a.ashift) ∧
  (∀ (s : State) (e : Nat) (r : Run) (w : Tw), s.on → e < 32 → s.dev.wordReady e r w → twOp w = 4 → dmDest w = true →
    (s.dev.eng e).macJobs < 8 → Completes (.dmm e none) s fun d =>
      (d.eng e).macq = (s.dev.eng e).macq ++
        [{ num := (s.dev.eng e).nextNum, kind := 4, piece := .dmm w 0 (s.dev.eng e).mask }] ∧
      (d.eng e).pc = (s.dev.eng e).pc + 32 ∧ (d.eng e).nextNum = (s.dev.eng e).nextNum + 1 ∧ s.dev.queuedFrom d) ∧
  (∀ (s : State) (e : Nat) (r : Run) (w : Tw) (a : Area), s.on → e < 32 → s.dev.wordReady e r w → twOp w = 4 →
    dmDest w = false → tfind (s.dev.eng e).areas (dmArea w) = some a → (s.dev.eng e).macJobs < 8 →
    Completes (.dmm e none) s fun d =>
      (d.eng e).macq = (s.dev.eng e).macq ++
        [{ num := (s.dev.eng e).nextNum, kind := 4, piece := .dmm w a.aid (s.dev.eng e).mask }] ∧
      (∃ b, tfind (d.eng e).areas (dmArea w) = some b ∧ b.aid = a.aid ∧ b.bound = a.bound + dmBound w a.ashift) ∧
      (d.eng e).pc = (s.dev.eng e).pc + 32 ∧ (d.eng e).nextNum = (s.dev.eng e).nextNum + 1 ∧ s.dev.queuedFrom d) ∧
  (∀ (s : State) (e : Nat) (r : Run) (w : Tw), s.on → e < 32 → s.dev.wordReady e r w → twOp w = 5 →
    (s.dev.eng e).vecq.length < 8 → Completes (.vec e none) s fun d =>
      (d.eng e).vecq = (s.dev.eng e).vecq ++ [{ num := (s.dev.eng e).nextNum, kind := .vec, word := w }] ∧
      (d.eng e).pc = (s.dev.eng e).pc + 32 ∧ (d.eng e).nextNum = (s.dev.eng e).nextNum + 1 ∧ s.dev.queuedFrom d) ∧
  (∀ (s : State) (e : Nat) (r : Run) (w : Tw) (b : Nat), s.on → e < 32 → s.dev.wordReady e r w → twOp w = 6 → acAct w = 0 →
    (s.dev.eng e).findRows (acRows w) = some b → tfind (s.dev.eng e).areas (acArea w) = none →
    (s.dev.eng e).areas.length < 16 → Completes (.acc e) s fun d =>
      tfind (d.eng e).areas (acArea w) = some { aid := (s.dev.eng e).nextNum, cplx := acCplx w, ashift := acAshift w,
                                                nvec := acNvec w, base := b, nrows := acRows w } ∧
      (d.eng e).pc = (s.dev.eng e).pc + 32 ∧ (d.eng e).nextNum = (s.dev.eng e).nextNum + 1 ∧
      d.reg .ENG_CNT_TW e = min 0xFFFFFFFF (s.dev.reg .ENG_CNT_TW e + 1) ∧ s.dev.queuedFrom d) ∧
  (∀ (s : State) (e : Nat) (r : Run) (w : Tw) (a : Area), s.on → e < 32 → s.dev.wordReady e r w → twOp w = 6 →
    (acAct w = 1 ∨ acAct w = 3) → tfind (s.dev.eng e).areas (acArea w) = some a → (s.dev.eng e).delq.length < 4 →
    Completes (.acc e) s fun d =>
      (d.eng e).delq = (s.dev.eng e).delq ++ [{ num := (s.dev.eng e).nextNum, aid := a.aid, area := acArea w, word := w
                                                mask := (s.dev.eng e).mask }] ∧
      tfind (d.eng e).areas (acArea w) = some (if acAct w = 3 then { a with freeing := true } else a) ∧
      (d.eng e).pc = (s.dev.eng e).pc + 32 ∧ (d.eng e).nextNum = (s.dev.eng e).nextNum + 1 ∧ s.dev.queuedFrom d) ∧
  (∀ (s : State) (e : Nat) (r : Run) (w : Tw) (a : Area), s.on → e < 32 → s.dev.wordReady e r w → twOp w = 6 → acAct w = 2 →
    tfind (s.dev.eng e).areas (acArea w) = some a → (∀ q ∈ (s.dev.eng e).delq, q.aid ≠ a.aid) → Completes (.acc e) s fun d =>
      tfind (d.eng e).areas (acArea w) = none ∧ (d.eng e).pc = (s.dev.eng e).pc + 32 ∧
      (d.eng e).nextNum = (s.dev.eng e).nextNum + 1 ∧ s.dev.queuedFrom d) ∧
  (∀ (s : State) (e : Nat) (r : Run) (w : Tw), s.on → e < 32 → s.dev.wordReady e r w .queueFull → twOp w = 5 →
    (s.dev.eng e).vecq.length < 8 → Completes (.decodeResume e) s fun d =>
      (d.eng e).vecq = (s.dev.eng e).vecq ++ [{ num := (s.dev.eng e).nextNum, kind := .vec, word := w }] ∧
      (d.eng e).hold = .none ∧ (d.eng e).pc = (s.dev.eng e).pc + 32 ∧ s.dev.queuedFrom d) ∧
  (∀ (s : State) (e : Nat) (r : Run) (w : Tw) (b : Nat), s.on → e < 32 → s.dev.wordReady e r w .areaWait → twOp w = 6 →
    acAct w = 0 → (s.dev.eng e).findRows (acRows w) = some b → tfind (s.dev.eng e).areas (acArea w) = none →
    (s.dev.eng e).areas.length < 16 → Completes (.decodeResume e) s fun d =>
      tfind (d.eng e).areas (acArea w) = some { aid := (s.dev.eng e).nextNum, cplx := acCplx w, ashift := acAshift w,
                                                nvec := acNvec w, base := b, nrows := acRows w } ∧
      (d.eng e).hold = .none ∧ (d.eng e).pc = (s.dev.eng e).pc + 32 ∧ s.dev.queuedFrom d)

/-- ROUTE, EXIT, WAITM, FENCE and LOCKSEQ hold decoding until what they wait for; ARM and SIGNAL let it go on (R154, R156,
R159, R161, R162, R165, R167). What ends a barrier: an evaluation, a read of the FENCE's word, or a timeout, which stops the
list with TIMEOUT; and a SIGNAL's write (R155, R157, R160, R163, R165, R166). -/
def Obligations.BarrierTaskWords : Prop :=
  (∀ (i : Instr) (s : State) (e : Nat) (r : Run) (w : Tw), s.on → e < 32 → s.dev.wordReady e r w →
    (i = .route e ∧ twOp w = 7) ∨ (i = .exit e ∧ twOp w = 8) → (s.dev.eng e).vecq.length < 8 → Completes i s fun d =>
      (d.eng e).hold = (if twOp w = 7 then .routeEval else .exitEval) ∧ (d.eng e).pc = (s.dev.eng e).pc ∧
      (d.eng e).vecq = (s.dev.eng e).vecq ++
        [{ num := (s.dev.eng e).nextNum, kind := if twOp w = 7 then .route else .exit, word := w }] ∧
      (d.eng e).nextNum = (s.dev.eng e).nextNum + 1 ∧ s.dev.queuedFrom d) ∧
  (∀ (s : State) (e : Nat) (r : Run) (w : Tw), s.on → e < 32 → s.dev.wordReady e r w → twOp w = 9 → arRearm w = false →
    usableRange (s.dev.localAddr (biased w r.plc.bias)) 96 = true → Completes (.arm e) s fun d =>
      (d.ctx (8 * e + arCtx w)).desc = Desc.ofBytes (s.dev.rdBytes (s.dev.localAddr (biased w r.plc.bias)) 96) ∧
      (d.ctx (8 * e + arCtx w)).mbx = r.plc.mbx ∧ (d.ctx (8 * e + arCtx w)).armed = s.dev.str.nextArm ∧
      d.str.nextArm = s.dev.str.nextArm + 1 ∧ (d.eng e).pc = (s.dev.eng e).pc + 32) ∧
  (∀ (s : State) (e : Nat) (r : Run) (w : Tw), s.on → e < 32 → s.dev.wordReady e r w → twOp w = 10 →
    (wmMode w && r.released.contains (wmMsid w)) = false → Completes (.waitm e) s fun d =>
      d = (s.dev.decoded e w).setEng e { (s.dev.decoded e w).eng e with
        hold := .waitm (wmMsid w) (wmTimeout w) s.dev.time, nextNum := (s.dev.eng e).nextNum + 1 }) ∧
  (∀ (s : State) (e : Nat) (r : Run) (w : Tw), s.on → e < 32 → s.dev.wordReady e r w → twOp w = 10 → wmMode w = true →
    wmMsid w ∈ r.released → Completes (.waitm e) s fun d =>
      (d.eng e).hold = .none ∧ (d.eng e).pc = (s.dev.eng e).pc + 32) ∧
  (∀ (s : State) (e : Nat) (r : Run) (w : Tw), s.on → e < 32 → s.dev.wordReady e r w → twOp w = 11 →
    (s.dev.eng e).sigq.length < 4 → Completes (.signal e) s fun d =>
      (d.eng e).sigq = (s.dev.eng e).sigq ++
        [{ num := (s.dev.eng e).nextNum, word := w, addr := biased w r.plc.bias, pc := (s.dev.eng e).pc }] ∧
      (d.eng e).pc = (s.dev.eng e).pc + 32) ∧
  (∀ (s : State) (e : Nat) (r : Run) (w : Tw), s.on → e < 32 → s.dev.wordReady e r w → twOp w = 12 →
    (fnPoll w || (s.dev.decoded e w).fenceBusy e (s.dev.eng e).nextNum (fnScope w)) = true → Completes (.fence e) s fun d =>
      d = (s.dev.decoded e w).setEng e { (s.dev.decoded e w).eng e with
        nextNum := (s.dev.eng e).nextNum + 1
        hold := .fence (s.dev.eng e).nextNum (fnScope w) (fnPoll w) (biased w r.plc.bias) (twValue w) (fnTimeout w) s.dev.time
          false }) ∧
  (∀ (s : State) (e : Nat) (r : Run) (w : Tw), s.on → e < 32 → s.dev.wordReady e r w → twOp w = 13 → lkClose w = false →
    Completes (.lockseq e) s fun d =>
      (d.eng e).hold = .lock (lkCtx w) (lkTg w) (lkTimeout w) s.dev.time ∧ (d.eng e).pc = (s.dev.eng e).pc ∧
      (∃ q, (d.tg (lkTg w)).presented = ((s.dev.refill e).tg (lkTg w)).presented ++ [q] ∧ q.who = 8 * e + lkCtx w ∧
        q.lock = some (s.dev.eng e).pc) ∧
      (∀ n, n ≠ lkTg w → d.tg n = (s.dev.refill e).tg n)) ∧
  (∀ (s : State) (e : Nat) (r : Run) (w : Tw) (l : TLock), s.on → e < 32 → s.dev.wordReady e r w → twOp w = 13 →
    lkClose w = true → (s.dev.tg (lkTg w)).lock = some l → Completes (.lockseq e) s fun d =>
      (d.tg (lkTg w)).lock = (if (((s.dev.refill e).tg (lkTg w)).parked ++ ((s.dev.refill e).tg (lkTg w)).presented).any
          (fun q => q.who = l.owner) || ((s.dev.refill e).tg (lkTg w)).held.contains l.owner
        then some { l with closing := true } else none) ∧ (d.eng e).pc = (s.dev.eng e).pc + 32) ∧
  (∀ (s : State) (e : Nat) (r : Run) (q : VecJob) (qs : List VecJob), s.on → e < 32 → (s.dev.eng e).run = some r →
    (s.dev.eng e).hold = .routeEval → (s.dev.eng e).vecq = q :: qs → q.kind = .route → twEnd q.word = false →
    (s.dev.eng e).pc + 64 ≤ r.plc.list + 32 * maxWords →
    (∀ i, i < rtNitem q.word → (s.dev.eng e).mask.getLsbD i = false) → usableRange ((s.dev.eng e).pc + 32) 32 = true →
    twLbl (s.dev.twAt ((s.dev.eng e).pc + 32)) = true →
    twLabel (s.dev.twAt ((s.dev.eng e).pc + 32)) = rtJoin q.word → Completes (.routeEvaluation e) s fun d =>
      (d.eng e).vecq = qs ∧ (d.eng e).hold = .none ∧ (d.eng e).route = none ∧ (d.eng e).mask = (s.dev.eng e).mask ∧
      (d.eng e).pc = (s.dev.eng e).pc + 32) ∧
  (∀ (s : State) (e : Nat) (r : Run) (q : VecJob) (qs : List VecJob), s.on → e < 32 → (s.dev.eng e).run = some r →
    (s.dev.eng e).hold = .exitEval → (s.dev.eng e).vecq = q :: qs → q.kind = .exit → twEnd (s.dev.eng e).cur = false →
    twRet (s.dev.eng e).cur = false → exNitem q.word ≤ 256 → (∃ i, i < exNitem q.word ∧ (s.dev.eng e).mask.getLsbD i = true ∧
      fp32Ge (tget (s.dev.eng e).conf i 0) (exThr q.word) = false) → Completes (.exitEvaluation e) s fun d =>
      (d.eng e).vecq = qs ∧ (d.eng e).hold = .none ∧ (d.eng e).pc = (s.dev.eng e).pc + 32 ∧
      (∀ i, i < 256 → (d.eng e).mask.getLsbD i = ((s.dev.eng e).mask.getLsbD i &&
        !(decide (i < exNitem q.word) && fp32Ge (tget (s.dev.eng e).conf i 0) (exThr q.word))))) ∧
  (∀ (s : State) (e n sc a v t i : Nat), s.on → e < 32 → (s.dev.eng e).hold = .fence n sc true a v t i false →
    s.dev.isLocal a = true → usableRange (globalLocal a) 8 = true → s.dev.poisoned (globalLocal a) 8 = false →
    Completes (.fencePoll e) s fun d =>
      (d.eng e).hold = .fence n sc true a v t i (decide (v ≤ s.dev.rdLe (globalLocal a) 8)) ∧
      (d.eng e).pc = (s.dev.eng e).pc ∧ s.dev.queuedFrom d) ∧
  (∀ (i : Instr) (s : State) (e op : Nat) (r : Run), s.on → e < 32 → (s.dev.eng e).run = some r → r.fail = none →
    (∃ m t f, i = .waitmTimeout e ∧ op = 0x0A ∧ (s.dev.eng e).hold = .waitm m t f ∧ t ≠ 0 ∧ f + usTc t ≤ s.dev.time) ∨
      (∃ n sc a v t f, i = .fenceTimeout e ∧ op = 0x0C ∧ (s.dev.eng e).hold = .fence n sc true a v t f false ∧ t ≠ 0 ∧
        f + usTc t ≤ s.dev.time) ∨
      (∃ c n t f, i = .lockseqTimeout e ∧ op = 0x0D ∧ (s.dev.eng e).hold = .lock c n t f ∧ t ≠ 0 ∧
        f + usTc t ≤ s.dev.time) → Completes i s fun d =>
      (d.eng e).run = some { r with fail := some (0x0E, op, (s.dev.eng e).pc) } ∧ (d.eng e).hold = .none ∧
      (d.eng e).mask = (if (s.dev.eng e).evaluates then (s.dev.eng e).mask else BitVec.allOnes 256) ∧ d.log = s.dev.log ∧ (∀ f, f ≠ e → d.eng f = s.dev.eng f)) ∧
  (∀ (s : State) (e : Nat) (q : SigEntry) (qs : List SigEntry), s.on → e < 32 → (s.dev.eng e).sigq = q :: qs →
    (∀ p ∈ (s.dev.eng e).live, q.num ≤ p.1) → (∀ x ∈ s.dev.peers.xfers, x.for_ ≠ .signal e q.num) → sgKind q.word = 0 →
    s.dev.isLocal q.addr = true → globalLocal q.addr + 8 ≤ 0x6000000000 → Completes (.signalEffect e) s fun d =>
      (d.eng e).sigq = qs ∧ d.rdLe (globalLocal q.addr) 8 = twValue q.word ∧
      (∀ b, b < globalLocal q.addr ∨ globalLocal q.addr + 8 ≤ b → d.rd b = s.dev.rd b) ∧ d.mbx = s.dev.mbx)

/-- LIST_START, LIST_END and HOT_MARGIN_REACHED (R135, R136, R258). -/
def Obligations.Lists : Prop :=
  (∀ (s : State) (e : Nat) (p : Placement) (ps : List Placement) (a : Nat), s.on → e < 32 → (s.dev.eng e).run = none →
    (s.dev.eng e).promo = none → (s.dev.eng e).st = .idle → (s.dev.eng e).placed = p :: ps → p.anchor = some a →
    Completes (.listStart e) s fun d =>
      (d.eng e).run = some { plc := p, startTs := max a (s.dev.eng e).lastEnd, released :=
         (p.released.filter (fun r => max a (s.dev.eng e).lastEnd ≤ r.2)).map (·.1) } ∧
      (d.eng e).st = .running ∧ (d.eng e).placed = ps ∧ (d.eng e).pc = p.list ∧
      (d.eng e).fetched = [] ∧ (d.eng e).mask = BitVec.allOnes 256 ∧
      (d.eng e).hold = .none ∧ (∀ f, f ≠ e → d.eng f = s.dev.eng f) ∧ d = { s.dev with engs := d.engs, regs := d.regs }) ∧
  (∀ (s : State) (e : Nat) (r : Run), s.on → e < 32 → (s.dev.eng e).run = some r → r.ended = true → r.fail = none →
    (s.dev.eng e).hold = .none → (s.dev.eng e).live = [] → (s.dev.eng e).st = .running → (s.dev.eng e).rdwkSeen = false →
    r.plc.mbx < 8 → (s.dev.mb r.plc.mbx).evq.length ≤ 254 → Completes (.listEnd e) s fun d =>
      (d.eng e).run = none ∧ (d.eng e).st = .idle ∧ (d.eng e).areas = [] ∧ (d.eng e).lastEnd = s.dev.time ∧
      (d.mb r.plc.mbx).prod = ((s.dev.mb r.plc.mbx).prod + 2) % 2 ^ 32 ∧
      (d.mb r.plc.mbx).evq.length = (s.dev.mb r.plc.mbx).evq.length + 2) ∧
  (∀ (s : State) (e : Nat) (r : Run) (t : Nat), s.on → e < 32 → (s.dev.eng e).run = some r → s.dev.deadlineOf r.plc = some t →
    t ≤ s.dev.time + usTc (s.dev.rf .TG_CLSCFG 0 16) → Completes (.hotMarginReached e) s fun d =>
      (∀ k, k < 8 → (8 * e + k) ∉ s.dev.pinned → d.classOf (8 * e + k) = 3) ∧
      ((0x120 + e) ∉ s.dev.pinned → d.classOf (0x120 + e) = 3) ∧ d = { s.dev with regs := d.regs })

/-! ### Tollgates, memory and streams (R195–R222, R259–R268, R402) -/

/-- TOLLGATE_GRANT, QUOTA_WINDOW_END and LOCK_WATCHDOG_EXPIRY: a lone request that is not masked is granted in its cycle;
masks and counts restart; a sequence held too long is aborted and its owner's list stops with LOCK_ABORT (R259, R263, R268).
SCRUB_READ and DRAM_READ_COMPLETE: the scrubber, granted its read, asks at the memory channel for the next block; an uncorrectable error poisons the block, is
counted and logged; a corrected one is queued for write-back (R195, R197). -/
def Obligations.TollgatesAndDram : Prop :=
  (∀ (s : State) (n w : Nat), s.on → 16 ≤ n → n < 54 → w < 0x14A → (s.dev.tg n).lock = none → (s.dev.tg n).parked = [] →
    (s.dev.tg n).presented = [] → (s.dev.tg n).held.length < (tgPort n).2 → s.dev.tgFrozen n = false →
    w ∉ (s.dev.tg n).masked → (w = 0x149 → ∀ r ∈ s.dev.rgs, r.2.records = []) → Completes (.tollgateGrant n [w] 0) s fun d =>
      (d.tg n).held = (s.dev.tg n).held ++ [w] ∧ (d.tg n).cycle = (s.dev.tg n).cycle + 1 ∧ (d.tg n).presented = [] ∧
      (d.tg n).parked = [] ∧ (d.tg n).lock = none ∧ d.reg .TG_CNT_GRANT n = min 0xFFFFFFFF (s.dev.reg .TG_CNT_GRANT n + 1) ∧
      (∀ k, k ≠ n → d.tg k = s.dev.tg k) ∧ d.engs = s.dev.engs) ∧
  (∀ (s : State) (n : Nat), s.on → n < 54 → (s.dev.tg n).cycle % s.dev.tgWindow n = 0 → Completes (.quotaWindowEnd n) s fun d =>
    d = s.dev.setTg n { s.dev.tg n with masked := [], quota := [] }) ∧
  (∀ (s : State) (n : Nat) (l : TLock) (r : Run), s.on → n < 54 → (s.dev.tg n).lock = some l →
    l.opened + s.dev.tgWd n ≤ (s.dev.tg n).cycle → (s.dev.eng (l.owner / 8)).run = some r → r.fail = none →
    Completes (.lockWatchdogExpiry n) s fun d =>
      (d.tg n).lock = none ∧ d.reg .TG_CNT_LOCKABORT n = min 0xFFFFFFFF (s.dev.reg .TG_CNT_LOCKABORT n + 1) ∧
      (d.eng (l.owner / 8)).run = some { r with fail := some (0x10, 0x0D, l.pc) } ∧ (d.eng (l.owner / 8)).hold = .none ∧
      d.log.written = s.dev.log.written + 1) ∧
  (∀ (s : State) (k : Nat), s.on → k ≤ 8 → s.dev.rf .STRM_SCRUB 31 1 = 1 → s.dev.cp.dramReady = true →
    s.dev.str.scrubReq = 2 → s.dev.str.scrubNext + 1 < scrubBlocks → Completes (.scrubRead k false) s fun d =>
      d.str.scrubNext = s.dev.str.scrubNext + 1 ∧ d.str.scrubReq = 1 ∧
      (0 < k → d.reg .STRM_CNT_CE = min 0xFFFFFFFF (s.dev.reg .STRM_CNT_CE + k)) ∧
      (∃ q ∈ (d.tg (channelOf (256 * d.str.scrubNext))).presented, q.who = 0x147 ∧
        q.mem = some (256 * d.str.scrubNext, false)) ∧
      d = { s.dev with str := { s.dev.str with scrubNext := d.str.scrubNext, scrubReq := 1 }, regs := d.regs, tgs := d.tgs,
                       scrubLift := d.scrubLift }) ∧
  (∀ (s : State) (a who : Nat), s.on → a < 0x6000000000 → who < 0x14A → Completes (.dramReadComplete a who 0 true) s fun d =>
    a / 256 ∈ d.str.poison ∧ (∀ b ∈ s.dev.str.poison, b ∈ d.str.poison) ∧
    d.reg .STRM_CNT_UE = min 0xFFFFFFFF (s.dev.reg .STRM_CNT_UE + 1) ∧ d.log.written = s.dev.log.written + 1 ∧
    d.mem = s.dev.mem ∧ d.wr = s.dev.wr) ∧
  (∀ (s : State) (a who k : Nat), s.on → a < 0x6000000000 → who < 0x14A → 0 < k → k ≤ 8 →
    s.dev.str.writeBack.length < 64 → Completes (.dramReadComplete a who k false) s fun d =>
      a / 256 ∈ d.str.writeBack ∧ d.reg .STRM_CNT_CE = min 0xFFFFFFFF (s.dev.reg .STRM_CNT_CE + k) ∧
      d = { s.dev with str := { s.dev.str with writeBack := d.str.writeBack }, regs := d.regs })

/-- STREAM_REQUEST_ISSUE, STREAM_DATA_ARRIVAL, STREAM_WRITE_COMPLETE and STREAM_WAIT_RESUME: a READ requests its next element, places
the oldest one and then writes PROG; a WRITE's element reaches memory and then PROG; a waiting WRITE with data goes on; what is
read of CREDIT is remembered (R207, R213–R215). -/
def Obligations.StreamsMove : Prop :=
  (∀ (s : State) (n : Nat), s.on → n < 288 → (s.dev.ctx n).moves = true → (s.dev.ctx n).desc.kind = 0 →
    (s.dev.ctx n).issued < (s.dev.ctx n).desc.total → s.dev.readWait n = .active →
    s.dev.isLocal ((s.dev.ctx n).desc.addr (s.dev.ctx n).issued) = true → Completes (.streamRequestIssue n) s fun d =>
      (d.ctx n).issued = (s.dev.ctx n).issued + 1 ∧ (d.ctx n).issueTs = (s.dev.ctx n).issueTs ++ [s.dev.time] ∧
      (d.ctx n).pool = (s.dev.ctx n).pool + (s.dev.ctx n).desc.esize ∧ (d.ctx n).st = .active ∧
      (∀ k, k ≠ n → d.ctx k = s.dev.ctx k) ∧
      d = { s.dev with str := { s.dev.str with ctxs := d.str.ctxs, cache := d.str.cache }, tgs := d.tgs }) ∧
  (∀ (s : State) (n : Nat), s.on → n < 288 → (s.dev.ctx n).moves = true → (s.dev.ctx n).desc.kind = 0 →
    (s.dev.ctx n).issued < (s.dev.ctx n).desc.total → (s.dev.readWait n = .waitGate ∨ s.dev.readWait n = .waitPool) →
    Completes (.streamRequestIssue n) s fun d => d = s.dev.setCtx n { s.dev.ctx n with
      st := s.dev.readWait n
      creditSeen := if (s.dev.ctx n).desc.ring then s.dev.rdLe (ctxSram n + (s.dev.ctx n).desc.credit) 8
        else (s.dev.ctx n).creditSeen }) ∧
  (∀ (s : State) (n : Nat), s.on → n < 256 → (s.dev.ctx n).moves = true → (s.dev.ctx n).desc.kind = 0 →
    (s.dev.ctx n).issueTs ≠ [] → (s.dev.ctx n).members = [] → s.dev.isLocal ((s.dev.ctx n).desc.addr (s.dev.ctx n).prog) = true →
    globalLocal ((s.dev.ctx n).desc.addr (s.dev.ctx n).prog) + (s.dev.ctx n).desc.esize ≤ 0x6000000000 →
    s.dev.poisoned (globalLocal ((s.dev.ctx n).desc.addr (s.dev.ctx n).prog)) (s.dev.ctx n).desc.esize = false →
    Completes (.streamDataArrival n none) s fun d =>
      (d.ctx n).prog = (s.dev.ctx n).prog + 1 ∧ (d.ctx n).placed = (s.dev.ctx n).placed + (s.dev.ctx n).desc.esize ∧
      (d.ctx n).issueTs = (s.dev.ctx n).issueTs.drop 1 ∧ (d.ctx n).pool = (s.dev.ctx n).pool - (s.dev.ctx n).desc.esize ∧
      d.rdLe (ctxSram n + (s.dev.ctx n).desc.prog) 8 = ((s.dev.ctx n).prog + 1) % 2 ^ 64 ∧
      (∀ k, k ≠ n → d.ctx k = s.dev.ctx k) ∧ d = { s.dev with str := { s.dev.str with ctxs := d.str.ctxs }, wr := d.wr }) ∧
  (∀ (s : State) (n ready : Nat), s.on → n < 256 → (s.dev.ctx n).moves = true → (s.dev.ctx n).desc.kind = 1 →
    s.dev.isLocal ((s.dev.ctx n).desc.addr (s.dev.ctx n).prog) = true → (s.dev.ctx n).prog < (s.dev.ctx n).desc.total →
    globalLocal ((s.dev.ctx n).desc.addr (s.dev.ctx n).prog) + (s.dev.ctx n).desc.esize ≤ 0x6000000000 →
    s.dev.space n = some ready → (s.dev.ctx n).desc.esize ≤ ready → s.dev.writeRoom n (s.dev.ctx n).desc.esize = true →
    Completes (.streamWriteComplete n) s fun d =>
      (d.ctx n).prog = (s.dev.ctx n).prog + 1 ∧ (d.ctx n).placed = (s.dev.ctx n).placed + (s.dev.ctx n).desc.esize ∧
      d.rdBytes (globalLocal ((s.dev.ctx n).desc.addr (s.dev.ctx n).prog)) (s.dev.ctx n).desc.esize = s.dev.writeElem n 0 ∧
      (d.ctx n).st = .active ∧ d.rdLe (ctxSram n + (s.dev.ctx n).desc.prog) 8 = ((s.dev.ctx n).prog + 1) % 2 ^ 64 ∧
      (∀ k, k ≠ n → d.ctx k = s.dev.ctx k)) ∧
  (∀ (s : State) (n ready : Nat), s.on → n < 288 → (s.dev.ctx n).st = .waitSpace → (s.dev.ctx n).desc.kind = 1 →
    s.dev.space n = some ready → (s.dev.ctx n).desc.esize ≤ ready → s.dev.writeRoom n (s.dev.ctx n).desc.esize = true →
    Completes (.streamWaitResume n) s fun d =>
      d = s.dev.setCtx n { s.dev.ctx n with
        st := .active
        creditSeen := if (s.dev.ctx n).desc.ring then s.dev.rdLe (ctxSram n + (s.dev.ctx n).desc.credit) 8
          else (s.dev.ctx n).creditSeen })

/-- STREAM_PASS_END, REARM_EFFECT, SPILL, SPILL_READBACK and FH_IN_PASS_ADVANCE (R209, R211, R218). FORK_MEMBER_DROP and
FORK_FLUSH: the lagging member of a source is dropped and the gap counted; a batch asks as one FORK at the Tollgate of its port
(R220, R256, R402). -/
def Obligations.StreamPassesAndForks : Prop :=
  (∀ (s : State) (n : Nat), s.on → n < 256 → (s.dev.ctx n).moves = true → s.dev.passDone n = true →
    Completes (.streamPassEnd n) s fun d =>
      ((s.dev.ctx n).desc.persist = true → d.ctx n = { s.dev.ctx n with st := .passEnd }) ∧
      ((s.dev.ctx n).desc.persist = false → d.ctx n = {}) ∧
      d.rdLe (ctxSram n + (s.dev.ctx n).desc.prog) 8 = (s.dev.ctx n).prog % 2 ^ 64) ∧
  (∀ (s : State) (n b : Nat), s.on → n < 288 → (s.dev.ctx n).st = .passEnd → (s.dev.ctx n).rearm = some b →
    (256 ≤ n ∨ (s.dev.ctx n).members = []) →
    Completes (.rearmEffect n) s fun d =>
      (d.ctx n).st = .active ∧ (d.ctx n).desc = { (s.dev.ctx n).desc with base := b } ∧ (d.ctx n).issued = 0 ∧
      (d.ctx n).prog = 0 ∧ (d.ctx n).rearm = none) ∧
  (∀ (s : State) (n t : Nat), s.on → s.dev.str.wdogFrom = some t → s.dev.rf .STRM_CFG 0 16 ≠ 0 →
    t + usTc (s.dev.rf .STRM_CFG 0 16) ≤ s.dev.time → s.dev.spillVictim = some n →
    (Dev.spillElems { s.dev with str := { s.dev.str with wdogFrom := some s.dev.time } } n).isSome = true →
    Completes .spill s fun d =>
      (d.ctx n).st = .spilled ∧ (d.ctx n).spillSt = (s.dev.ctx n).st ∧ d.str.wdogFrom = some s.dev.time ∧
      d.reg .STRM_CNT_SPILL = min 0xFFFFFFFF (s.dev.reg .STRM_CNT_SPILL + 1) ∧ s.dev.log.written < d.log.written ∧
      (∀ k, k ≠ n → d.ctx k = s.dev.ctx k)) ∧
  (∀ (s : State) (n : Nat), s.on → n < 288 → (s.dev.ctx n).st = .spilled →
    (s.dev.ctx n).arrived = [] → (∀ t ∈ s.dev.peers.xfers, ∀ a, t.spill = some a → s.dev.poisoned a t.len = false) →
    (s.dev.spilledOf n).foldl (fun k x => k + x.2) 0 ≤
      s.dev.sharedFree + ((s.dev.ctx n).desc.resv * 4096 - (s.dev.ctx n).pool) → Completes (.spillReadback n) s fun d =>
      (d.ctx n).st = (s.dev.ctx n).spillSt ∧ (∀ x ∈ (d.ctx n).elems, x.spill = none) ∧
      (d.ctx n).elems.length = (s.dev.ctx n).elems.length ∧
      (∀ k, k ≠ n → d.ctx k = { s.dev.ctx k with pool := (d.ctx k).pool })) ∧
  (∀ (s : State) (f : Nat) (q : Int), s.on → f < 32 → (s.dev.ctx (256 + f)).st = .active → (s.dev.ctx (256 + f)).desc.kind = 3 →
    (∀ m ∈ (s.dev.ctx (256 + f)).desc.members, m.2 < 256) → (s.dev.ctx (256 + f)).pass = some q →
    q < s.dev.slotNumber (s.dev.ctx (256 + f)).desc.ct s.dev.time →
    Completes (.fhInPassAdvance f) s fun d =>
      (d.ctx (256 + f)).pass = some (s.dev.slotNumber (s.dev.ctx (256 + f)).desc.ct s.dev.time) ∧
      (d.ctx (256 + f)).frontier = 0 ∧ (d.ctx (256 + f)).prog = 0) ∧
  (∀ (s : State) (n c : Nat) (x : Member), s.on → n < 288 → (s.dev.ctx n).members = [x] → s.dev.lagCause n 0 none = some c →
    Completes (.forkMemberDrop n) s fun d =>
      (∃ y, (d.ctx n).members = [y] ∧ y.joined = false ∧ y.dropped = true ∧ y.gapCause = c) ∧
      d.reg .STRM_CNT_GAP = min 0xFFFFFFFF (s.dev.reg .STRM_CNT_GAP + 1) ∧ d.log.written = s.dev.log.written + 1) ∧
  (∀ (s : State) (n dev p : Nat) (b : Batch), s.on → n < 288 → dev < 4 → tfind (s.dev.ctx n).batches dev = some b →
    b.first * 10000 + max 1 (s.dev.rf .PRT_PEER_CFG 0 16) * 1966080 ≤ s.dev.time * 10000 →
    s.dev.portTo dev = some p → Completes (.forkFlush n dev) s fun d =>
      tfind (d.ctx n).batches dev = none ∧
      (∃ q, d.peers.xfers = s.dev.peers.xfers ++ [q] ∧ q.typ = 5 ∧ q.port = p ∧ q.req = n ∧ q.dev = dev ∧ q.data = b.data ∧
        q.for_ = .fork b.mask b.poison ∧ q.sent = false) ∧
      (∃ q, (d.tg (48 + p)).presented = (s.dev.tg (48 + p)).presented ++ [q] ∧ q.who = n) ∧
      d = { s.dev with str := { s.dev.str with ctxs := d.str.ctxs }, tgs := d.tgs
                       peers := { s.dev.peers with xfers := d.peers.xfers, nextTag := d.peers.nextTag } })

/-! ### Ports (R385–R418, R463) -/

/-- FRAME_RECEIVED, FH_OUT_PASS_READ, FH_OUT_FRAME_SEND, LINK_UP and LINK_DOWN: a message that matches a flow entry becomes a record of
its context; the frames of a pass buffer wait to leave, and leave; a link rises and falls (R209, R385, R388, R394, R395, R463). -/
def Obligations.FronthaulPorts : Prop :=
  (∀ (s : State) (p lag i w n : Nat) (frame : List Byte) (m : Ecpri) (k : Int), s.on → p < 8 → (s.dev.fh p).st = .up →
    frame.length ≤ 9212 → (ethOf frame).typ = 0xAEFE →
    ecpriSplit 4096 (frame.drop (ethOf frame).off)
      (frame.length ≤ 60 || ((ethOf frame).vid.isSome && frame.length ≤ 64)) true = some [m] →
    s.dev.flowMatch p (ethOf frame) m = some (i, w) → s.dev.flowCtx w = some n → (s.dev.ctx n).members = [] →
    16 + m.data.length ≤ (s.dev.ctx n).desc.esize → (s.dev.ctx n).pass = some k →
    (s.dev.ctx n).frontier + alignUp (16 + m.data.length) 64 ≤ (s.dev.ctx n).desc.passBytes →
    s.dev.isLocal (((s.dev.ctx n).desc.passBase k + (s.dev.ctx n).frontier) % 2 ^ 64) = true →
    globalLocal (((s.dev.ctx n).desc.passBase k + (s.dev.ctx n).frontier) % 2 ^ 64) + alignUp (16 + m.data.length) 64
      ≤ 0x6000000000 → Completes (.frameReceived p lag true frame) s fun d =>
      (d.ctx n).frontier = (s.dev.ctx n).frontier + alignUp (16 + m.data.length) 64 ∧ (d.ctx n).prog = (s.dev.ctx n).prog + 1 ∧
      d.rdLe (globalLocal (((s.dev.ctx n).desc.passBase k + (s.dev.ctx n).frontier) % 2 ^ 64)) 8
        = (s.dev.time - lag) % 2 ^ 64 ∧
      d.reg .PRT_FH_CNT_RX p = min 0xFFFFFFFF (s.dev.reg .PRT_FH_CNT_RX p + 1) ∧ d.fh p = s.dev.fh p) ∧
  (∀ (s : State) (f base size : Nat) (q : Int) (fs : List OutFrame), s.on → f < 32 → (s.dev.ctx (256 + f)).st = .active →
    (s.dev.ctx (256 + f)).desc.kind = 4 → (s.dev.ctx (256 + f)).pass = some q → (s.dev.ctx (256 + f)).issued = 0 →
    q < s.dev.slotNumber (s.dev.ctx (256 + f)).desc.ct s.dev.time + 2 → s.dev.timeLocked = true →
    base = (s.dev.ctx (256 + f)).desc.passBase (s.dev.slotNumber (s.dev.ctx (256 + f)).desc.ct s.dev.time + 2) →
    size = (s.dev.ctx (256 + f)).desc.passBytes → s.dev.isLocal base = true → globalLocal base + size ≤ 0x6000000000 →
    readRecords (256 + f) size (s.dev.rdBytes (globalLocal base) size)
      (fun off len => s.dev.poisoned (globalLocal base + off) len) (size / 64 + 1) 0 [] = (fs, none) →
    Completes (.fhOutPassRead f) s fun d =>
      (d.ctx (256 + f)).pass = some (s.dev.slotNumber (s.dev.ctx (256 + f)).desc.ct s.dev.time + 2) ∧
      (d.ctx (256 + f)).issued = 1 ∧
      d.ports.outq = s.dev.ports.outq ++ fs ∧ d.log = s.dev.log) ∧
  (∀ (s : State) (p : Nat) (f : OutFrame), s.on → p < 8 → s.dev.nextOut p = some f → (s.dev.fh p).st = .up →
    (s.dev.fh p).busyTo ≤ s.dev.time → f.granted = true → f.send ≤ s.dev.time + 8 → (f.send = 0 ∨ s.dev.time ≤ f.send + 1966) →
    Completes (.fhOutFrameSend p) s fun d =>
      d.out = .fhFrame p f.data :: s.dev.out ∧ d.ports.outq = s.dev.ports.outq.erase f ∧ d.regs = s.dev.regs ∧
      s.dev.time < (d.fh p).busyTo ∧ (d.fh p).st = .up) ∧
  (∀ (s : State) (p : Nat), s.on → p < 8 → (s.dev.fh p).st = .training → (s.dev.fhRate p).isSome = true →
    (s.dev.mod (s.dev.busOf p)).st ≠ 4 → bit s.dev.cp.clocks 2 = true → Completes (.linkUp p) s fun d =>
      d.fh p = { s.dev.fh p with link := true, st := if s.dev.timeLocked then .up else .upGated } ∧
      (∀ q, q ≠ p → d.fh q = s.dev.fh q)) ∧
  (∀ (s : State) (p r : Nat), s.on → p < 8 → r < 256 → (s.dev.fh p).link = true → (s.dev.fh p).st = .up →
    Completes (.linkDown false p r) s fun d =>
      d.fh p = { s.dev.fh p with link := false, st := .training } ∧ d.log.written = s.dev.log.written + 1) ∧
  (∀ (s : State) (p r : Nat), s.on → p < 4 → r < 256 → (s.dev.peer p).st = .up → Completes (.linkDown true p r) s fun d =>
      (d.peer p).st = .training ∧ s.dev.log.written < d.log.written ∧
      (∀ t ∈ d.peers.xfers, t.port = p → t.since.isSome = true))

/-- The module buses and the board manager's window: MODULE_INSERTION, MODULE_REMOVAL, MODULE_INTERRUPT, MODULE_POLL,
SMBUS_WINDOW_WRITE, SMBUS_OFFSET_SET and SMBUS_BLOCK_READ (R406, R418). -/
def Obligations.ModulesAndBoard : Prop :=
  (∀ (s : State) (m : Nat) (found : Option (Nat × List Nat)), s.on → m < 8 → okModule found = true → (s.dev.mod m).st = 0 →
    Completes (.moduleInsertion m found) s fun d =>
    d.mod m = { st := 1, resetN := false, lpMode := true } ∧ d.log = s.dev.log ∧ (∀ k, k ≠ m → d.mod k = s.dev.mod k)) ∧
  (∀ (s : State) (m : Nat), s.on → m < 8 → (s.dev.mod m).st = 1 → Completes (.moduleInsertion m none) s fun d =>
    d.mod m = { s.dev.mod m with st := 3, resetN := true } ∧ d.log.written = s.dev.log.written + 1 ∧
    (∀ k, k ≠ m → d.mod k = s.dev.mod k)) ∧
  (∀ (s : State) (m ident : Nat) (rates : List Nat), s.on → m < 8 → okModule (some (ident, rates)) = true →
    (s.dev.mod m).st = 1 → Completes (.moduleInsertion m (some (ident, rates))) s fun d =>
    d.mod m = { s.dev.mod m with ident, rates, st := if s.dev.modMatches m rates then 2 else 4, resetN := true, lpMode := false } ∧
    d.log.written = s.dev.log.written + (if s.dev.modMatches m rates then 0 else 1) ∧
    (∀ k, k ≠ m → d.mod k = s.dev.mod k)) ∧
  (∀ (s : State) (m : Nat), s.on → m < 8 → (s.dev.mod m).st ≠ 0 → Completes (.moduleRemoval m) s fun d =>
    d.mod m = {} ∧ (∀ k, k ≠ m → d.mod k = s.dev.mod k) ∧ d.log = s.dev.log) ∧
  (∀ (s : State) (m b g : Nat), s.on → m < 8 → b < 256 → g < 256 → (s.dev.mod m).st ≠ 0 →
    Completes (.moduleInterrupt m 1 b g) s fun d => d.log.written = s.dev.log.written + 1 ∧ d.ports = s.dev.ports) ∧
  (∀ (s : State) (m b g : Nat), s.on → m < 8 → b < 256 → g < 256 → (s.dev.mod m).st ≠ 0 → (s.dev.mod m).cdbTo = none →
    Completes (.modulePoll m 2 b g) s fun d => (d.mod m).st = 3 ∧ d.log.written = s.dev.log.written + 1) ∧
  (∀ (s : State) (data : List Byte), s.on → data.length = 4 →
    Completes (.smbusWindowWrite (RegName.MBX_INT_EN.off 7 - 0x1E000) data true) s fun d =>
      (d.mb 7).intEn = BitVec.ofNat 5 (getLe data 0 4) ∧ d = { s.dev with mbx := d.mbx }) ∧
  (∀ (s : State) (o : Nat) (ok : Bool), s.on → o < 0x2000 → o % 4 = 0 → Completes (.smbusOffsetSet o ok) s fun d =>
    d = { s.dev with cp := { s.dev.cp with smbusOfs := if ok then o else s.dev.cp.smbusOfs } }) ∧
  (∀ (s : State) (n : RegName) (is : List Nat), s.on → s.dev.cp.smbusOfs < 0x2000 →
    regAt (0x1E000 + s.dev.cp.smbusOfs) = some (n, is) → n.row.half = 0 → Completes .smbusBlockRead s fun d =>
      ∃ bs, d.out = .smbusData bs :: s.dev.out ∧ bs.length = 32 ∧ getLe bs 0 4 = s.dev.value n is % 2 ^ 32)

/-- A peer link: PEER_TRAINING_DONE, PEER_DEVNUM_EXCHANGE, PEER_FRAME_REPLAY, PEER_TIME_FRAME and PEER_TIME_COMPARISON
(R396, R397, R404). -/
def Obligations.PeerLinks : Prop :=
  (∀ (s : State) (p pport puid : Nat) (pdev : Option Nat), s.on → p < 4 → pport < 4 → (∀ k, pdev = some k → k < 4) →
    puid < 2 ^ 64 → (s.dev.peer p).st = .training → bit s.dev.cp.clocks 3 = true →
    (∀ k, pdev = some k → s.dev.devnum ≠ some k) → (∀ q, q < 4 → q ≠ p → s.dev.peerLive q = false) →
    Completes (.peerTrainingDone p pport pdev puid) s fun d =>
      d.peer p = { st := .up, pport, pdev, puid } ∧ (∀ q, q ≠ p → d.peer q = s.dev.peer q) ∧
      (∀ t ∈ d.peers.xfers, t.port = p → t.retryAt = none → t.since = none) ∧ d.log = s.dev.log) ∧
  (∀ (s : State) (p dev : Nat), s.on → p < 4 → dev < 4 → (s.dev.peer p).st = .up → s.dev.devnum ≠ some dev →
    (∀ q, q < 4 → q ≠ p → s.dev.peerLive q = false) → Completes (.peerDevnumExchange p dev) s fun d =>
      d = s.dev.setPeer p { s.dev.peer p with pdev := some dev }) ∧
  (∀ (s : State) (p k : Nat), s.on → p < 4 → k < 8 → (s.dev.peer p).st = .up → Completes (.peerFrameReplay p k) s fun d =>
    (d.peer p) = { s.dev.peer p with replays := k } ∧
    d.reg .PRT_PEER_CNT_REPLAY p = min 0xFFFFFFFF (s.dev.reg .PRT_PEER_CNT_REPLAY p + 1) ∧ d.log = s.dev.log) ∧
  (∀ (s : State) (p k : Nat), s.on → p < 4 → 8 ≤ k → (s.dev.peer p).st = .up → Completes (.peerFrameReplay p k) s fun d =>
    d.peer p = { st := .training } ∧ (∀ t ∈ d.peers.xfers, t.port = p → t.since.isSome = true)) ∧
  (∀ (s : State) (p : Nat) (h : PHdr), s.on → p < 4 → s.dev.peerTakes p 8 h → Completes (.peerTimeFrame p h false) s fun d =>
    (∃ r, d.out = .peerFrame p 8 (hdrBytes r) [] :: s.dev.out ∧ r.tag = h.tag ∧ r.dst = h.src) ∧
    d = { s.dev with out := d.out }) ∧
  (∀ (s : State) (p t1 t2 t3 t4 : Nat) (locked : Bool), s.on → p < 4 → t1 < 2 ^ 64 → t2 < 2 ^ 64 → t3 < 2 ^ 64 → t4 < 2 ^ 64 →
    (s.dev.peer p).st = .up → (s.dev.peer p).timeSent = some t1 → t1 ≤ t4 → t4 ≤ s.dev.time →
    Completes (.peerTimeComparison p t1 t2 t3 t4 locked) s fun d =>
      (d.peer p).comps = (((t2 : Int) - t1 - ((t4 : Int) - t3), ((t2 : Int) - t1 + ((t4 : Int) - t3)).toNat) ::
        (s.dev.peer p).comps).take 8 ∧
      (d.peer p).valid = (if locked && s.dev.timeLocked then min 8 ((s.dev.peer p).valid + 1) else (s.dev.peer p).valid) ∧
      (d.peer p).timeSent = none ∧ (∀ q, q ≠ p → d.peer q = s.dev.peer q))

/-- Requests of another device, and messages for MBX6: PEER_WRITE, PEER_READ, PEER_ADD, PEER_FORK, PEER_CREDIT and PEER_MBX
(R400, R402, R403). What becomes of this device's transfers: PEER_READ_DATA, PEER_ACK, PEER_NOT_READY, PEER_RETRY and
PEER_TRANSFER_TIMEOUT (R399–R401). -/
def Obligations.PeerTransfers : Prop :=
  (∀ (s : State) (p : Nat) (h : PHdr) (data : List Byte), s.on → p < 4 → s.dev.peerTakes p 0 h → s.dev.cp.dramReady = true →
    h.poison = false → globalLocal h.addr + data.length ≤ 0x6000000000 → Completes (.peerWrite p h data) s fun d =>
      d.rdBytes (globalLocal h.addr) data.length = data ∧
      (∀ b, b < globalLocal h.addr ∨ globalLocal h.addr + data.length ≤ b → d.rd b = s.dev.rd b) ∧
      (∃ r, d.out = .peerFrame p 4 (hdrBytes r) [] :: s.dev.out ∧ r.tag = h.tag ∧ r.dst = h.src ∧ r.status = 0) ∧
      d.log = s.dev.log ∧ d.engs = s.dev.engs) ∧
  (∀ (s : State) (p : Nat) (h : PHdr), s.on → p < 4 → s.dev.peerTakes p 1 h → s.dev.cp.dramReady = true →
    globalLocal h.addr + h.len ≤ 0x6000000000 → Completes (.peerRead p h none) s fun d =>
      (∃ r, d.out = .peerFrame p 2 (hdrBytes r) (s.dev.rdBytes (globalLocal h.addr) h.len) :: s.dev.out ∧ r.tag = h.tag ∧
        r.dst = h.src ∧ r.poison = s.dev.poisoned (globalLocal h.addr) h.len) ∧
      d = { s.dev with out := d.out, tgs := d.tgs, str := { s.dev.str with cache := d.str.cache } }) ∧
  (∀ (s : State) (p : Nat) (h : PHdr) (data : List Byte), s.on → p < 4 → s.dev.peerTakes p 3 h → s.dev.cp.dramReady = true →
    globalLocal h.addr + 8 ≤ 0x6000000000 → s.dev.poisoned (globalLocal h.addr) 8 = false →
    Completes (.peerAdd p h data) s fun d =>
      d.rdLe (globalLocal h.addr) 8 = (s.dev.rdLe (globalLocal h.addr) 8 + getLe data 0 8) % 2 ^ 64 ∧
      (∃ r, d.out = .peerFrame p 4 (hdrBytes r) [] :: s.dev.out ∧ r.tag = h.tag ∧ r.status = 0)) ∧
  (∀ (s : State) (p k free : Nat) (h : PHdr) (data : List Byte), s.on → p < 4 → k < 256 → s.dev.peerTakes p 5 h →
    h.poison = false → (s.dev.ctx k).desc.kind = 2 → (s.dev.ctx k).desc.persist = true → (s.dev.ctx k).st = .active →
    s.dev.space k = some free → (s.dev.ctx k).desc.esize ≤ free → forkSize h.req (s.dev.ctx k).desc.esize data = data.length →
    0 < data.length → Completes (.peerFork p h [(k, none)] false data) s fun d =>
      (d.ctx k).placed = (s.dev.ctx k).placed + (s.dev.ctx k).desc.esize ∧ (d.ctx k).prog = (s.dev.ctx k).prog + 1 ∧
      (d.ctx k).source = some (h.src, h.req, h.members) ∧ (∀ n, n ≠ k → d.ctx n = s.dev.ctx n) ∧
      d.rdLe (ctxSram k + (s.dev.ctx k).desc.prog) 8 = ((s.dev.ctx k).prog + 1) % 2 ^ 64) ∧
  (∀ (s : State) (p k cause first last missed : Nat) (h : PHdr) (data : List Byte), s.on → p < 4 → k < 256 →
    s.dev.peerTakes p 5 h → cause < 256 → first < 2 ^ 64 → last < 2 ^ 64 → missed < 2 ^ 32 → (s.dev.ctx k).desc.kind = 2 →
    (s.dev.ctx k).desc.persist = true → (s.dev.ctx k).st = .active →
    Completes (.peerFork p h [(k, some (cause, first, last, missed))] false data) s fun d =>
      (d.ctx k).st = .dropped ∧ d.rdLe (ctxSram k + (s.dev.ctx k).desc.gaprec) 8 = first ∧
      d.rdLe (ctxSram k + (s.dev.ctx k).desc.gaprec + 8) 8 = 2 ^ 64 - 1 ∧ (∀ n, n ≠ k → d.ctx n = s.dev.ctx n)) ∧
  (∀ (s : State) (p n free : Nat) (empty : Bool) (h : PHdr) (x : Member), s.on → p < 4 → s.dev.peerTakes p 6 h →
    (s.dev.ctx n).members = [x] → ((s.dev.ctx n).desc.members.getD 0 (0, 0)).1 = h.src → (s.dev.ctx n).elems = [] →
    Completes (.peerCredit p h [(n, 0, free, empty)]) s fun d =>
      d = s.dev.setCtx n { s.dev.ctx n with members := [{ x with space := free, heard := true, emptied := empty }] }) ∧
  (∀ (s : State) (p : Nat) (h : PHdr) (msg : List Byte), s.on → p < 4 → s.dev.peerTakes p 7 h → (s.dev.mb 6).state ≠ .busy →
    ((s.dev.mb 6).ver = 1 ∨ bit (byteAt msg 2) 0 = false) → Completes (.peerMbx p h msg) s fun d =>
      (d.mb 6).state = .busy ∧ (d.mb 6).rung = true ∧ (d.mb 6).cmd = cmdWords (msg.take 4096) ∧ d.peers.mbxDev = some h.src ∧
      (∀ m, m ≠ 6 → d.mb m = s.dev.mb m)) ∧
  (∀ (s : State) (p e num sc a v t i : Nat) (h : PHdr) (data : List Byte) (x : Xfer), s.on → p < 4 → e < 32 →
    s.dev.peerTakes p 2 h → h.poison = false → s.dev.xferOf p h.tag [1] = some x → x.for_ = .fence e num →
    (s.dev.eng e).hold = .fence num sc true a v t i false → Completes (.peerReadData p h data) s fun d =>
      (d.eng e).hold = .fence num sc true a v t i (decide (v ≤ getLe data 0 8)) ∧
      d.peers.xfers = s.dev.peers.xfers.erase x ∧ d = { s.dev with engs := d.engs, peers := d.peers }) ∧
  (∀ (s : State) (p n k : Nat) (h : PHdr) (x : Xfer), s.on → p < 4 → n < 256 → s.dev.peerTakes p 4 h → h.status = 0 →
    s.dev.xferOf p h.tag [0, 3] = some x → x.for_ = .stream n (s.dev.ctx n).armed (s.dev.ctx n).prog k →
    (s.dev.ctx n).moves = true → (s.dev.ctx n).fin = [] → Completes (.peerAck p h) s fun d =>
      (d.ctx n).prog = (s.dev.ctx n).prog + k ∧ (d.ctx n).pool = (s.dev.ctx n).pool ∧
      d.peers.xfers = s.dev.peers.xfers.erase x ∧
      d.rdLe (ctxSram n + (s.dev.ctx n).desc.prog) 8 = ((s.dev.ctx n).prog + k) % 2 ^ 64) ∧
  (∀ (s : State) (p : Nat) (h : PHdr), s.on → p < 4 → s.dev.peerTakes p 9 h → Completes (.peerNotReady p h) s fun d =>
    (∀ x ∈ d.peers.xfers, x.port = p → x.tag = h.tag →
      x.since.isSome = true ∧ x.retryAt = some (s.dev.time + usTc h.retry)) ∧
    d.peers.xfers.length = s.dev.peers.xfers.length ∧ d = { s.dev with peers := { s.dev.peers with xfers := d.peers.xfers } }) ∧
  (∀ (s : State) (tag : Nat) (x : Xfer), s.on → tag < 65536 →
    s.dev.peers.xfers.find? (fun t => t.tag = tag && t.retryAt.any (· ≤ s.dev.time)) = some x →
    (s.dev.peer x.port).st = .up → s.dev.behind x = false → Completes (.peerRetry tag) s fun d =>
      (∃ r, .peerFrame x.port x.typ (hdrBytes r) x.data ∈ d.out ∧ r.tag = x.tag ∧ r.addr = x.addr) ∧
      ((∀ t ∈ s.dev.peers.xfers, t.held = false) →
        x ∉ d.peers.xfers ∧ d.peers.xfers.length = s.dev.peers.xfers.length ∧ d.out.drop 1 = s.dev.out)) ∧
  (∀ (s : State) (tag n i k : Nat) (x : Xfer), s.on → tag < 65536 →
    s.dev.peers.xfers.find? (fun t => t.tag = tag && t.since.any (· + subframeTc ≤ s.dev.time)) = some x →
    x.for_ = .stream n (s.dev.ctx n).armed i k → (s.dev.ctx n).moves = true →
    Completes (.peerTransferTimeout tag) s fun d =>
      (d.ctx n).st = .fault ∧ ((∀ t ∈ s.dev.peers.xfers, t.held = false ∧ t.spill = none) →
        d.peers.xfers = s.dev.peers.xfers.erase x) ∧ d.log.written = s.dev.log.written + 2)

/-! ### Power, resets and the first second (R375–R377, R437–R455, R472–R477) -/

/-- PWRGD_RISING and PERST_N_ASSERT: a cold or PERST reset wipes the device, DRAM with it, and is named as the cause;
PERST_N_RELEASE samples the straps, and a device held in reset boots (R438–R440). RESET_BEGIN, LC_CHANGE_RESET and CP_WATCHDOG_EXPIRY: a warm or watchdog
reset keeps DRAM and counts in WARMS, and zeroes engine SRAM; a watchdog reset keeps the log; a life-cycle change zeroes
DRAM too (R439–R441, R455). -/
def Obligations.Resets : Prop :=
  (∀ (s : State) (straps : Nat), straps < 16 → s.dev.th.tripped = none → Completes (.pwrgdRising straps) s fun d =>
    d.cp.powered = true ∧ d.cp.pwrgd = true ∧ d.cp.rstCause = 0 ∧ d.cp.warms = 0 ∧ d.cp.straps = straps ∧ d.cp.ready = false ∧
    d.engs = [] ∧ d.ptiles = [] ∧ d.tmap = [] ∧ d.time = 0 ∧ d.aon = s.dev.aon ∧ d.devnum = none ∧ 0 < d.log.written ∧
    (∀ a, a < 0x8000000000 → d.rd a = 0#8)) ∧
  (∀ s : State, s.on → s.dev.cp.pwrgd = true → Completes .perstAssert s fun d =>
    d.cp.perst = true ∧ d.cp.rstCause = 1 ∧ d.cp.warms = 0 ∧ d.cp.ready = false ∧ d.engs = [] ∧ d.ptiles = [] ∧
    d.ports.host = none ∧ d.th.latched = false ∧ d.th.trips = [] ∧ d.th.total = 0 ∧ d.th.tripped = s.dev.th.tripped ∧ (∀ a, a < 0x8000000000 → d.rd a = 0#8)) ∧
  (∀ (s : State) (straps : Nat), straps < 16 → s.dev.cp.pwrgd = true → s.dev.th.latched = false →
    (s.dev.cp.perst = false ∨ s.dev.cp.powered = false) →
    Completes (.perstRelease straps) s fun d => d = { s.dev with cp := { s.dev.cp with perst := false, straps } }) ∧
  (∀ (s : State) (straps : Nat), s.on → straps < 16 → s.dev.cp.pwrgd = true → s.dev.th.latched = false → s.dev.cp.perst = true →
    Completes (.perstRelease straps) s fun d => d = Dev.boot { s.dev with cp := { s.dev.cp with perst := false, straps } }) ∧
  (∀ (s : State) (t : Nat), s.on → s.dev.cp.resetAt = some (t, .warm) → t ≤ s.dev.time → Completes .resetBegin s fun d =>
    d.cp.rstCause = 2 ∧ d.cp.warms = min 255 (s.dev.cp.warms + 1) ∧ d.cp.straps = s.dev.cp.straps ∧ d.cp.resetAt = none ∧
    d.engs = [] ∧ d.mem = s.dev.mem ∧ (∀ a, a < 0x7800000000 → d.rd a = s.dev.rd a) ∧
    (∀ a, 0x7800000000 ≤ a → a < 0x7810000000 → d.rd a = 0#8) ∧ d.ports.host = s.dev.ports.host) ∧
  (∀ (s : State) (t straps : Nat), s.on → straps < 16 → s.dev.cp.resetAt = some (t, .lifeCycle) → t ≤ s.dev.time →
    Completes (.lcChangeReset straps) s fun d =>
      d.cp.rstCause = 6 ∧ d.cp.straps = straps ∧ d.cp.lcState = s.dev.cp.lcState ∧ d.cp.keys = s.dev.cp.keys ∧ d.engs = [] ∧
      (∀ a, a < 0x8000000000 → d.rd a = 0#8)) ∧
  (∀ (s : State) (w : Nat), s.on → w < 2 ^ 32 → Completes (.cpWatchdogExpiry w) s fun d =>
    d.cp.rstCause = 4 ∧ d.cp.warms = min 255 (s.dev.cp.warms + 1) ∧ d.engs = [] ∧ d.cp.ready = false ∧
    s.dev.log.written + 2 ≤ d.log.written ∧ (∀ a, a < 0x7800000000 → d.rd a = s.dev.rd a) ∧
    (∀ a, 0x7800000000 ≤ a → a < 0x7810000000 → d.rd a = 0#8))

/-- PWRGD_FALLING, RAIL_LOSS, VDD_IO_LOSS and CLOCK_ABSENT (R374, R437, R472, R475). -/
def Obligations.LossOfPowerAndClocks : Prop :=
  (∀ s : State, Completes .pwrgdFalling s fun d =>
    d.cp.powered = false ∧ d.cp.pwrgd = false ∧ d.engs = [] ∧ d.ptiles = [] ∧ d.mbx = [] ∧ d.log = s.dev.log ∧
    d.th = s.dev.th ∧ d.aon = s.dev.aon) ∧
  (∀ (s : State) (r : Nat), r < 10 → s.dev.cp.pwrgd = true → Completes (.railLoss r) s fun d =>
    d.cp.powered = false ∧ d.cp.pwrgd = false ∧ d.engs = [] ∧ d.log.written = s.dev.log.written + 1 ∧ d.th = s.dev.th) ∧
  (∀ s : State, Completes .vddIoLoss s fun d =>
    d.cp.powered = false ∧ d.cp.pwrgd = false ∧ d.aon = 0 ∧ d.log = {} ∧ d.th = {} ∧ d.engs = []) ∧
  (∀ (s : State) (k : Nat), k < 5 → Completes (.clockAbsent k false) s fun d =>
    bit d.cp.clocks k = true ∧ d = { s.dev with cp := { s.dev.cp with clocks := d.cp.clocks } }) ∧
  (∀ s : State, Completes (.clockAbsent 1 true) s fun d =>
    bit d.cp.clocks 1 = false ∧ d.ports = { s.dev.ports with host := none } ∧ d.tl = s.dev.tl) ∧
  (∀ s : State, Completes (.clockAbsent 4 true) s fun d => bit d.cp.clocks 4 = false ∧ d.tl.ppsOk = false ∧ d.ports = s.dev.ports)

/-- CP_READY, DRAM_READY, REGION_ACQUISITION_START, REGION_READY and DEVICE_READY (R442–R447). -/
def Obligations.BringUp : Prop :=
  (∀ s : State, s.on → s.dev.cp.ready = false → s.dev.cp.perst = false → Completes .cpReady s fun d =>
    d.cp.ready = true ∧ (∀ m, m < 8 → (d.mb m).intStat.getLsbD 3 = true) ∧
    (s.dev.cp.recovery = false → ∀ k, k < 4 → ((d.stk k).comb (s.dev.stk k).active).powered = true ∧
      (s.dev.laserHot k = false → (d.stk k).combA.powered = true ∧ (d.stk k).combB.powered = true))) ∧
  (∀ s : State, s.on → Completes .dramReady s fun d => d = { s.dev with cp := { s.dev.cp with dramReady := true } }) ∧
  (∀ (s : State) (rg : Nat), s.on → rg < 8 → s.dev.cp.ready = true → s.dev.cp.recovery = false → s.dev.lit (rg / 2) = true →
    Completes (.regionAcquisitionStart rg) s fun d =>
      (∀ p ∈ regionTiles rg, (s.dev.pt p).lock = .off → (s.dev.pt p).parking = false →
        (d.pt p).lock = .ramp ∧ (d.pt p).since = s.dev.time) ∧
      (∀ p, p ∉ regionTiles rg → (d.pt p).lock = (s.dev.pt p).lock)) ∧
  (∀ (s : State) (rg : Nat), s.on → rg < 8 → bit s.dev.cp.regions rg = false → s.dev.regionConditions rg = true →
    (s.dev.rgn rg).up = false → Completes (.regionReady rg) s fun d =>
      bit d.cp.regions rg = true ∧ (d.rgn rg).up = true ∧ (∀ k, k < 4 → (d.eng (4 * rg + k)).st = .idle) ∧
      (∀ q, q ≠ rg → bit d.cp.regions q = bit s.dev.cp.regions q)) ∧
  (∀ s : State, s.on → s.dev.cp.ready = true → s.dev.cp.recovery = false → s.dev.cp.device = false →
    (∀ rg, rg < 8 → bit s.dev.cp.regions rg = true ∨ (s.dev.stk (rg / 2)).dark = true) → bit s.dev.cp.straps 1 = false →
    Completes .deviceReady s fun d =>
      d.cp.device = true ∧ tfind d.cp.fails s.dev.cp.slot = none ∧ s.dev.cp.svn ≤ d.cp.svn ∧
      (∀ n, n < 54 → d.rf .TG_CFG 0 1 n = (if bit s.dev.cp.tgTest n = true ∨
        (48 ≤ n ∧ n < 52 ∧ s.dev.tgFrozen n = true) then 1 else 0)) ∧
      (∀ n, n < 54 → ∀ b, 1 ≤ b → bit (d.reg .TG_CFG n) b = bit (s.dev.reg .TG_CFG n) b))

/-- FLASH_WRITE_COMPLETE and LC_ZEROING_COMPLETE complete in every state: while an update is under way its slot is written, and
the CP answers whether the image passes the checks of the boot ROM; while a life-cycle change is under way the state changes, DRAM
reads zero and the reset follows 1 ms later; and neither changes the device where no such work is under way (R450, R453, R455). -/
def Obligations.FlashAndLifeCycle : Prop :=
  (∀ (s : State) (j : Job), s.on → s.dev.cp.jobs.find? (fun j => j.opcode = 0x0107 && !j.v1) = some j →
    ∃ d t, Sys2Proof.Machine.exec .flashWriteComplete s = .next t ∧ t = { s with dev := s.dev.finish d } ∧
      d.cp.flash = Memory.writeBytes s.dev.cp.flash (slotBase (j.f 0 1)) (s.dev.rdBytes (j.f 8 8) (j.f 4 4)) ∧
      d.cp.jobs = s.dev.cp.jobs.erase j ∧ d.cp.slot = s.dev.cp.slot ∧ d.engs = s.dev.engs ∧ d.log = s.dev.log ∧
      (j.held = false → d.mbx = (s.dev.asyncDone j.mbx j.opcode j.seq
        (if Dev.imageOk { s.dev with cp := { s.dev.cp with flash := d.cp.flash } } (j.f 0 1) then stOk else stBadField)).mbx)) ∧
  (∀ (s : State) (j : Job), s.on → s.dev.cp.jobs.find? (fun j => j.opcode = 0x0105 && !j.v1) = some j →
    ∃ d t, Sys2Proof.Machine.exec .lcZeroingComplete s = .next t ∧ t = { s with dev := s.dev.finish d } ∧
      d.cp.lcState = j.f 0 1 ∧ d.cp.lcCount = (s.dev.cp.lcCount + 1) % 2 ^ 16 ∧ d.cp.windows = [] ∧
      d.cp.resetAt = some (s.dev.time + 1966080, .lifeCycle) ∧ d.cp.jobs = s.dev.cp.jobs.erase j ∧
      (∀ a, a < 0x6000000000 → d.rd a = 0#8) ∧ (∀ a, 0x6000000000 ≤ a → d.rd a = s.dev.rd a)) ∧
  (∀ s : State, s.on → s.dev.cp.jobs.find? (fun j => j.opcode = 0x0107 && !j.v1) = none →
    Completes .flashWriteComplete s fun d => d = s.dev) ∧
  (∀ s : State, s.on → s.dev.cp.jobs.find? (fun j => j.opcode = 0x0105 && !j.v1) = none →
    Completes .lcZeroingComplete s fun d => d = s.dev)

/-! ### Converters, light and roadworks (R119, R319–R358) -/

/-- AUX_SAMPLE_INSTANT, MADC_ENTRY_COMPLETE, MADC_ROUND_START and MADC_TRIGGER: a running channel takes its queue's next code, or
its ramp's; an entry's result stands in its register and the next entry follows; a trigger aborts the regular entry
(R319, R321, R326, R327, R329). -/
def Obligations.ConvertersRun : Prop :=
  (∀ (s : State) (rg n c : Nat) (q : List Nat), s.on → rg < 8 → n < 8 → s.dev.auxRun rg n = true → s.dev.auxMode rg n = 1 →
    (s.dev.aux rg n).due s.dev.time = true → (s.dev.aux rg n).queue = c :: q → c < 65536 → Completes (.auxSampleInstant rg n) s fun d =>
      (d.aux rg n).queue = q ∧ (d.aux rg n).empty = false ∧ (d.aux rg n).sampled = s.dev.time ∧ d.rf .DAC_AUX_CODE 0 16 rg n = c ∧
      (∀ k, k ≠ n → d.aux rg k = s.dev.aux rg k)) ∧
  (∀ (s : State) (rg n : Nat), s.on → rg < 8 → n < 8 → s.dev.auxRun rg n = true → s.dev.auxMode rg n = 3 →
    (s.dev.aux rg n).due s.dev.time = true → (s.dev.aux rg n).begun = true → Completes (.auxSampleInstant rg n) s fun d =>
      d.rf .DAC_AUX_CODE 0 16 rg n =
        (if s.dev.rf .DAC_AUX_LIM 16 16 rg n < s.dev.rf .DAC_AUX_CODE 0 16 rg n + s.dev.rf .DAC_AUX_STEP 0 16 rg n
          then s.dev.rf .DAC_AUX_LIM 0 16 rg n else s.dev.rf .DAC_AUX_CODE 0 16 rg n + s.dev.rf .DAC_AUX_STEP 0 16 rg n) ∧
      (d.aux rg n).sampled = s.dev.time ∧ (∀ k, k ≠ n → d.aux rg k = s.dev.aux rg k) ∧
      d = { s.dev with regs := d.regs, rgs := d.rgs }) ∧
  (∀ (s : State) (rg c w tile : Nat) (raws : List Nat), s.on → rg < 8 → c < 2 → (s.dev.madc rg c).st = 1 →
    (s.dev.madc rg c).waiting = false → (s.dev.madc rg c).entry < s.dev.rf .MADC_C_CFG 8 5 rg c →
    w = s.dev.reg .MADC_C_REG rg c (s.dev.madc rg c).entry → fld w 12 3 = 0 → fld w 0 6 ≠ 63 →
    (s.dev.madcSignal rg (s.dev.madc rg c) (fld w 0 6)).tile.all (· = tile) = true →
    (s.dev.madc rg c).start + entryTime w ≤ 100 * s.dev.time → okRaws raws = true →
    Completes (.madcEntryComplete rg c raws tile) s fun d =>
      (d.madc rg c).entry = (s.dev.madc rg c).entry + 1 ∧ (d.madc rg c).st = 1 ∧
      (d.madc rg c).start = (s.dev.madc rg c).start + entryTime w ∧ (d.madc rg c).tile = s.dev.spare rg ∧
      d.rf .MADC_C_RES 16 12 rg c (s.dev.madc rg c).entry = raws.getD 0 0 % 4096 ∧
      d.rf .MADC_C_RES 31 1 rg c (s.dev.madc rg c).entry = 1 ∧
      d.rf .MADC_C_RES 0 16 rg c (s.dev.madc rg c).entry = 
        unsx 16 (clampInt (-32768) 32767 (Config.madcValue rg c (fld w 0 6) (raws.getD 0 0 % 4096)))) ∧
  (∀ (s : State) (rg c per : Nat), s.on → rg < 8 → c < 2 → per = s.dev.roundPeriod rg c → per ≠ 0 →
    s.dev.time / per ≠ (s.dev.madc rg c).round → (s.dev.madc rg c).st = 1 →
    (s.dev.madc rg c).waiting = true → Completes (.madcRoundStart rg c) s fun d =>
      d = s.dev.setMadc rg c { s.dev.madc rg c with
        waiting := false, entry := 0, round := s.dev.time / per, start := 100 * (s.dev.time / per * per)
        tile := s.dev.spare rg }) ∧
  (∀ (s : State) (rg c b : Nat), s.on → rg < 8 → c < 2 → b < 5 → bit (s.dev.reg .MADC_C_CFG rg c) (24 + b) = true →
    bit (s.dev.reg .MADC_C_CFG rg c) 19 = true → (s.dev.madc rg c).st = 1 → (s.dev.madc rg c).waiting = false →
    Completes (.madcTrigger rg c b) s fun d =>
      d.madc rg c = { s.dev.madc rg c with
        st := 2, entry := 0, cause := 2 ^ b, back := some (s.dev.madc rg c).entry, restart := true
        start := (s.dev.madc rg c).tick s.dev.time, tile := s.dev.spare rg } ∧
      d.reg .MADC_C_CNT_ABORT rg c = min 0xFFFFFFFF (s.dev.reg .MADC_C_CNT_ABORT rg c + 1))

/-- LINE_MONITOR_ROUND, LOSS_DETECTOR, DETOUR_WAIT, DETOUR_VERIFY and DETOUR_GAP_CLOSE (R340–R347). COMB_STANDBY,
COMB_ALIGNED and ALIGNMENT_CHECK: a comb comes up, aligns, and is aligned again where its check fails (R338, R339). -/
def Obligations.LightCombs : Prop :=
  (∀ (s : State) (k : Nat) (powers : List Int), s.on → k < 4 → powers.length = 64 → (s.dev.stk k).dark = false → (s.dev.stk k).gap = none →
    (s.dev.stk k).level = 0 → lsaThrOk (s.dev.reg .LSA_THR (2 * k)) = true →
    (∀ l, l < 64 → -(fld (s.dev.reg .LSA_THR (2 * k)) 0 10 : Int) < powers.getD l 0 ∧ powers.getD l 0 ≤ 32767) →
    Completes (.lineMonitorRound k powers) s fun d =>
      (∀ l, l < 64 → tget (d.stk k).lines l 0 = powers.getD l 0) ∧ (d.stk k).level = 0 ∧ (d.stk k).warnN = 0 ∧
      (d.stk k).schedN = 0 ∧ (d.stk k).forceN = 0 ∧ (∀ j, j ≠ k → d.stk j = s.dev.stk j) ∧ d = { s.dev with stks := d.stks }) ∧
  (∀ (s : State) (k : Nat) (powers : List Int), s.on → k < 4 → powers.length = 64 → (s.dev.stk k).dark = false → (s.dev.stk k).gap = none →
    (s.dev.stk k).level < 2 → (s.dev.stk k).schedN = 1 → lsaThrOk (s.dev.reg .LSA_THR (2 * k)) = true →
    (∃ l, l < 64 ∧ powers.getD l 0 ≤ -(fld (s.dev.reg .LSA_THR (2 * k)) 10 10 : Int)) →
    (∀ l, l < 64 → -(fld (s.dev.reg .LSA_THR (2 * k)) 20 10 : Int) < powers.getD l 0 ∧ powers.getD l 0 ≤ 32767) →
    Completes (.lineMonitorRound k powers) s fun d =>
      (d.stk k).level = 2 ∧ (d.stk k).schedN = 2 ∧ (d.stk k).armedAt = s.dev.time ∧ (d.stk k).disarmed = false ∧
      (d.stk k).gap = none ∧ d.log.written = s.dev.log.written + (if (s.dev.stk k).level = 0 ∧ 1 ≤ (s.dev.stk k).warnN then 2 else 1)) ∧
  (∀ (s : State) (k : Nat), s.on → k < 4 → (s.dev.stk k).dark = false → (s.dev.stk k).gap = none → (s.dev.stk k).level < 3 →
    ((s.dev.stk k).comb (s.dev.stk k).spareComb).st = .aligned → Completes (.lossDetector k) s fun d =>
      (d.stk k).level = 3 ∧ (d.stk k).gap =
        some { t0 := s.dev.time, forced := true, close := some (s.dev.time + detourTc), switched := true
               origin := s.dev.time, dark := (s.dev.stk k).lastFair }) ∧
  (∀ (s : State) (k : Nat), s.on → k < 4 → (s.dev.stk k).level = 2 → (s.dev.stk k).disarmed = false →
    (s.dev.stk k).waited = false → (s.dev.stk k).gap = none → (s.dev.stk k).armedAt + tcPerSec ≤ s.dev.time →
    Completes (.detourWait k) s fun d =>
      d.stk k = { s.dev.stk k with waited := true } ∧ d.log = s.dev.log) ∧
  (∀ (s : State) (k : Nat) (powers : List Int) (eq : List Nat) (g : Gap), s.on → k < 4 → powers.length = 64 →
    (s.dev.stk k).gap = some g → g.switched = true → g.verified = false → g.origin + verifyTc ≤ s.dev.time → (∀ l, l < 64 → -50 ≤ powers.getD l 0 ∧ powers.getD l 0 ≤ 50) →
    Completes (.detourVerify k powers eq) s fun d =>
      (d.stk k).active = (s.dev.stk k).spareComb ∧ ((d.stk k).comb (s.dev.stk k).spareComb).st = .inUse ∧
      ((d.stk k).comb (s.dev.stk k).active).st = .degraded ∧ (d.stk k).level = 0 ∧
      (d.stk k).gap = some { g with verified := true } ∧ d.log.written = s.dev.log.written + 2) ∧
  (∀ (s : State) (k t : Nat) (g : Gap), s.on → k < 4 → (s.dev.stk k).gap = some g → g.close = some t → t ≤ s.dev.time →
    g.verified = true → g.forced = false →
    (s.dev.rgn (2 * k)).held = none → (s.dev.rgn (2 * k + 1)).held = none → Completes (.detourGapClose k) s fun d =>
      (d.stk k).gap = none ∧ (d.stk k).gapEnd = some s.dev.time ∧ (∀ j, j ≠ k → d.stk j = s.dev.stk j)) ∧
  (∀ (s : State) (k c : Nat), s.on → k < 4 → c < 2 → ((s.dev.stk k).comb c).powered = true → ((s.dev.stk k).comb c).st = .off →
    Completes (.combStandby k c true) s fun d =>
      ((d.stk k).comb c).st = (if (s.dev.stk k).unlit = true ∧ (s.dev.stk k).dark = false ∧ (s.dev.stk k).active = c then .inUse
        else if ((s.dev.stk k).comb c).want = true then .aligning else .standby) ∧
      (d.stk k).comb (1 - c) = (s.dev.stk k).comb (1 - c) ∧ d = { s.dev with stks := d.stks }) ∧
  (∀ (s : State) (k c : Nat) (grid : Int × Int) (lines : List Int), s.on → k < 4 → c < 2 →
    ((s.dev.stk k).comb c).st = .aligning → (s.dev.stk k).gridOk grid = true → s.dev.readmitting k c = false →
    (s.dev.stk k).dark = false → (s.dev.stk k).gap = none → s.dev.laserHot k = false →
    Completes (.combAligned k c (some grid) lines) s fun d =>
      ((d.stk k).comb c).st = .aligned ∧ ((d.stk k).comb c).want = false ∧ (d.stk k).disarmed = false ∧
      (d.stk k).comb (1 - c) = { (s.dev.stk k).comb (1 - c) with powered := ((d.stk k).comb (1 - c)).powered } ∧
      d = { s.dev with stks := d.stks }) ∧
  (∀ (s : State) (k c : Nat) (grid : Int × Int) (lines : List Int), s.on → k < 4 → c < 2 →
    ((s.dev.stk k).comb c).st = .aligning → (s.dev.stk k).gridOk grid = false →
    Completes (.combAligned k c (some grid) lines) s fun d => d = s.dev) ∧
  (∀ (s : State) (k : Nat) (grid : Int × Int), s.on → k < 4 → ((s.dev.stk k).comb (s.dev.stk k).spareComb).st = .aligned →
    (s.dev.stk k).gridOk grid = false → Completes (.alignmentCheck k grid) s fun d =>
      ((d.stk k).comb (s.dev.stk k).spareComb).st = .aligning ∧ ((d.stk k).comb (s.dev.stk k).spareComb).want = true ∧
      d = { s.dev with stks := d.stks })

/-- A roadworks switch, step by step: ROADWORKS_AUTO_FIRING, SPARE_PREPARE, ROADWORKS_DRAIN_END, SWAP_LOAD_DONE, SWAP_COMPLETE,
CALIBRATION_STEP and CALIBRATION_COMPLETE (R119, R350–R356). -/
def Obligations.RoadworksSteps : Prop :=
  (∀ (s : State) (rg lt t : Nat), s.on → rg < 8 → s.dev.rdwkDue rg (max (s.dev.rgn rg).fired s.dev.tl.before) s.dev.time = some t →
    s.dev.rdwkMode rg = 0 → s.dev.rf .DEV_RDWK_CFG 0 2 rg = 0 →
    s.dev.cp.device = true → bit s.dev.cp.regions rg = true → (s.dev.stk (rg / 2)).dark = false →
    s.dev.inGap (rg / 2) = false → s.dev.waitingTile rg = none → s.dev.nextTile rg = some lt → s.dev.spare rg ≠ 0xFF →
    (s.dev.rgn rg).cal = none → (s.dev.rgn rg).swap = none → (s.dev.rgn rg).ready = true →
    (s.dev.rgn rg).prep = some lt → Completes (.roadworksAutoFiring rg) s fun d =>
      (d.rgn rg).fired = t ∧ (∃ w, (d.rgn rg).swap = some w ∧ w.lt = lt ∧ w.old = s.dev.phys lt ∧ w.new = s.dev.spare rg ∧ w.takeover = false) ∧
      (d.ltSlot lt).st = .swapping ∧ (∀ k, k < 4 → (d.eng (4 * rg + k)).rdwkSeen = true)) ∧
  (∀ (s : State) (rg lt : Nat), s.on → rg < 8 → s.dev.spare rg ≠ 0xFF → (s.dev.rgn rg).cal = none → (s.dev.rgn rg).swap = none →
    (s.dev.pt (s.dev.spare rg)).up = true → (s.dev.rgn rg).preparing = false → s.dev.roleTile rg = some lt →
    s.dev.prepareDue rg = true →
    Completes (.sparePrepare rg) s fun d =>
      (d.rgn rg).preparing = true ∧ (d.rgn rg).ready = false ∧ (d.rgn rg).prep = some lt ∧
      (d.pt (s.dev.spare rg)).warm = some (if s.dev.phys lt = 0xFF then tget (s.dev.rgn rg).lastDuty lt 0 else (s.dev.pt (s.dev.phys lt)).duty / 64)) ∧
  (∀ (s : State) (rg : Nat) (w : Swap), s.on → rg < 8 → (s.dev.rgn rg).swap = some w → w.loading = false →
    s.dev.inGap (rg / 2) = false → (s.dev.ltSlot w.lt).quietAll = true → Completes (.roadworksDrainEnd rg) s fun d =>
      (d.rgn rg).swap = some { w with loading := true, stepAt := s.dev.aon } ∧ (d.ltSlot w.lt).stale = false ∧
      (d.ltSlot w.lt).st = (s.dev.ltSlot w.lt).st ∧ (∀ q, (d.pt q).lock = (s.dev.pt q).lock) ∧
      d = { s.dev with rgs := d.rgs, engs := d.engs, ptiles := d.ptiles }) ∧
  (∀ (s : State) (rg : Nat) (w : Swap), s.on → rg < 8 → (s.dev.rgn rg).swap = some w → w.loading = true → w.updated = false →
    reloadDue 64 w.stepAt s.dev.aon = true → Completes (.swapLoadDone rg) s fun d =>
      d.phys w.lt = w.new ∧
      d.spare rg = (if w.old = 0xFF ∨ (s.dev.pt w.old).lock = .faulted then 0xFF else w.old) ∧
      (∀ n, n ≠ w.lt → d.phys n = s.dev.phys n) ∧ (d.rgn rg).swap = some { w with updated := true, stepAt := s.dev.aon } ∧
      d.reg .TILE_CNT_RELOAD (w.lt / 4) (w.lt % 4) = min 0xFFFFFFFF (s.dev.reg .TILE_CNT_RELOAD (w.lt / 4) (w.lt % 4) + 1)) ∧
  (∀ (s : State) (rg : Nat) (w : Swap), s.on → rg < 8 → (s.dev.rgn rg).swap = some w → w.updated = true → w.takeover = false →
    7 * 30720 ≤ (s.dev.aon - w.stepAt) * 15625 → s.dev.spare rg ≠ 0xFF → (s.dev.ltSlot w.lt).st = .swapping →
    s.dev.phys w.lt = w.new → (s.dev.pt w.new).up = true →
    Completes (.swapComplete rg) s fun d =>
      (d.rgn rg).swap = none ∧ (d.rgn rg).cal = some w.old ∧ (d.rgn rg).step = 2 ∧
      ((s.dev.ltSlot (16 * rg + (w.lt - 16 * rg + 1) % 16)).st.passedOver = false →
        (d.rgn rg).next = (w.lt - 16 * rg + 1) % 16) ∧ (d.ltSlot w.lt).st = .idle ∧
      s.dev.log.written < d.log.written) ∧
  (∀ (s : State) (rg p : Nat) (vals : List (Nat × Int)) (curves : List (Nat × List (Int × Int))), s.on → rg < 8 →
    (s.dev.rgn rg).cal = some p → 2 ≤ (s.dev.rgn rg).step → (s.dev.rgn rg).step ≤ 6 → s.dev.inGap (rg / 2) = false →
    ((s.dev.rgn rg).step = 6 → (s.dev.pt p).acq.phase = 6) →
    Completes (.calibrationStep rg true vals curves) s fun d =>
      (d.rgn rg).step = (s.dev.rgn rg).step + 1 ∧ (d.rgn rg).cal = some p ∧ (∀ q, q ≠ p → d.pt q = s.dev.pt q) ∧
      (∀ q, q ≠ rg → d.rgn q = s.dev.rgn q) ∧
      d = { s.dev with rgs := d.rgs, ptiles := d.ptiles, regs := d.regs, tgs := d.tgs }) ∧
  (∀ (s : State) (rg p : Nat), s.on → rg < 8 → (s.dev.rgn rg).cal = some p → (s.dev.rgn rg).step = 7 →
    (s.dev.pt p).staged = [] → (s.dev.pt p).modeNext = none → s.dev.rdwkMode rg ≠ 2 → Completes (.calibrationComplete rg) s fun d =>
      (d.rgn rg).cal = none ∧ (d.rgn rg).step = 0 ∧ (d.rgn rg).results = [] ∧ (d.pt p).lock = (s.dev.pt p).lock ∧
      (∀ q, q ≠ p → d.pt q = s.dev.pt q))

/-- SAFE_POINT_REACHED of an engine, of a physical tile outside the map, and of a fronthaul port (R31, R358, R359). -/
def Obligations.SafePoints : Prop :=
  (∀ (s : State) (e : Nat), s.on → e < 32 → (s.dev.eng e).st = .shutdown → (s.dev.eng e).run = none →
    (s.dev.eng e).issueq = [] → (s.dev.eng e).macq = [] → (s.dev.eng e).vecq = [] → (s.dev.eng e).delq = [] →
    (s.dev.eng e).sigq = [] → (∀ t, t < 4 → (s.dev.slot e t).st = .off) → s.dev.cp.jobs = [] →
    Completes (.safePointReached 0 e) s fun d => d = s.dev.setEng e { s.dev.eng e with st := .off, areas := [] }) ∧
  (∀ (s : State) (p : Nat), s.on → p < 136 → (s.dev.pt p).parking = true → (s.dev.pt p).arrived = true →
    s.dev.logicalOf p = none →
    Completes (.safePointReached 1 p) s fun d =>
      (d.pt p).parking = false ∧ (d.pt p).trim = [] ∧ (∀ r, r < 4160 → tget (d.pt p).htr r 0 = s.dev.park p r) ∧
      (∀ q, q ≠ p → d.pt q = s.dev.pt q) ∧ d = { s.dev with ptiles := d.ptiles, regs := d.regs }) ∧
  (∀ (s : State) (p : Nat), s.on → p < 8 → (s.dev.fh p).st = .shutdown → s.dev.cp.jobs = [] →
    Completes (.safePointReached 2 (0x10 + p)) s fun d =>
      d = { s.dev.setFh p { s.dev.fh p with st := .off, link := false } with
        tl := if (s.dev.fh p).link = true ∧ p = s.dev.rf .TL_CFG 4 3 then { s.dev.tl with esmcQl := none, ptp := {} }
          else s.dev.tl })

/-! ### Roadbook commands: device and life cycle (R29, R412, R426, R434, R441, R449–R455) -/

/-- GET_INFO and v1 INFO; SET_DEVNUM, once, to a number no connected device has; FN_ASSIGN of resources that no other
function holds. A port that then clashes enters DEVNUM_CONFLICT (R397). FW_UPDATE begins the write of the other slot, or of
any in recovery; FW_SELECT names the slot of the next boot; GRANT_DIRECT opens the lowest free window on registers that may
be granted, and REVOKE_DIRECT closes one (R434). -/
def Obligations.IdentityFirmwareAndGrants : Prop :=
  (∀ (s : State) (c : Cmd) (i : Instr) (n : Nat),
    (i = .getInfo ∧ n = 12 ∧ s.holds c 0x0100) ∨ (i = .info ∧ n = 8 ∧ s.holds c 0x01 true) → Completes i s fun d =>
      Dev.answersWith s.dev d c 0 ((pack [(1, s.dev.cp.lcState), (1, s.dev.devnum.getD 0xFF), (1, s.dev.cp.slot), (1, 6),
        (4, s.dev.fwver), (2, s.dev.cp.regions % 256 + b2n s.dev.cp.device * 256), (2, 0x10)]).take n)) ∧
  (∀ (s : State) (c : Cmd), s.holds c 0x0101 → c.f 0 1 ≤ 3 → s.dev.devnum = none →
    (∀ p, p < 4 → (s.dev.peer p).pdev ≠ some (c.f 0 1)) → Completes .setDevnum s fun d =>
      ∃ x : Dev, Dev.answersWith x d c 0 ∧ x.devnum = some (c.f 0 1) ∧
        x = { s.dev with devnum := x.devnum, peers := x.peers, log := x.log, mbx := x.mbx, out := x.out } ∧
        ((∀ p, p < 4 → Dev.peerClash { s.dev with devnum := some (c.f 0 1) } p = false) →
          x = { s.dev with devnum := some (c.f 0 1) })) ∧
  (∀ (s : State) (c : Cmd) (n : Nat), s.holds c 0x0101 → c.f 0 1 ≤ 3 → s.dev.devnum = some n →
    Completes .setDevnum s fun d => Dev.answersWith s.dev d c 8 (zeros 4)) ∧
  (∀ (s : State) (c : Cmd), s.holds c 0x0102 → (1 ≤ c.f 0 1 ∧ c.f 0 1 ≤ 4) ∨ c.f 0 1 = 6 → c.f 1 1 ≤ 6 ∨ c.f 1 1 = 0xFF →
    c.f 2 2 + c.f 4 2 ≤ 4096 →
    (∀ o ∈ [1, 2, 3, 4, 6], o ≠ c.f 0 1 →
      (c.f 2 2 + c.f 4 2 ≤ (s.dev.fnOf o).msFirst ∨ (s.dev.fnOf o).msFirst + (s.dev.fnOf o).msCount ≤ c.f 2 2) ∧
      c.f 8 4 &&& (s.dev.fnOf o).engmask = 0 ∧ c.f 12 4 &&& (s.dev.fnOf o).fhmask = 0) →
    (c.f 0 1 ≤ 4 → s.dev.ports.vfs = true →
      c.f 1 1 = (s.dev.fnOf (c.f 0 1)).bar2log ∧ c.f 16 8 = (s.dev.fnOf (c.f 0 1)).dramBase) →
    Completes .fnAssign s fun d =>
      let r : FnRes := { bar2log := c.f 1 1, msFirst := c.f 2 2, msCount := c.f 4 2, engmask := c.f 8 4, fhmask := c.f 12 4
                         dramBase := c.f 16 8 }
      Dev.answersWith { s.dev with cp := { s.dev.cp with fns := tset s.dev.cp.fns (c.f 0 1) r } } d c 0) ∧
  (∀ (s : State) (c : Cmd), s.holds c 0x0107 → c.f 0 1 ≤ 1 → (c.f 0 1 = s.dev.cp.slot → s.dev.cp.recovery = true) →
    512 ≤ c.f 4 4 → c.f 4 4 ≤ slotSize (c.f 0 1) → c.f 8 8 % 8 = 0 → inDram (c.f 8 8) (c.f 4 4) = true → s.dev.lcChanging = false →
    Completes .fwUpdate s fun d => Dev.beginsJob s.dev d c) ∧
  (∀ (s : State) (c : Cmd), s.holds c 0x0108 → c.f 0 1 ≤ 1 → Completes .fwSelect s fun d =>
    Dev.answersWith { s.dev with cp := { s.dev.cp with bootSel := c.f 0 1 } } d c 0) ∧
  (∀ (s : State) (c : Cmd) (w : Nat), s.holds c 0x0109 → c.f 0 4 % 4 = 0 → c.f 4 4 % 4 = 0 → 4 ≤ c.f 4 4 →
    c.f 4 4 ≤ 4096 → (∀ k, k < c.f 4 4 / 4 → s.dev.grantable (c.f 0 4 + 4 * k) = true) →
    s.dev.covered (c.f 0 4) (c.f 4 4) = false → w < 8 → tfind s.dev.cp.windows w = none →
    (∀ v, v < w → tfind s.dev.cp.windows v ≠ none) → Completes .grantDirect s fun d =>
      Dev.answersWith { s.dev with cp := { s.dev.cp with windows := tset s.dev.cp.windows w (c.f 0 4, c.f 4 4) } } d c 0
        [BitVec.ofNat 8 w]) ∧
  (∀ (s : State) (c : Cmd), s.holds c 0x010A → tfind s.dev.cp.windows (c.f 0 1) ≠ none → Completes .revokeDirect s fun d =>
    tfind d.cp.windows (c.f 0 1) = none ∧
    Dev.answersWith { s.dev with cp := { s.dev.cp with windows := tdrop s.dev.cp.windows (c.f 0 1) } } d c 0)

/-- ENABLE (R358, R359, R424): a fronthaul port that is off trains; a port that runs is disabled, and the command's work ends
at its safe point; an engine that runs stops decoding, its run cancelled; a logical tile that is off starts its acquisition,
or waits unbound where no physical tile serves it. A module whose
quad's MODE may have changed selects its Application anew (R406). -/
def Obligations.EnableStartsAndStops : Prop :=
  (∀ (s : State) (c : Cmd) (p : Nat), s.holds c 0x0103 → c.f 0 1 = 2 → c.f 1 1 = 1 → p < 8 → c.f 2 2 = 0x10 + p →
    (s.dev.fh p).st = .off → Completes .enable s fun d =>
      let x0 : Dev := s.dev.setFh p { s.dev.fh p with
        en := true, st := if (s.dev.fhRate p).isSome then .training else .off }
      ∃ x : Dev, Dev.answersWith x d c 0 ∧
        x = { x0 with ports := { x0.ports with mods := x.ports.mods }, log := x.log, mbx := x.mbx, out := x.out } ∧
        ((x0.mod (x0.busOf p)).st ≠ 2 → (x0.mod (x0.busOf p)).st ≠ 4 → x = x0) ∧
        ((x0.mod (x0.busOf p)).st = 2 → x0.modMatches (x0.busOf p) (x0.mod (x0.busOf p)).rates = false →
          (x.mod (x0.busOf p)).st = 4)) ∧
  (∀ (s : State) (c : Cmd) (p : Nat), s.holds c 0x0103 → c.f 0 1 = 2 → c.f 1 1 = 1 → p < 4 → c.f 2 2 = 0x20 + p →
    bit s.dev.cp.straps 3 = false → (s.dev.peer p).st = .down → Completes .enable s fun d =>
      (d.peer p).st = .training ∧ ∃ x : Dev, Dev.answersWith x d c 0 ∧ x = { s.dev with peers := x.peers }) ∧
  (∀ (s : State) (c : Cmd) (p : Nat), s.holds c 0x0103 → c.f 0 1 = 2 → c.f 1 1 = 0 → p < 8 → c.f 2 2 = 0x10 + p →
    (s.dev.fh p).st ≠ .off → (s.dev.fh p).st ≠ .shutdownRestart → Completes .enable s fun d =>
      ∃ x : Dev, Dev.beginsJob s.dev x c ∧ d = x.setFh p { s.dev.fh p with en := false, st := .shutdown }) ∧
  (∀ (s : State) (c : Cmd) (e : Nat), s.holds c 0x0103 → c.f 0 1 = 0 → c.f 1 1 = 0 → e < 32 → c.f 2 2 = e →
    s.dev.mayEngine c.mbx e = true → s.dev.regionUp (e / 4) = true → (s.dev.eng e).st ≠ .off →
    (s.dev.eng e).st ≠ .shutdown → (s.dev.eng e).st ≠ .shutdownRestart → Completes .enable s fun d =>
      (d.eng e).st = .shutdown ∧ c.job s.dev.cp.nextJob ∈ d.cp.jobs ∧ d.cp.cur = none ∧
      (∀ r, (s.dev.eng e).run = some r → r.fail = none → ∃ r', (d.eng e).run = some r' ∧ r'.fail = some (statCancelled, 0, 0))) ∧
  (∀ (s : State) (c : Cmd) (lt : Nat), s.holds c 0x0103 → c.f 0 1 = 1 → c.f 1 1 = 1 → lt < 128 → c.f 2 2 = lt →
    s.dev.mayEngine c.mbx (lt / 4) = true → s.dev.regionUp (lt / 16) = true → (s.dev.slot (lt / 4) (lt % 4)).st = .off →
    s.dev.phys lt = 0xFF ∨ s.dev.logicalOf (s.dev.phys lt) = some lt → Completes .enable s fun d =>
      (d.slot (lt / 4) (lt % 4)).st = (if s.dev.phys lt = 0xFF then .unbound else .acquiring) ∧ d.cp.cur = none ∧
      (s.dev.phys lt ≠ 0xFF → (d.pt (s.dev.phys lt)).lock = .ramp ∧ (d.pt (s.dev.phys lt)).acq.full = true))

/-- RESET and v1 RESET order a warm reset 1 ms on (R441); LC_ADVANCE begins the change (R453–R455): no engine keeps a
placement and no fronthaul port takes frames; KEY_INSTALL of an empty slot. -/
def Obligations.ResetAndLifeCycleCommands : Prop :=
  (∀ (s : State) (c : Cmd) (i : Instr), (i = .reset ∧ s.holds c 0x0104) ∨ (i = .v1Reset ∧ s.holds c 0x02 true) →
    c.f 0 1 ≤ 1 → s.dev.lcChanging = false → Completes i s fun d =>
      Dev.answersWith { s.dev with cp := { s.dev.cp with
        resetAt := some (s.dev.time + 1966080, if c.f 0 1 = 0 then .warm else .warmLog) } } d c 0) ∧
  (∀ (s : State) (c : Cmd), s.holds c 0x0105 → lcAllowed s.dev.cp.lcState (c.f 0 1) = true → s.dev.lcChanging = false →
    (c.f 0 1 = 1 → s.dev.keyIn 0 = true ∧ s.dev.keyIn 1 = true) → (c.f 0 1 = 3 → s.dev.cp.returns < 7) →
    s.dev.cp.lcState = 0 ∨ s.dev.authorised (c.f 8 8) (c.f 0 1) = true → Completes .lcAdvance s fun d =>
      c.job s.dev.cp.nextJob ∈ d.cp.jobs ∧ d.cp.cur = none ∧ d.cp.lcState = s.dev.cp.lcState ∧
      (∀ e, e < 32 → (d.eng e).placed = []) ∧
      (∀ p, p < 8 → (d.fh p).en = false ∧ ((d.fh p).st = .off ∨ (d.fh p).st = .shutdown))) ∧
  (∀ (s : State) (c : Cmd), s.holds c 0x0106 → c.f 0 1 ≤ 3 → c.f 8 8 % 8 = 0 → inDram (c.f 8 8) 56 = true →
    getLe (s.dev.rdBytes (c.f 8 8) 56) 0 1 = c.f 0 1 → getLe (s.dev.rdBytes (c.f 8 8) 56) 1 7 = 0 →
    s.dev.keyIn (c.f 0 1) = false → Completes .keyInstall s fun d =>
      Dev.answersWith { s.dev with
        tgs := d.tgs, str := { s.dev.str with cache := d.str.cache }
        cp := { s.dev.cp with keys := tset s.dev.cp.keys (c.f 0 1) (slice (s.dev.rdBytes (c.f 8 8) 56) 8 48) } } d c 0) ∧
  (∀ (s : State) (c : Cmd), s.holds c 0x0106 → c.f 0 1 ≤ 3 → c.f 8 8 % 8 = 0 → inDram (c.f 8 8) 56 = true →
    getLe (s.dev.rdBytes (c.f 8 8) 56) 0 1 = c.f 0 1 → getLe (s.dev.rdBytes (c.f 8 8) 56) 1 7 = 0 →
    s.dev.keyIn (c.f 0 1) = true → Completes .keyInstall s fun d =>
      Dev.answersWith { s.dev with tgs := d.tgs, str := { s.dev.str with cache := d.str.cache } } d c 8 (zeros 4))

/-! ### Roadbook commands: time and Milestones (R226, R229, R230, R233, R237–R247) -/

/-- TIME_SET under HOST, PPS_LABEL, FREQ_TRIM, TIME_SRC, PTP_ADDR, TIME_STEP_BACK, CT_CFG and TIME_STATUS. MS_WRITE puts
entries into the shadow bank, MS_READ answers those of a bank, and MS_COMMIT makes a commit pending for the first slot
boundary at or after 4.17 µs from now (R244, R246, R247); while one is pending it is refused. -/
def Obligations.TimeAndMilestoneCommands : Prop :=
  (∀ (s : State) (c : Cmd), s.holds c 0x0200 → s.dev.tlSrc = 0 →
    (s.dev.tl.everLocked = true → s.dev.time ≤ c.f 0 8 ∨ s.dev.backAllowed = true) → Completes .timeSet s fun d =>
      ∃ x : Dev, Dev.answersWith x d c 0 ∧ x.time = c.f 0 8 ∧ x.tl.state = .locked ∧ x.tl.slew = 0) ∧
  (∀ (s : State) (c : Cmd), s.holds c 0x0200 → s.dev.tlSrc = 0 → s.dev.tl.everLocked = true → c.f 0 8 < s.dev.time →
    s.dev.backAllowed = false → Completes .timeSet s fun d => Dev.answersWith s.dev d c 8 (zeros 4)) ∧
  (∀ (s : State) (c : Cmd), s.holds c 0x0201 → Completes .ppsLabel s fun d =>
    Dev.answersWith { s.dev with tl := { s.dev.tl with ppsLabel := some (c.f 0 8) } } d c 0) ∧
  (∀ (s : State) (c : Cmd), s.holds c 0x0202 → -100000 ≤ sx 32 (c.f 0 4) → sx 32 (c.f 0 4) ≤ 100000 →
    Completes .freqTrim s fun d =>
      Dev.answersWith { s.dev with tl := { s.dev.tl with trimPpb := sx 32 (c.f 0 4) } } d c 0) ∧
  (∀ (s : State) (c : Cmd), s.holds c 0x0203 → c.f 0 1 ≤ 2 → c.f 1 1 ≤ 7 → c.f 2 1 ≤ 1 → c.f 3 1 ≤ 1 → c.f 5 1 ≤ 1 →
    Completes .timeSrc s fun d =>
      d.tlSrc = c.f 0 1 ∧ d.rf .TL_CFG 4 3 = c.f 1 1 ∧ d.rf .TL_CFG 8 1 = c.f 2 1 ∧ d.rf .TL_CFG 7 1 = c.f 3 1 ∧
      d.tl.ptpDomain = c.f 4 1 ∧ d.rf .TL_CFG 12 1 = c.f 5 1 ∧ d.rf .TL_CFG 16 8 = c.f 6 1 ∧ d.rf .TL_CFG 24 8 = c.f 7 1 ∧
      d.rf .TL_CFG 13 1 = s.dev.rf .TL_CFG 13 1 ∧
      ∃ x : Dev, Dev.answersWith x d c 0 ∧ x.time = s.dev.time ∧ (c.f 0 1 = s.dev.tlSrc →
        x.tl = { s.dev.tl with ptpDomain := c.f 4 1, ptp := {}, esmcQl := if c.f 1 1 = s.dev.rf .TL_CFG 4 3 then s.dev.tl.esmcQl else none } ∧
        x = { s.dev with tl := x.tl, regs := x.regs, out := x.out })) ∧
  (∀ (s : State) (c : Cmd), s.holds c 0x0204 → c.f 0 1 = 4 ∨ c.f 0 1 = 6 → Completes .ptpAddr s fun d =>
    Dev.answersWith { s.dev with tl := { s.dev.tl with
      ptpFamily := c.f 0 1, ptpOwn := slice c.payload 1 16, ptpMaster := slice c.payload 17 16, ptp := {} } } d c 0) ∧
  (∀ (s : State) (c : Cmd), s.holds c 0x0205 → c.f 0 8 < s.dev.time → s.dev.backAllowed = true →
    Completes .timeStepBack s fun d => ∃ x : Dev, Dev.answersWith x d c 0 ∧ x.time = c.f 0 8 ∧
      x.log.written = s.dev.log.written + 1 ∧
      x.tl = { s.dev.tl with
        slew := 0, before := c.f 0 8, stepped := true, stepAt := some (c.f 0 8)
        ppsEdge := s.dev.tl.ppsEdge.map (stepT ((c.f 0 8 : Int) - s.dev.time))
        ppsInAt := s.dev.tl.ppsInAt.map (· + ((c.f 0 8 : Int) - s.dev.time)) } ∧
      x = { s.dev with
        time := x.time, tl := x.tl, log := x.log, mbx := x.mbx, out := x.out, engs := x.engs, rgs := x.rgs
        ptiles := x.ptiles, stks := x.stks, str := { s.dev.str with wdogFrom := x.str.wdogFrom }
        ms := { s.dev.ms with
          last := none, prior := [], enabled := s.dev.ms.enabled.map (fun e => (e.1, min (c.f 0 8) e.2)) } }) ∧
  (∀ (s : State) (c : Cmd), s.holds c 0x0205 → c.f 0 8 < s.dev.time → s.dev.backAllowed = false →
    Completes .timeStepBack s fun d => Dev.answersWith s.dev d c 8 (zeros 4)) ∧
  (∀ (s : State) (c : Cmd), s.holds c 0x0206 → c.f 0 1 ≤ 7 → c.f 1 1 ≤ 6 → c.f 2 1 ≤ 1 → (c.f 2 1 = 1 → c.f 1 1 = 2) →
    c.f 3 1 ≤ 1 →
    (s.dev.ctEn (c.f 0 1) = true → s.dev.numer (c.f 0 1) = { mu := c.f 1 1, ecp := decide (c.f 2 1 = 1) } ∧
      s.dev.ctOfs (c.f 0 1) = c.f 8 8 ∧ (c.f 3 1 = 0 → s.dev.ctInUse (c.f 0 1) = false)) →
    (s.dev.ctEn (c.f 0 1) = false → s.dev.fallsOut (c.f 0 1) { mu := c.f 1 1, ecp := decide (c.f 2 1 = 1) } = false) →
    Completes .ctCfg s fun d =>
      d.reg .TL_CT_CFG (c.f 0 1) = 16 * c.f 1 1 + 2 * c.f 2 1 + c.f 3 1 ∧ d.ctOfs (c.f 0 1) = c.f 8 8 ∧
      (c.f 3 1 = 1 → s.dev.ctEn (c.f 0 1) = false → tfind d.ms.enabled (c.f 0 1) = some s.dev.time) ∧
      ∃ x : Dev, Dev.answersWith x d c 0 ∧ x = { s.dev with
        regs := x.regs, ms := { s.dev.ms with enabled := x.ms.enabled } }) ∧
  (∀ (s : State) (c : Cmd), s.holds c 0x0207 → Completes .timeStatus s fun d =>
    Dev.answersWith s.dev d c 0 (pack [(4, s.dev.tlStatus), (4, s.dev.value .TL_OFFSET []), (8, s.dev.time)])) ∧
  (∀ (s : State) (c : Cmd), s.holds c 0x0300 → c.f 0 2 ≤ 4095 → 1 ≤ c.f 2 2 → c.f 2 2 ≤ 127 → c.f 0 2 + c.f 2 2 ≤ 4096 →
    (∀ i, i < c.f 2 2 → s.dev.entryBad (c.entry32 i) = none ∧ s.dev.inDomain c.mbx (c.f 0 2 + i) = true ∧
      s.dev.mayMasks c.mbx (c.entry32 i) = true) →
    s.dev.ms.commit = none → Completes .msWrite s fun d =>
      (∀ i, i < c.f 2 2 → d.msShadow (c.f 0 2 + i) = BitVec.ofNat 256 (c.f (8 + 32 * i) 32)) ∧
      (∀ k, k < c.f 0 2 ∨ c.f 0 2 + c.f 2 2 ≤ k → d.msShadow k = s.dev.msShadow k) ∧
      Dev.answersWith { s.dev with ms := { s.dev.ms with shadow := d.ms.shadow } } d c 0) ∧
  (∀ (s : State) (c : Cmd), s.holds c 0x0301 → c.f 0 2 ≤ 4095 → 1 ≤ c.f 2 2 → c.f 2 2 ≤ 127 → c.f 0 2 + c.f 2 2 ≤ 4096 →
    c.f 4 1 ≤ 1 → Completes .msRead s fun d =>
      Dev.answersWith s.dev d c 0 ((List.range (c.f 2 2)).flatMap (fun i => leBytes 32
        (if c.f 4 1 = 0 then s.dev.msShadow (c.f 0 2 + i) else s.dev.msActive (c.f 0 2 + i)).toNat))) ∧
  (∀ (s : State) (c : Cmd), s.holds c 0x0302 → c.f 0 1 ≤ 7 → s.dev.ctEn (c.f 0 1) = true → s.dev.ms.commit = none →
    Completes .msCommit s fun d =>
      Dev.answersWith { s.dev with ms := { s.dev.ms with
          commit := some { ct := c.f 0 1, b := s.dev.nextBoundary (c.f 0 1) (s.dev.time + 8192), mbx := c.mbx }
          lastCt := c.f 0 1, lastB := s.dev.nextBoundary (c.f 0 1) (s.dev.time + 8192) } } d c 0
        (leBytes 8 (s.dev.nextBoundary (c.f 0 1) (s.dev.time + 8192)))) ∧
  (∀ (s : State) (c : Cmd), s.holds c 0x0302 → c.f 0 1 ≤ 7 → s.dev.ctEn (c.f 0 1) = true → s.dev.ms.commit ≠ none →
    Completes .msCommit s fun d => Dev.answersWith s.dev d c 8 (zeros 4))

/-! ### Roadbook commands: streams, task lists and residency (R134, R159, R186–R218, R380, R424) -/

/-- STRM_ARM arms a context that takes it, STRM_REARM moves the base of a persistent one at once or at its pass's end,
STRM_DISARM returns one to IDLE; SCRUB_CFG and POOL_CFG write the scrubber's and, with no context armed, the pool's
registers. COPY begins its work; COPY_COMPLETE ends the oldest: from the host to DRAM, from DRAM to the host, or within
DRAM, the bytes stand where they were to go, and nothing else in memory changes; a transfer that failed ends FAULTED and
stores nothing, and one to a peer becomes WRITEs of at most 64 KiB, at whose end it ends (R380, R399, R400, R424). -/
def Obligations.StreamAndCopyCommands : Prop :=
  (∀ (s : State) (c : Cmd), s.holds c 0x0400 → c.f 0 2 ≤ 287 → s.dev.mayCtx c.mbx (c.f 0 2) = true →
    s.dev.mayName c.mbx (Desc.ofBytes (slice c.payload 8 96)) = true →
    s.dev.ctxUp (c.f 0 2) = true → s.dev.cp.dramReady = true → s.dev.descBad (c.f 0 2) (slice c.payload 8 96) = false →
    (s.dev.ctx (c.f 0 2)).takesArm = true →
    s.dev.reserveShort (c.f 0 2) (Desc.ofBytes (slice c.payload 8 96)).resv = false → Completes .strmArm s fun d =>
      (d.ctx (c.f 0 2)).desc = Desc.ofBytes (slice c.payload 8 96) ∧ (d.ctx (c.f 0 2)).mbx = c.mbx ∧
      (d.ctx (c.f 0 2)).armed = s.dev.str.nextArm ∧ d.str.nextArm = s.dev.str.nextArm + 1 ∧
      (∀ a, isDram a = true → d.rd a = s.dev.rd a) ∧ ∃ x : Dev, Dev.answersWith x d c 0 ∧ x.engs = s.dev.engs) ∧
  (∀ (s : State) (c : Cmd), s.holds c 0x0401 → c.f 0 2 ≤ 287 → s.dev.mayCtx c.mbx (c.f 0 2) = true →
    ((s.dev.ctx (c.f 0 2)).desc.kind = 4 → c.f 8 8 % 8 = 0) →
    s.dev.ctxUp (c.f 0 2) = true → (s.dev.ctx (c.f 0 2)).takesRearm = true → Completes .strmRearm s fun d =>
      ((s.dev.ctx (c.f 0 2)).st = .passEnd → (d.ctx (c.f 0 2)).desc.base = c.f 8 8 ∧ (d.ctx (c.f 0 2)).issued = 0 ∧
        ∃ x : Dev, Dev.answersWith x d c 0) ∧
      ((s.dev.ctx (c.f 0 2)).st ≠ .passEnd →
        Dev.answersWith (s.dev.setCtx (c.f 0 2) { s.dev.ctx (c.f 0 2) with rearm := some (c.f 8 8) }) d c 0)) ∧
  (∀ (s : State) (c : Cmd), s.holds c 0x0401 → c.f 0 2 ≤ 287 → (s.dev.ctx (c.f 0 2)).desc.kind = 4 → c.f 8 8 % 8 ≠ 0 →
    Completes .strmRearm s fun d => Dev.answersWith s.dev d c 5 (leBytes 4 8)) ∧
  (∀ (s : State) (c : Cmd), s.holds c 0x0402 → c.f 0 2 ≤ 287 → s.dev.mayCtx c.mbx (c.f 0 2) = true →
    s.dev.ctxUp (c.f 0 2) = true → Completes .strmDisarm s fun d =>
      (d.ctx (c.f 0 2)).st = .idle ∧ ∃ x : Dev, Dev.answersWith x d c 0 ∧
        ((s.dev.ctx (c.f 0 2)).st = .idle → x = s.dev)) ∧
  (∀ (s : State) (c : Cmd), s.holds c 0x0404 → c.f 0 1 ≤ 1 → Completes .scrubCfg s fun d =>
    (s.dev.armedCtxs = [] → Dev.answersWith (s.dev.setReg .STRM_SCRUB (c.f 0 1 * 2 ^ 31 + c.f 2 2)) d c 0) ∧
    (s.dev.armedCtxs ≠ [] →
      Dev.answersWith (s.dev.setReg .STRM_SCRUB (setFld (s.dev.reg .STRM_SCRUB) 0 16 (c.f 2 2))) d c 0)) ∧
  (∀ (s : State) (c : Cmd), s.holds c 0x0405 → c.f 4 4 ≤ 4095 → c.f 8 8 % 2 ^ 20 = 0 →
    inDram (c.f 8 8) (c.f 4 4 * 2 ^ 20) = true → s.dev.armedCtxs = [] → Completes .poolCfg s fun d =>
      d.rf .STRM_CFG 0 16 = c.f 2 2 ∧ d.rf .STRM_CFG 16 8 = c.f 0 1 ∧ d.rf .STRM_SPILL_LO 8 12 = c.f 4 4 ∧
      d.rf .STRM_SPILL_LO 20 12 = c.f 8 8 / 2 ^ 20 % 2 ^ 12 ∧ d.rf .STRM_SPILL_HI 0 7 = c.f 8 8 / 2 ^ 32 ∧
      (∀ k, (tget d.str.cache k []).length ≤ d.cacheWays k) ∧
      Dev.answersWith { s.dev with
        regs := d.regs, tgs := d.tgs, str := { s.dev.str with cache := d.str.cache } } d c 0) ∧
  (∀ (s : State) (c : Cmd), s.holds c 0x0403 → c.f 0 1 ≤ 2 → (c.f 0 1 ≠ 0 → c.f 8 8 < 2 ^ 41) →
    (c.f 0 1 ≠ 1 → c.f 16 8 < 2 ^ 41) → 1 ≤ c.f 24 8 → c.f 24 8 ≤ 2 ^ 30 → s.dev.cp.dramReady = true →
    Completes .copy s fun d => Dev.beginsJob s.dev d c) ∧
  (∀ (s : State) (j : Job) (data : List Byte) (ok : Bool), s.on →
    s.dev.cp.jobs.find? (fun j => j.opcode = 0x0403 && !j.v1 && j.left = 0) = some j →
    Completes (.copyComplete data ok) s fun d =>
      (ok = false → d.cp.jobs = s.dev.cp.jobs.erase j ∧ d.wr = s.dev.wr ∧ (j.held = true → (d.mb j.mbx).lastStatus = 11 ∧ (d.mb j.mbx).state = .done)) ∧
      (ok = true → j.f 0 1 = 0 → s.dev.isLocal (j.f 16 8) = true → isDram (globalLocal (j.f 16 8) + j.f 24 8 - 1) = true →
        d.cp.jobs = s.dev.cp.jobs.erase j ∧ (j.held = true → (d.mb j.mbx).lastStatus = 0 ∧ (d.mb j.mbx).state = .done) ∧
        (∀ k, k < j.f 24 8 → d.rd (globalLocal (j.f 16 8) + k) = data.getD k 0#8) ∧
        (∀ a, a < globalLocal (j.f 16 8) ∨ globalLocal (j.f 16 8) + j.f 24 8 ≤ a → d.rd a = s.dev.rd a)) ∧
      (ok = true → j.f 0 1 = 1 → s.dev.isLocal (j.f 8 8) = true → isDram (globalLocal (j.f 8 8) + j.f 24 8 - 1) = true →
        s.dev.poisoned (globalLocal (j.f 8 8)) (j.f 24 8) = false → d.cp.jobs = s.dev.cp.jobs.erase j ∧ d.wr = s.dev.wr ∧
        .hostWrite (j.f 16 8) ((List.range (j.f 24 8)).map (fun k => s.dev.rd (globalLocal (j.f 8 8) + k))) ∈ d.out) ∧
      (ok = true → j.f 0 1 = 2 → s.dev.isLocal (j.f 8 8) = true → s.dev.isLocal (j.f 16 8) = true →
        isDram (globalLocal (j.f 8 8) + j.f 24 8 - 1) = true → isDram (globalLocal (j.f 16 8) + j.f 24 8 - 1) = true →
        s.dev.poisoned (globalLocal (j.f 8 8)) (j.f 24 8) = false → d.cp.jobs = s.dev.cp.jobs.erase j ∧
        (∀ k, k < j.f 24 8 → d.rd (globalLocal (j.f 16 8) + k) = s.dev.rd (globalLocal (j.f 8 8) + k)) ∧
        (∀ a, a < globalLocal (j.f 16 8) ∨ globalLocal (j.f 16 8) + j.f 24 8 ≤ a → d.rd a = s.dev.rd a)) ∧
      (ok = true → j.f 0 1 = 0 → s.dev.isLocal (j.f 16 8) = false → s.dev.jobOf j.num = some j → 1 ≤ j.f 24 8 → d.wr = s.dev.wr ∧
        (s.dev.portTo (globalDev (j.f 16 8)) = none → j.held = true →
          (d.mb j.mbx).lastStatus = 11 ∧ (d.mb j.mbx).state = .done) ∧
        (∀ p, s.dev.portTo (globalDev (j.f 16 8)) = some p →
          d.jobOf j.num = some { j with left := (j.f 24 8 + 65535) / 65536, reads := false, parts := [] } ∧
          (d.mb j.mbx) = s.dev.mb j.mbx ∧ ∀ i, i < (j.f 24 8 + 65535) / 65536 → ∃ x ∈ d.peers.xfers,
            x.port = p ∧ x.typ = 0 ∧ x.addr = j.f 16 8 + 65536 * i ∧ x.len = min 65536 (j.f 24 8 - 65536 * i) ∧
            x.data = ((padTo (j.f 24 8) data).drop (65536 * i)).take 65536 ∧ x.for_ = .cp j.num (65536 * i))))

/-- LIST_PLACE and v1 RUN append one placement, with one PLACE_ID, to each engine named (R134); LIST_CANCEL removes those
not started and with MODE 1 stops the running list; ENG_QUERY answers; ENG_CFG writes the engine's registers. RSLOT_INSTALL
gives a residency slot its tiles, which no other slot of the engine holds, and its gap; RES_WRITE installs directory entries
with SCORE and HITS 0 and RESIDENT as it stood; RES_READ answers them (R186, R187, R189). -/
def Obligations.ListAndResidencyCommands : Prop :=
  (∀ (s : State) (c : Cmd), s.holds c 0x0500 → c.f 12 2 ≤ 4095 ∨ c.f 12 2 = 0xFFFF → c.f 14 2 ≤ 4095 ∨ c.f 14 2 = 0xFFFF →
    (c.f 12 2 ≠ 0xFFFF → s.dev.mayEntry c.mbx (c.f 12 2) = true) →
    (c.f 14 2 ≠ 0xFFFF → s.dev.mayEntry c.mbx (c.f 14 2) = true) → c.f 8 4 ≠ 0 →
    (∀ e, e < 32 → bit (c.f 8 4) e = true → listAddrOk (c.f 0 8) e = true ∧ s.dev.mayEngine c.mbx e = true ∧
      s.dev.regionUp (e / 4) = true ∧ (s.dev.eng e).held < 8 ∧ (s.dev.eng e).st ≠ .off ∧ (s.dev.eng e).st ≠ .shutdown ∧
      (s.dev.eng e).st ≠ .shutdownRestart) → Completes .listPlace s fun d =>
      (∀ e, e < 32 → bit (c.f 8 4) e = true → ∃ q : Placement, (d.eng e).placed = (s.dev.eng e).placed ++ [q] ∧
        q.list = c.f 0 8 ∧ q.start = (if c.f 12 2 = 0xFFFF then none else some (c.f 12 2)) ∧
        q.deadline = (if c.f 14 2 = 0xFFFF then none else some (c.f 14 2)) ∧ q.placeId = s.dev.nextPlace ∧ q.mbx = c.mbx ∧
        q.made = s.dev.time ∧
        q.bias = c.f (16 + 8 * ((List.range e).filter (bit (c.f 8 4))).length) 8) ∧
      (∀ e, bit (c.f 8 4) e = false → d.eng e = s.dev.eng e) ∧ d.nextPlace = (s.dev.nextPlace + 1) % 2 ^ 16 ∧
      ∃ x : Dev, Dev.answersWith x d c 0 (leBytes 2 s.dev.nextPlace) ∧
        x = { s.dev with
          engs := x.engs, nextPlace := x.nextPlace, ms := x.ms, log := x.log, mbx := x.mbx, out := x.out } ∧
        (s.dev.ms.commit = none → x.ms = s.dev.ms)) ∧
  (∀ (s : State) (c : Cmd), s.holds c 0x05 true → c.f 0 4 ≠ 0 →
    (∀ e, e < 32 → bit (c.f 0 4) e = true → listAddrOk (c.f 8 8) e = true ∧ s.dev.mayEngine c.mbx e = true ∧
      s.dev.regionUp (e / 4) = true ∧ (s.dev.eng e).held < 8 ∧ (s.dev.eng e).st ≠ .off ∧ (s.dev.eng e).st ≠ .shutdown ∧
      (s.dev.eng e).st ≠ .shutdownRestart) → Completes .run s fun d =>
      (∀ e, e < 32 → bit (c.f 0 4) e = true → (d.eng e).placed = (s.dev.eng e).placed ++ [{
        list := c.f 8 8, start := none, deadline := none, bias := 0, placeId := s.dev.nextPlace, mbx := c.mbx
        anchor := some s.dev.time, made := s.dev.time }]) ∧
      (∀ e, bit (c.f 0 4) e = false → d.eng e = s.dev.eng e) ∧
      ∃ x : Dev, Dev.answersWith x d c 0 ∧ x = { s.dev with
          engs := d.engs, nextPlace := (s.dev.nextPlace + 1) % 2 ^ 16, ms := x.ms, mbx := x.mbx, out := x.out } ∧
        (s.dev.ms.commit = none → x = { s.dev with engs := d.engs, nextPlace := (s.dev.nextPlace + 1) % 2 ^ 16 })) ∧
  (∀ (s : State) (c : Cmd), s.holds c 0x0501 → c.f 0 4 ≠ 0 → c.f 4 1 ≤ 1 →
    (∀ e, e < 32 → bit (c.f 0 4) e = true → s.dev.mayEngine c.mbx e = true ∧ s.dev.regionUp (e / 4) = true) →
    Completes .listCancel s fun d =>
      (∀ e, e < 32 → bit (c.f 0 4) e = true → (d.eng e).placed = [] ∧ (c.f 4 1 = 0 → (d.eng e).run = (s.dev.eng e).run) ∧
        (∀ r, c.f 4 1 = 1 → (s.dev.eng e).run = some r → r.fail = none →
          (d.eng e).run = some { r with fail := some (statCancelled, 0, 0) })) ∧
      (∀ e, bit (c.f 0 4) e = false → d.eng e = s.dev.eng e) ∧ (c.f 4 1 = 0 → d.tgs = s.dev.tgs) ∧
      Dev.answersWith { s.dev with engs := d.engs, tgs := d.tgs } d c 0) ∧
  (∀ (s : State) (c : Cmd), s.holds c 0x0502 → c.f 0 1 ≤ 31 → Completes .engQuery s fun d =>
    Dev.answersWith s.dev d c 0 (pack [(4, s.dev.engStatus (c.f 0 1)), (4, (s.dev.eng (c.f 0 1)).seq),
      (8, (s.dev.eng (c.f 0 1)).pc), (1, (s.dev.eng (c.f 0 1)).held)])) ∧
  (∀ (s : State) (c : Cmd), s.holds c 0x0503 → c.f 0 1 ≤ 31 → strays (c.f 4 4) 0xFF01FF00 = false →
    s.dev.mayEngine c.mbx (c.f 0 1) = true → s.dev.regionUp (c.f 0 1 / 4) = true → Completes .engCfg s fun d =>
      d.reg .DEV_SKIPTHR (c.f 0 1) = c.f 2 2 ∧ d.reg .ENG_CFG (c.f 0 1) = c.f 4 4 ∧
      Dev.answersWith { s.dev with regs := d.regs } d c 0) ∧
  (∀ (s : State) (c : Cmd), s.holds c 0x0600 → c.f 0 1 ≤ 31 → c.f 1 1 ≤ 3 → c.f 2 1 ≤ 15 →
    (∀ r ∈ (s.dev.eng (c.f 0 1)).rslots, r.1 ≠ c.f 1 1 → r.2.tmask &&& c.f 2 1 = 0) → 2 ≤ c.f 4 4 → c.f 4 4 ≤ 100 →
    s.dev.mayEngine c.mbx (c.f 0 1) = true → s.dev.regionUp (c.f 0 1 / 4) = true → Completes .rslotInstall s fun d =>
      tfind (d.eng (c.f 0 1)).rslots (c.f 1 1) = some { tmask := c.f 2 1, gapUs := c.f 4 4 } ∧
      Dev.answersWith (s.dev.setEng (c.f 0 1)
        { s.dev.eng (c.f 0 1) with rslots := (d.eng (c.f 0 1)).rslots }) d c 0) ∧
  (∀ (s : State) (c : Cmd), s.holds c 0x0601 → c.f 0 2 ≤ 4095 → 1 ≤ c.f 2 2 → c.f 2 2 ≤ 127 → c.f 0 2 + c.f 2 2 ≤ 4096 →
    (∀ i, i < c.f 2 2 → s.dev.resBad (c.entry32 i) = none ∧ s.dev.mayEngine c.mbx (fld (c.entry32 i).toNat 40 5) = true ∧
      s.dev.regionUp (fld (c.entry32 i).toNat 40 5 / 4) = true ∧
      (bit (tget s.dev.res (c.f 0 2 + i) 0#256).toNat 32 = true →
        s.dev.mayEngine c.mbx (fld (tget s.dev.res (c.f 0 2 + i) 0#256).toNat 40 5) = true)) → Completes .resWrite s fun d =>
      (∀ i, i < c.f 2 2 → tget d.res (c.f 0 2 + i) 0#256 = BitVec.ofNat 256 (setFld (setFld (c.entry32 i).toNat 192 64 0) 35 1
        (fld (tget s.dev.res (c.f 0 2 + i) 0#256).toNat 35 1))) ∧
      (∀ k, k < c.f 0 2 ∨ c.f 0 2 + c.f 2 2 ≤ k → tget d.res k 0#256 = tget s.dev.res k 0#256) ∧
      Dev.answersWith { s.dev with res := d.res } d c 0) ∧
  (∀ (s : State) (c : Cmd), s.holds c 0x0602 → c.f 0 2 ≤ 4095 → 1 ≤ c.f 2 2 → c.f 2 2 ≤ 127 → c.f 0 2 + c.f 2 2 ≤ 4096 →
    Completes .resRead s fun d => Dev.answersWith s.dev d c 0
      ((List.range (c.f 2 2)).flatMap (fun i => leBytes 32 (tget s.dev.res (c.f 0 2 + i) 0#256).toNat)))

/-! ### Roadbook commands: tiles, lock, calibration and lasers (R64, R73–R77, R275, R290, R300, R308, R337–R345, R360, R427) -/

/-- CURVE_WRITE, GAINSET_WRITE, LTAB_WRITE and v1 LTWR: a valid image is installed at once on a tile that serves no logical
tile, and staged for the end of the next calibration on one that does, with PENDING; CURVE_READ, LTAB_READ and v1 LTRD give
the images back. -/
def Obligations.ImageCommands : Prop :=
  (∀ (s : State) (c : Cmd), s.holds c 0x0700 → c.f 0 1 ≤ 135 → curveBad (slice c.payload 8 136) = none →
    s.dev.regionUp (regionOfP (c.f 0 1)) = true → Completes .curveWrite s fun d =>
      (s.dev.logicalOf (c.f 0 1) = none →
        tfind (d.pt (c.f 0 1)).curves (if c.f 8 1 = 1 then 64 else c.f 9 1) = some (imagePoints (slice c.payload 8 136)) ∧
        Dev.answersWith (s.dev.setPt (c.f 0 1) { s.dev.pt (c.f 0 1) with
          curves := (d.pt (c.f 0 1)).curves, tcals := (d.pt (c.f 0 1)).tcals }) d c 0) ∧
      (s.dev.logicalOf (c.f 0 1) ≠ none →
        (d.pt (c.f 0 1)).staged = (s.dev.pt (c.f 0 1)).staged.filter (fun x => !(x.typ = c.f 8 1 && x.index = c.f 9 1)) ++
          [{ typ := c.f 8 1, index := c.f 9 1, bytes := slice c.payload 8 136, mbx := c.mbx, opcode := 0x0700, seq := c.seq }] ∧
        ∃ x : Dev, Dev.answersWith x d c 1 ∧ x = { s.dev with ptiles := x.ptiles, mbx := x.mbx, out := x.out })) ∧
  (∀ (s : State) (c : Cmd), s.holds c 0x0702 → c.f 0 1 ≤ 135 → imageAt (c.f 8 8) 19736 = true →
    gainOk (s.dev.rdBytes (c.f 8 8) 19736) = true → s.dev.regionUp (regionOfP (c.f 0 1)) = true →
    Completes .gainsetWrite s fun d =>
      let h : Dev := { s.dev with tgs := d.tgs, str := { s.dev.str with cache := d.str.cache } }
      (s.dev.logicalOf (c.f 0 1) = none →
        tfind (d.pt (c.f 0 1)).gains (s.dev.rd (c.f 8 8 + 1)).toNat = some (s.dev.rdBytes (c.f 8 8) 19736) ∧
        Dev.answersWith (h.setPt (c.f 0 1) { s.dev.pt (c.f 0 1) with gains := (d.pt (c.f 0 1)).gains }) d c 0) ∧
      (s.dev.logicalOf (c.f 0 1) ≠ none →
        { typ := 3, index := (s.dev.rd (c.f 8 8 + 1)).toNat, bytes := s.dev.rdBytes (c.f 8 8) 19736, mbx := c.mbx,
          opcode := 0x0702, seq := c.seq } ∈ (d.pt (c.f 0 1)).staged ∧
        ∃ x : Dev, Dev.answersWith x d c 1 ∧ x = { h with ptiles := x.ptiles, mbx := x.mbx, out := x.out })) ∧
  (∀ (s : State) (c : Cmd) (i : Instr), (i = .ltabWrite ∧ s.holds c 0x0707) ∨ (i = .ltwr ∧ s.holds c 0x07 true) →
    c.f 0 2 ≤ 135 → c.f 8 8 % 8 = 0 → inDram (c.f 8 8) 133128 = true → ltabOk (s.dev.rdBytes (c.f 8 8) 133128) = true →
    s.dev.regionUp (regionOfP (c.f 0 2)) = true → Completes i s fun d =>
      let h : Dev := { s.dev with tgs := d.tgs, str := { s.dev.str with cache := d.str.cache } }
      (s.dev.logicalOf (c.f 0 2) = none →
        (∀ k, k < 66560 → d.ltEntry (c.f 0 2) k = s.dev.rdLe (c.f 8 8 + 8 + 2 * k) 2) ∧
        Dev.answersWith (h.setPt (c.f 0 2) { s.dev.pt (c.f 0 2) with ltab := (d.pt (c.f 0 2)).ltab }) d c 0) ∧
      (s.dev.logicalOf (c.f 0 2) ≠ none →
        { typ := 4, index := 0, bytes := s.dev.rdBytes (c.f 8 8) 133128, mbx := c.mbx, opcode := c.opcode, seq := c.seq } ∈
          (d.pt (c.f 0 2)).staged ∧
        ∃ x : Dev, Dev.answersWith x d c 1 ∧ x = { h with ptiles := x.ptiles, mbx := x.mbx, out := x.out })) ∧
  (∀ (s : State) (c : Cmd), s.holds c 0x0701 → c.f 0 1 ≤ 135 → c.f 1 1 = 1 ∨ c.f 1 1 = 2 → c.f 2 1 ≤ 63 →
    (c.f 1 1 = 1 → c.f 2 1 = 0) → Completes .curveRead s fun d => ∃ img, img.length = 136 ∧
      img.take 4 = leBytes 1 (c.f 1 1) ++ leBytes 1 (c.f 2 1) ++
        leBytes 2 (min 32 (s.dev.curveOf (c.f 0 1) (if c.f 1 1 = 1 then 64 else c.f 2 1)).length) ∧
      Dev.answersWith s.dev d c 0 img) ∧
  (∀ (s : State) (c : Cmd) (i : Instr), (i = .ltabRead ∧ s.holds c 0x0708) ∨ (i = .ltrd ∧ s.holds c 0x08 true) →
    c.f 0 2 ≤ 135 → c.f 8 8 % 8 = 0 → inDram (c.f 8 8) 133128 = true → Completes i s fun d =>
      (∀ k, k < 66560 → d.rdLe (c.f 8 8 + 8 + 2 * k) 2 = s.dev.ltEntry (c.f 0 2) k % 65536) ∧
      (∀ a, a < c.f 8 8 ∨ c.f 8 8 + 133128 ≤ a → d.rd a = s.dev.rd a) ∧
      ∃ x : Dev, Dev.answersWith x d c 0 ∧ x = { s.dev with
        wr := x.wr, tgs := x.tgs, str := { s.dev.str with poison := x.str.poison, cache := x.str.cache } })

/-- LOCK_CFG writes a logical tile's lock registers, or a spare's configuration, and stages a change of MODE; v1 RECAL and
LMODE change one field; TILE_CFG writes its register; RDWK_CFG writes the roadworks configuration. -/
def Obligations.TileConfigurationCommands : Prop :=
  (∀ (s : State) (c : Cmd), s.holds c 0x0703 → c.f 0 2 < 128 → c.f 4 4 % 4 < 2 →
    (∀ k, k < 6 → strays (c.f (4 + 4 * k) 4) (lockRegs.getD k .LOCK_CFG).row.rw = false) →
    s.dev.regionUp (c.f 0 2 / 16) = true → Completes .lockCfg s fun d =>
      (∀ k, 1 ≤ k → k < 6 → d.reg (lockRegs.getD k .LOCK_CFG) (c.f 0 2 / 4) (c.f 0 2 % 4) = c.f (4 + 4 * k) 4) ∧
      d.reg .LOCK_CFG (c.f 0 2 / 4) (c.f 0 2 % 4) &&& 0x3F1FFFFF = c.f 4 4 ∧
      (s.dev.phys (c.f 0 2) ≠ 0xFF → (d.pt (s.dev.phys (c.f 0 2))).modeNext =
        (if (s.dev.pt (s.dev.phys (c.f 0 2))).legacy = decide (c.f 4 4 % 4 = 1) then none else some (decide (c.f 4 4 % 4 = 1)))) ∧
      ∃ x : Dev, Dev.answersWith x d c 0 ∧ x = { s.dev with regs := x.regs, ptiles := x.ptiles }) ∧
  (∀ (s : State) (c : Cmd) (rg : Nat), s.holds c 0x0703 → rg < 8 → c.f 0 2 = 0x100 + rg → c.f 4 4 % 4 < 2 →
    (∀ k, k < 6 → strays (c.f (4 + 4 * k) 4) (lockRegs.getD k .LOCK_CFG).row.rw = false) → s.dev.regionUp rg = true →
    Completes .lockCfg s fun d =>
      (∀ k, k < 6 → cfgReg (d.rgn rg).spareLock k = c.f (4 + 4 * k) 4) ∧
      ∃ x : Dev, Dev.answersWith x d c 0 ∧ x = { s.dev with rgs := x.rgs, ptiles := x.ptiles } ∧
        (s.dev.spare rg = 0xFF → x.ptiles = s.dev.ptiles)) ∧
  (∀ (s : State) (c : Cmd) (i : Instr) (lo len : Nat),
    (i = .recal ∧ lo = 2 ∧ len = 6 ∧ c.f 2 1 ≤ 63 ∧ s.holds c 0x09 true) ∨
      (i = .lmode ∧ lo = 0 ∧ len = 2 ∧ c.f 2 1 ≤ 1 ∧ s.holds c 0x0B true) →
    c.f 0 2 < 128 → s.dev.regionUp (c.f 0 2 / 16) = true → Completes i s fun d =>
      d.rf .LOCK_CFG lo len (c.f 0 2 / 4) (c.f 0 2 % 4) = c.f 2 1 ∧
      (∀ b, b < 32 → b < lo ∨ lo + len ≤ b → bit (d.reg .LOCK_CFG (c.f 0 2 / 4) (c.f 0 2 % 4)) b =
        bit (s.dev.reg .LOCK_CFG (c.f 0 2 / 4) (c.f 0 2 % 4)) b) ∧
      ∃ x : Dev, Dev.answersWith x d c 0 ∧ x = { s.dev with regs := x.regs, ptiles := x.ptiles }) ∧
  (∀ (s : State) (c : Cmd), s.holds c 0x0705 → c.f 0 2 ≤ 127 → strays (c.f 4 4) 0xF0F33 = false →
    s.dev.mayEngine c.mbx (c.f 0 2 / 4) = true → s.dev.regionUp (c.f 0 2 / 16) = true → Completes .tileCfg s fun d =>
      d.reg .TILE_CFG (c.f 0 2 / 4) (c.f 0 2 % 4) = c.f 4 4 ∧
      Dev.answersWith { s.dev with regs := d.regs } d c 0) ∧
  (∀ (s : State) (c : Cmd), s.holds c 0x0706 → c.f 0 1 ≤ 7 → c.f 1 1 ≤ 2 → s.dev.regionUp (c.f 0 1) = true →
    s.dev.rdwkMode (c.f 0 1) ≠ 2 → Completes .rdwkCfg s fun d =>
      d.rf .DEV_RDWK_CFG 0 2 (c.f 0 1) = c.f 1 1 ∧ d.rf .DEV_RDWK_CFG 8 16 (c.f 0 1) = c.f 4 2 ∧
      d.rf .DEV_RDWK_CFG 24 8 (c.f 0 1) = c.f 2 1 ∧ d.rf .DEV_RDWK_WIN 0 16 (c.f 0 1) = c.f 6 2 ∧
      Dev.answersWith { s.dev with regs := d.regs } d c 0) ∧
  (∀ (s : State) (c : Cmd), s.holds c 0x0706 → c.f 0 1 ≤ 7 → c.f 1 1 ≤ 2 → s.dev.regionUp (c.f 0 1) = true →
    s.dev.rdwkMode (c.f 0 1) = 2 → s.dev.spare (c.f 0 1) = 0xFF → Completes .rdwkCfg s fun d =>
      d.rdwkMode (c.f 0 1) = c.f 1 1 ∧ fld (d.rdwkWin (c.f 0 1)) 0 16 = c.f 6 2 ∧
      Dev.answersWith { s.dev with regs := d.regs, rgs := d.rgs } d c 0)

/-- ACQUIRE starts a full acquisition of a tile that serves nothing; LSA_THR, COMMISSION, COMB_READMIT and LSA_QUERY. -/
def Obligations.AcquireAndLaserCommands : Prop :=
  (∀ (s : State) (c : Cmd), s.holds c 0x0704 → c.f 0 1 ≤ 135 → s.dev.logicalOf (c.f 0 1) = none →
    s.dev.regionUp (regionOfP (c.f 0 1)) = true →
    s.dev.spare (regionOfP (c.f 0 1)) = 0xFF ∨ s.dev.spare (regionOfP (c.f 0 1)) = c.f 0 1 →
    (s.dev.rgn (regionOfP (c.f 0 1))).cal ≠ some (c.f 0 1) →
    (∀ w, (s.dev.rgn (regionOfP (c.f 0 1))).swap = some w → w.new ≠ c.f 0 1 ∧ w.old ≠ c.f 0 1) →
    Completes .acquire s fun d =>
      (d.pt (c.f 0 1)).lock = .ramp ∧ (d.pt (c.f 0 1)).since = s.dev.time ∧ (d.pt (c.f 0 1)).acq.full = true ∧
      ∃ x : Dev, Dev.beginsJob s.dev x c ∧ d = { x with ptiles := d.ptiles }) ∧
  (∀ (s : State) (c : Cmd), s.holds c 0x0800 → c.f 0 1 ≤ 3 → lsaThrOk (c.f 4 4) = true → c.f 4 4 < 2 ^ 30 →
    Completes .lsaThr s fun d =>
      d.reg .LSA_THR (2 * c.f 0 1) = c.f 4 4 ∧ Dev.answersWith { s.dev with regs := d.regs } d c 0) ∧
  (∀ (s : State) (c : Cmd), s.holds c 0x0801 → c.f 0 1 ≤ 3 → c.f 1 1 ≤ 1 → Completes .commission s fun d =>
      (∀ l, l < 64 → tget (d.stk (c.f 0 1)).commission (64 * c.f 1 1 + l) 0 = sx 16 (c.f (2 + 2 * l) 2)) ∧
      (∀ k, k < 64 * c.f 1 1 ∨ 64 * c.f 1 1 + 64 ≤ k →
        tget (d.stk (c.f 0 1)).commission k 0 = tget (s.dev.stk (c.f 0 1)).commission k 0) ∧
      Dev.answersWith (s.dev.setStk (c.f 0 1)
        { s.dev.stk (c.f 0 1) with commission := (d.stk (c.f 0 1)).commission }) d c 0) ∧
  (∀ (s : State) (c : Cmd), s.holds c 0x0802 → c.f 0 1 ≤ 3 → c.f 1 1 ≤ 1 →
    ((s.dev.stk (c.f 0 1)).comb (c.f 1 1)).st.out = true → s.dev.readmitting (c.f 0 1) (c.f 1 1) = false →
    Completes .combReadmit s fun d => ∃ x : Dev, Dev.beginsJob s.dev x c ∧
      d = x.setStk (c.f 0 1) ((s.dev.stk (c.f 0 1)).setComb (c.f 1 1)
        { (s.dev.stk (c.f 0 1)).comb (c.f 1 1) with st := .off, powered := true, want := true })) ∧
  (∀ (s : State) (c : Cmd), s.holds c 0x0803 → c.f 0 1 ≤ 3 → Completes .lsaQuery s fun d =>
    Dev.answersWith s.dev d c 0 (pack ([(4, s.dev.lsaStatus (c.f 0 1)), (4, s.dev.lsaWorst (c.f 0 1))] ++
      (List.range 64).map (fun l => (2, unsx 16 (tget (s.dev.stk (c.f 0 1)).lines l 0))))))

/-! ### Roadbook commands: converters and heat (R317–R332, R376, R377) -/

/-- AUX_CFG, AUX_CODE and AUX_PWRUP of the channels the host may use, MADC_HOST, MADC_TRIGGER and MADC_RING. THM_READ and v1
TEMP answer every sensor's temperature, the throttle steps and the trips; THM_LIMITS writes a class's thresholds and THM_SET
a region's slew limit or the thermal configuration. -/
def Obligations.ConverterAndThermalCommands : Prop :=
  (∀ (s : State) (c : Cmd), s.holds c 0x0900 → c.f 0 1 ≤ 7 → c.f 1 1 = 6 ∨ c.f 1 1 = 7 → restricted c.mbx = false →
    c.f 2 1 ≤ 4 → c.f 3 1 ≤ 2 → c.f 4 1 ≤ 63 → c.f 5 1 ≤ 1 → 49152 ≤ c.f 8 4 → c.f 8 4 ≤ 49152000 →
    (c.f 5 1 = 1 → auxValid (c.f 2 1) (c.f 3 1) (c.f 12 2) (c.f 14 2) (c.f 16 2) = true) → c.f 20 4 < 2 ^ 23 →
    s.dev.regionUp (c.f 0 1) = true →
    (∀ r ∈ [RegName.DAC_AUX_CFG, .DAC_AUX_PERIOD, .DAC_AUX_LIM, .DAC_AUX_STEP, .DAC_AUX_SEED],
      s.dev.coveredReg r (c.f 0 1) (c.f 1 1) = false) →
    (s.dev.auxRun (c.f 0 1) (c.f 1 1) = true →
      s.dev.rf .DAC_AUX_CFG 0 3 (c.f 0 1) (c.f 1 1) = c.f 2 1 ∧ s.dev.rf .DAC_AUX_CFG 4 2 (c.f 0 1) (c.f 1 1) = c.f 3 1) →
    Completes .auxCfg s fun d =>
      d.rf .DAC_AUX_CFG 0 3 (c.f 0 1) (c.f 1 1) = c.f 2 1 ∧ d.rf .DAC_AUX_CFG 4 2 (c.f 0 1) (c.f 1 1) = c.f 3 1 ∧
      d.rf .DAC_AUX_CFG 8 6 (c.f 0 1) (c.f 1 1) = c.f 4 1 ∧ d.rf .DAC_AUX_CFG 16 1 (c.f 0 1) (c.f 1 1) = c.f 5 1 ∧
      d.reg .DAC_AUX_PERIOD (c.f 0 1) (c.f 1 1) = c.f 8 4 ∧
      d.reg .DAC_AUX_LIM (c.f 0 1) (c.f 1 1) = c.f 12 2 + c.f 14 2 * 2 ^ 16 ∧
      d.reg .DAC_AUX_STEP (c.f 0 1) (c.f 1 1) = c.f 16 2 ∧ d.reg .DAC_AUX_SEED (c.f 0 1) (c.f 1 1) = c.f 20 4 ∧
      (c.f 5 1 = 1 → s.dev.auxRun (c.f 0 1) (c.f 1 1) = false →
        (d.aux (c.f 0 1) (c.f 1 1)).begun = false ∧ (d.aux (c.f 0 1) (c.f 1 1)).mbx = c.mbx) ∧
      (c.f 5 1 = 0 → s.dev.auxRun (c.f 0 1) (c.f 1 1) = true → (d.aux (c.f 0 1) (c.f 1 1)).queue = []) ∧
      Dev.answersWith { s.dev with regs := d.regs, rgs := d.rgs } d c 0) ∧
  (∀ (s : State) (c : Cmd), s.holds c 0x0901 → c.f 0 1 ≤ 7 → c.f 1 1 = 6 ∨ c.f 1 1 = 7 → restricted c.mbx = false →
    1 ≤ c.f 2 2 → c.f 2 2 ≤ 64 → s.dev.regionUp (c.f 0 1) = true →
    s.dev.coveredReg .DAC_AUX_CODE (c.f 0 1) (c.f 1 1) = false → s.dev.coveredReg .DAC_AUX_QDATA (c.f 0 1) (c.f 1 1) = false →
    Completes .auxCode s fun d =>
      (s.dev.auxMode (c.f 0 1) (c.f 1 1) = 0 → d.reg .DAC_AUX_CODE (c.f 0 1) (c.f 1 1) = c.f 4 2 ∧ d.rgs = s.dev.rgs) ∧
      (s.dev.auxMode (c.f 0 1) (c.f 1 1) ≠ 0 →
        (d.aux (c.f 0 1) (c.f 1 1)).queue = (s.dev.aux (c.f 0 1) (c.f 1 1)).queue ++
          ((List.range (c.f 2 2)).map (fun i => c.f (4 + 2 * i) 2)).take (64 - (s.dev.aux (c.f 0 1) (c.f 1 1)).queue.length) ∧
        (64 < (s.dev.aux (c.f 0 1) (c.f 1 1)).queue.length + c.f 2 2 → d.rf .DAC_AUX_STATUS 2 1 (c.f 0 1) (c.f 1 1) = 1)) ∧
      Dev.answersWith { s.dev with regs := d.regs, rgs := d.rgs } d c 0) ∧
  (∀ (s : State) (c : Cmd), s.holds c 0x0902 → c.f 0 1 ≤ 7 → c.f 1 1 = 6 ∨ c.f 1 1 = 7 → c.f 2 1 ≤ 1 → c.f 3 1 ≤ 2 →
    s.dev.regionUp (c.f 0 1) = true → Completes .auxPwrup s fun d =>
      tfind d.cp.auxRec (8 * c.f 0 1 + c.f 1 1) = (if c.f 2 1 = 1 then some (c.f 3 1, c.f 4 2) else none) ∧
      Dev.answersWith { s.dev with cp := { s.dev.cp with auxRec := d.cp.auxRec } } d c 0) ∧
  (∀ (s : State) (c : Cmd), s.holds c 0x0903 → c.f 0 1 ≤ 7 → c.f 1 1 ≤ 8 → c.f 2 1 ≤ 8 →
    (∀ k, k < 8 → madcEntryOk (c.f (8 + 4 * k) 4) = true ∧ madcEntryOk (c.f (40 + 4 * k) 4) = true) →
    restricted c.mbx = false → s.dev.regionUp (c.f 0 1) = true →
    (∀ k, k < 8 → s.dev.coveredReg .MADC_C_REG (c.f 0 1) 1 (24 + k) = false ∧
      s.dev.coveredReg .MADC_C_INJ (c.f 0 1) 1 k = false) → Completes .madcHost s fun d =>
      (∀ k, k < 8 → d.reg .MADC_C_REG (c.f 0 1) 1 (24 + k) = c.f (8 + 4 * k) 4 ∧
        d.reg .MADC_C_INJ (c.f 0 1) 1 k = c.f (40 + 4 * k) 4) ∧
      d.rf .MADC_C_CFG 8 5 (c.f 0 1) 1 = 23 + c.f 1 1 ∧ d.reg .MADC_C_RPER (c.f 0 1) 1 = c.f 4 2 ∧
      d.rf .MADC_C_CFG 19 1 (c.f 0 1) 1 = (if c.f 2 1 = 0 then 0 else 1) ∧
      (c.f 2 1 ≠ 0 → d.rf .MADC_C_CFG 16 3 (c.f 0 1) 1 = c.f 2 1 - 1) ∧
      (c.f 4 2 = 0 → (d.madc (c.f 0 1) 1).waiting = false) ∧
      ((s.dev.madc (c.f 0 1) 1).waiting = false → (d.madc (c.f 0 1) 1).st = (s.dev.madc (c.f 0 1) 1).st ∧
        (d.madc (c.f 0 1) 1).entry = (s.dev.madc (c.f 0 1) 1).entry) ∧
      (∀ rg k, rg < 8 → k < 2 → rg ≠ c.f 0 1 ∨ k = 0 → d.madc rg k = s.dev.madc rg k) ∧
      Dev.answersWith { s.dev with regs := d.regs, rgs := d.rgs } d c 0) ∧
  (∀ (s : State) (c : Cmd), s.holds c 0x0904 → restricted c.mbx = false →
    (∀ rg, rg < 8 → bit (c.f 0 1) rg = true → s.dev.regionUp rg = true) → Completes .madcTriggerCmd s fun d =>
      (∀ rg k, rg < 8 → k < 2 → bit (c.f 0 1) rg = true → bit (s.dev.reg .MADC_C_CFG rg k) 27 = true →
        bit (s.dev.reg .MADC_C_CFG rg k) 19 = true → (s.dev.madc rg k).st = 0 →
        (d.madc rg k).st = 2 ∧ (d.madc rg k).entry = 0 ∧ (d.madc rg k).cause = 8) ∧
      (∀ rg k, bit (c.f 0 1) rg = false ∨ bit (s.dev.reg .MADC_C_CFG rg k) 27 = false →
        k < 2 → rg < 8 → d.madc rg k = s.dev.madc rg k) ∧
      Dev.answersWith { s.dev with regs := d.regs, rgs := d.rgs } d c 0) ∧
  (∀ (s : State) (c : Cmd), s.holds c 0x0905 → c.f 0 1 ≤ 7 → c.f 1 1 ≤ 15 → c.f 2 1 ≤ 1 → c.f 8 8 % 4096 = 0 →
    inDram (c.f 8 8) (2 ^ c.f 1 1 * 4096) = true → s.dev.regionUp (c.f 0 1) = true → Completes .madcRing s fun d =>
      d.rf .MADC_RING_LO 0 1 (c.f 0 1) = c.f 2 1 ∧ d.rf .MADC_RING_LO 8 4 (c.f 0 1) = c.f 1 1 ∧
      d.rf .MADC_RING_LO 12 20 (c.f 0 1) = c.f 8 8 / 4096 % 2 ^ 20 ∧ d.rf .MADC_RING_HI 0 7 (c.f 0 1) = c.f 8 8 / 2 ^ 32 ∧
      (c.f 2 1 = 1 → s.dev.rf .MADC_RING_LO 0 1 (c.f 0 1) = 0 → (d.rgn (c.f 0 1)).widx = 0) ∧
      ((s.dev.rgn (c.f 0 1)).records = [] → d.tgs = s.dev.tgs) ∧
      Dev.answersWith { s.dev with regs := d.regs, rgs := d.rgs, tgs := d.tgs } d c 0) ∧
  (∀ (s : State) (c : Cmd) (i : Instr), (i = .thmRead ∧ s.holds c 0x0A00) ∨ (i = .temp ∧ s.holds c 0x06 true) →
    Completes i s fun d => Dev.answersWith s.dev d c 0 (pack ((List.range 96).map (fun n =>
      (2, unsx 16 (s.dev.sensor n).temp)) ++ [(4, s.dev.stepWord), (4, s.dev.tripWord)]))) ∧
  (∀ (s : State) (c : Cmd), s.holds c 0x0A01 → c.f 0 1 ≤ 3 → thmOk (c.f 4 4) = true → thmOk (c.f 8 4) = true →
    Completes .thmLimits s fun d =>
      d.reg .THM_WARN (c.f 0 1) = c.f 4 4 ∧ d.reg .THM_THROT (c.f 0 1) = c.f 8 4 ∧
      Dev.answersWith { s.dev with regs := d.regs } d c 0) ∧
  (∀ (s : State) (c : Cmd), s.holds c 0x0A02 → c.f 0 1 ≤ 7 → s.dev.regionUp (c.f 0 1) = true →
    strays (c.f 4 4) 0x8000FFFF = false → fld (c.f 4 4) 0 8 ≤ 100 → fld (c.f 4 4) 8 8 ≤ 100 → Completes .thmSet s fun d =>
      Dev.answersWith (s.dev.setReg .THM_SLEW (c.f 4 4) (c.f 0 1)) d c 0) ∧
  (∀ (s : State) (c : Cmd), s.holds c 0x0A02 → c.f 0 1 = 0xFF → strays (c.f 4 4) 0xFFFF = false → Completes .thmSet s fun d =>
      Dev.answersWith (s.dev.setReg .THM_CFG (c.f 4 4)) d c 0)

/-! ### Roadbook commands: ports, modules and Tollgates (R258, R264, R265, R269, R383–R392, R405–R409) -/

/-- FH_QUAD sets the mode of a quad whose ports are disabled, FLOW_WRITE writes flow entries, EXC_RING gives or takes the
exception ring, MOD_READ and MOD_WRITE reach a module's pages, TIMING_PINS writes the pins' configuration. TG_FREEZE, TG_CFG
of one Tollgate or all, TG_CLASS, TG_CLSCFG and TG_TEST. -/
def Obligations.PortAndTollgateCommands : Prop :=
  (∀ (s : State) (c : Cmd), s.holds c 0x0B00 → c.f 0 1 ≤ 3 → c.f 1 1 ≤ 7 → c.f 2 1 ≤ 1 → s.dev.quadDisabled (c.f 0 1) = true →
    Completes .fhQuad s fun d =>
      Dev.answersWith (s.dev.setReg .PRT_FH_QCFG (c.f 1 1 + c.f 2 1 * 2 ^ 6) (c.f 0 1)) d c 0) ∧
  (∀ (s : State) (c : Cmd), s.holds c 0x0B00 → c.f 0 1 ≤ 3 → c.f 1 1 ≤ 7 → c.f 2 1 ≤ 1 → s.dev.quadDisabled (c.f 0 1) = false →
    Completes .fhQuad s fun d => Dev.answersWith s.dev d c 8 (zeros 4)) ∧
  (∀ (s : State) (c : Cmd), s.holds c 0x0B01 → c.f 0 2 ≤ 255 → 1 ≤ c.f 2 2 → c.f 2 2 ≤ 254 → c.f 0 2 + c.f 2 2 ≤ 256 →
    (∀ i, i < c.f 2 2 → flowBad (c.f (8 + 16 * i) 16) = none ∧
      s.dev.mayFlow c.mbx (c.f 0 2 + i) (c.f (8 + 16 * i) 16) = true) → Completes .flowWrite s fun d =>
      (∀ i, i < c.f 2 2 → tget d.ports.flows (c.f 0 2 + i) 0 = c.f (8 + 16 * i) 16) ∧
      (∀ k, k < c.f 0 2 ∨ c.f 0 2 + c.f 2 2 ≤ k → tget d.ports.flows k 0 = tget s.dev.ports.flows k 0) ∧
      Dev.answersWith { s.dev with ports := { s.dev.ports with flows := d.ports.flows, lastSeq := d.ports.lastSeq } } d c 0) ∧
  (∀ (s : State) (c : Cmd), s.holds c 0x0B02 → c.f 0 4 = 0 → Completes .excRing s fun d =>
    Dev.answersWith { s.dev with ports := { s.dev.ports with exc := none, excIdx := 0 } } d c 0) ∧
  (∀ (s : State) (c : Cmd), s.holds c 0x0B02 → c.f 0 4 ≠ 0 → c.f 0 4 % 64 = 0 → c.f 8 8 % 64 = 0 →
    inDram (c.f 8 8) (c.f 0 4) = true → c.f 16 8 % 8 = 0 → inDram (c.f 16 8) 8 = true → Completes .excRing s fun d =>
      d.rdLe (c.f 16 8) 8 = 0 ∧ (∀ a, a < c.f 16 8 ∨ c.f 16 8 + 8 ≤ a → d.rd a = s.dev.rd a) ∧
      ∃ x : Dev, Dev.answersWith x d c 0 ∧ x = { s.dev with
        ports := { s.dev.ports with exc := some (c.f 0 4, c.f 8 8, c.f 16 8), excIdx := 0 }
        wr := x.wr, tgs := x.tgs, str := { s.dev.str with poison := x.str.poison, cache := x.str.cache } }) ∧
  (∀ (s : State) (c : Cmd) (data : Option (List Byte)), s.holds c 0x0B03 → c.f 0 1 ≤ 7 → 1 ≤ c.f 4 1 → c.f 4 1 ≤ 128 →
    c.f 3 1 + c.f 4 1 ≤ 256 → Completes (.modRead data) s fun d =>
      (∀ bs, data = some bs → (s.dev.mod (c.f 0 1)).st ≠ 0 →
        37 < c.f 3 1 ∨ c.f 3 1 + c.f 4 1 ≤ 37 ∨ bs.length ≠ c.f 4 1 ∨ bit (bs.getD (37 - c.f 3 1) 0#8).toNat 7 = true →
        Dev.answersWith (s.dev.emit (.moduleOp (c.f 0 1) (c.f 1 1) (c.f 2 1) (c.f 3 1) false [])) d c 0 (padTo (c.f 4 1) bs)) ∧
      (∀ bs, data = some bs → (s.dev.mod (c.f 0 1)).st ≠ 0 → c.f 3 1 ≤ 37 → 37 < c.f 3 1 + c.f 4 1 → bs.length = c.f 4 1 →
        bit (bs.getD (37 - c.f 3 1) 0#8).toNat 7 = false →
        Dev.answersWith ((s.dev.emit (.moduleOp (c.f 0 1) (c.f 1 1) (c.f 2 1) (c.f 3 1) false [])).setMod (c.f 0 1)
          { s.dev.mod (c.f 0 1) with cdbTo := none }) d c 0 bs) ∧
      ((s.dev.mod (c.f 0 1)).st = 0 →
        Dev.answersWith (s.dev.emit (.moduleOp (c.f 0 1) (c.f 1 1) (c.f 2 1) (c.f 3 1) false [])) d c 9 (zeros 4)) ∧
      (data = none → (s.dev.mod (c.f 0 1)).st ≠ 0 → (d.mod (c.f 0 1)).st = 3 ∧ d.log.written = s.dev.log.written + 1 ∧
        ∃ x : Dev, Dev.answersWith x d c 9 (zeros 4))) ∧
  (∀ (s : State) (c : Cmd) (ok : Bool), s.holds c 0x0B04 → c.f 0 1 ≤ 7 → 1 ≤ c.f 4 1 → c.f 3 1 + c.f 4 1 ≤ 256 →
    (s.dev.modPortOn (c.f 0 1) = true →
      modControl (isSff (s.dev.mod (c.f 0 1)).ident) (c.f 2 1) (c.f 3 1) (c.f 4 1) = false) → (s.dev.mod (c.f 0 1)).st ≠ 0 →
    Completes (.modWrite ok) s fun d => ∃ x : Dev,
      x = s.dev.emit (.moduleOp (c.f 0 1) (c.f 1 1) (c.f 2 1) (c.f 3 1) true (slice c.payload 5 (c.f 4 1))) ∧
      (ok = true → c.f 2 1 ≠ 0x9F → Dev.answersWith x d c 0) ∧
      (ok = true → c.f 2 1 = 0x9F →
        Dev.answersWith (x.setMod (c.f 0 1) { s.dev.mod (c.f 0 1) with cdbTo := some (s.dev.time + 10 * tcPerSec) }) d c 0) ∧
      (ok = false → (d.mod (c.f 0 1)).st = 3 ∧ ∃ y : Dev, Dev.answersWith y d c 9 (zeros 4))) ∧
  (∀ (s : State) (c : Cmd) (ok : Bool), s.holds c 0x0B04 → c.f 0 1 ≤ 7 → 1 ≤ c.f 4 1 → c.f 3 1 + c.f 4 1 ≤ 256 →
    s.dev.modPortOn (c.f 0 1) = true →
    modControl (isSff (s.dev.mod (c.f 0 1)).ident) (c.f 2 1) (c.f 3 1) (c.f 4 1) = true →
    Completes (.modWrite ok) s fun d => Dev.answersWith s.dev d c 6 (zeros 4)) ∧
  (∀ (s : State) (c : Cmd), s.holds c 0x0B05 → c.f 0 1 ≤ 1 → s.dev.coveredReg .PRT_TIMING_CFG = false →
    Completes .timingPins s fun d =>
      d.rf .TL_CFG 13 1 = c.f 0 1 ∧ d.reg .PRT_TIMING_CFG = c.f 2 2 + c.f 4 2 * 2 ^ 16 ∧ d.tlSrc = s.dev.tlSrc ∧
      Dev.answersWith { s.dev with regs := d.regs } d c 0) ∧
  (∀ (s : State) (c : Cmd), s.holds c 0x0C00 → c.f 0 1 ≤ 53 → c.f 1 1 ≤ 1 → Completes .tgFreeze s fun d =>
    d.reg .TG_CTRL (c.f 0 1) = c.f 1 1 ∧
    d.rf .TG_CFG 0 1 (c.f 0 1) = (if s.dev.cp.device = false ∨ bit s.dev.cp.tgTest (c.f 0 1) = true ∨
      (48 ≤ c.f 0 1 ∧ c.f 0 1 < 52 ∧ c.f 1 1 = 1) then 1 else 0) ∧
    (∀ b, 1 ≤ b → bit (d.reg .TG_CFG (c.f 0 1)) b = bit (s.dev.reg .TG_CFG (c.f 0 1)) b) ∧
    (∀ (n : RegName) (i j k : Nat), n ≠ .TG_CTRL → n ≠ .TG_CFG → d.reg n i j k = s.dev.reg n i j k) ∧
    Dev.answersWith { s.dev with regs := d.regs } d c 0) ∧
  (∀ (s : State) (c : Cmd), s.holds c 0x0C01 → c.f 0 1 ≤ 53 ∨ c.f 0 1 = 0xFF → strays (c.f 4 4) 0xFFFFF001 = false →
    c.f 8 4 < 2 ^ 20 → Completes .tgCfg s fun d =>
      (∀ n, n < 54 → n = c.f 0 1 ∨ c.f 0 1 = 0xFF →
        d.reg .TG_CFG n = c.f 4 4 / 2 * 2 + s.dev.rf .TG_CFG 0 1 n ∧ d.reg .TG_LOCKWD n = c.f 8 4) ∧
      (∀ n, n < 54 → n ≠ c.f 0 1 → c.f 0 1 ≠ 0xFF →
        d.reg .TG_CFG n = s.dev.reg .TG_CFG n ∧ d.reg .TG_LOCKWD n = s.dev.reg .TG_LOCKWD n) ∧
      Dev.answersWith { s.dev with regs := d.regs } d c 0) ∧
  (∀ (s : State) (c : Cmd), s.holds c 0x0C02 → c.f 0 2 ≤ 0x146 → c.f 2 1 ≤ 3 → c.f 3 1 ≤ 1 → Completes .tgClass s fun d =>
      d.rf .TG_REQCLS (2 * (c.f 0 2 % 16)) 2 (c.f 0 2 / 16) =
        (if c.f 3 1 = 1 then c.f 2 1 else s.dev.defaultClass (c.f 0 2) % 4) ∧
      (c.f 0 2 ∈ d.pinned ↔ c.f 3 1 = 1) ∧ (∀ w, w ≠ c.f 0 2 → (w ∈ d.pinned ↔ w ∈ s.dev.pinned)) ∧
      Dev.answersWith { s.dev with regs := d.regs, pinned := d.pinned } d c 0) ∧
  (∀ (s : State) (c : Cmd), s.holds c 0x0C03 → Completes .tgClscfg s fun d =>
    Dev.answersWith (s.dev.setReg .TG_CLSCFG (c.f 2 2 + c.f 0 1 * 2 ^ 24)) d c 0) ∧
  (∀ (s : State) (c : Cmd), s.holds c 0x0E03 → c.f 0 1 ≤ 1 → c.f 8 8 < 2 ^ 54 → Completes .tgTest s fun d =>
      (∀ n, n < 54 → bit (c.f 8 8) n = true → d.rf .TG_CFG 0 1 n = (if c.f 0 1 = 1 ∨ s.dev.cp.device = false ∨
          (48 ≤ n ∧ n < 52 ∧ s.dev.tgFrozen n = true) then 1 else 0) ∧
        fld d.cp.tgTest n 1 = c.f 0 1) ∧
      (∀ n, n < 54 → bit (c.f 8 8) n = false → d.reg .TG_CFG n = s.dev.reg .TG_CFG n ∧
        fld d.cp.tgTest n 1 = fld s.dev.cp.tgTest n 1) ∧
      Dev.answersWith { s.dev with regs := d.regs, cp := { s.dev.cp with tgTest := d.cp.tgTest } } d c 0)

/-! ### Roadbook commands: log, events, debug and registers (R7, R305, R306, R323, R428, R430, R435, R465) -/

/-- LOG_READ and v1 LOGRD answer entries by sequence number; EVENT_SUB sets the mailbox's event mask; INJECT starts a signal
and its capture on a tile out of service, CAPTURE_READ answers it, HINJ_BIND binds a region's injection queue to a ring.
REG_READ and v1 RDREG answer registers as the bus reads them, and v1 WRREG writes one where a host write would reach it. -/
def Obligations.LogDebugAndRegisterCommands : Prop :=
  (∀ (s : State) (c : Cmd) (i : Instr), (i = .logRead ∧ s.holds c 0x0D00) ∨ (i = .logrd ∧ s.holds c 0x0A true) →
    c.f 0 4 < 2 ^ 24 → 1 ≤ c.f 4 2 → c.f 4 2 ≤ 127 → Completes i s fun d =>
      Dev.answersWith s.dev d c 0 ((List.range (c.f 4 2)).flatMap (fun k => s.dev.log.bytesOf (c.f 0 4 + k)))) ∧
  (∀ (l : ErrLog) (e : LogEntry), (l.add e).bytesOf l.written = ({ e with seq := l.written % 2 ^ 24 } : LogEntry).bytes) ∧
  (∀ (s : State) (c : Cmd), s.holds c 0x0D01 → c.f 0 4 < 512 → Completes .eventSub s fun d =>
    Dev.answersWith (s.dev.setMb c.mbx { s.dev.mb c.mbx with evMask := BitVec.ofNat 9 (c.f 0 4) }) d c 0) ∧
  (∀ (s : State) (c : Cmd), s.holds c 0x0E00 → c.f 0 1 ≤ 135 → c.f 1 1 ≤ 63 → c.f 2 1 ≤ 63 → c.f 3 1 ≤ 1 → c.f 4 1 ≤ 3 →
    c.f 5 1 ≤ 1 → c.f 6 1 ≤ 3 → c.f 7 1 ≤ 15 →
    (c.f 4 1 = 1 → 1 ≤ c.f 10 2 ∧ c.f 10 2 ≤ 10000 ∧ 1 ≤ c.f 12 2 ∧ c.f 12 2 ≤ 10000) → s.dev.logicalOf (c.f 0 1) = none →
    Completes .inject s fun d =>
      (∃ i : Inj, (d.pt (c.f 0 1)).inj = some i ∧ i.ring = (if c.f 3 1 = 1 then 4096 + c.f 2 1 else 64 * c.f 1 1 + c.f 2 1) ∧
        i.signal = c.f 4 1 ∧ i.amp = sx 16 (c.f 8 2) ∧ i.began = s.dev.time ∧
        (c.f 5 1 = 0 → i.frozen = none) ∧ (c.f 5 1 = 1 → i.frozen = some (tget (s.dev.pt (c.f 0 1)).htr i.ring 0))) ∧
      (d.pt (c.f 0 1)).cap = { active := true } ∧
      Dev.answersWith (s.dev.setPt (c.f 0 1) { s.dev.pt (c.f 0 1) with
        inj := (d.pt (c.f 0 1)).inj, cap := (d.pt (c.f 0 1)).cap }) d c 0) ∧
  (∀ (s : State) (c : Cmd), s.holds c 0x0E01 → c.f 0 1 ≤ 135 → c.f 2 2 ≤ 16383 → 1 ≤ c.f 4 2 → c.f 4 2 ≤ 1016 →
    c.f 2 2 + c.f 4 2 ≤ 16384 → Completes .captureRead s fun d => ∃ (x : Dev) (bs : List Byte),
      Dev.answersWith x d c 0 (leBytes 8 (s.dev.pt (c.f 0 1)).cap.first ++ bs) ∧ bs.length = 4 * c.f 4 2 ∧
      x = { s.dev with freeCtr := x.freeCtr } ∧ (c.f 2 2 + c.f 4 2 ≤ (s.dev.pt (c.f 0 1)).cap.samples.length →
        bs = (((s.dev.pt (c.f 0 1)).cap.samples.drop (c.f 2 2)).take (c.f 4 2)).flatMap (leBytes 4) ∧
          x.freeCtr = s.dev.freeCtr)) ∧
  (∀ (s : State) (c : Cmd), s.holds c 0x0E02 → c.f 0 1 ≤ 7 → c.f 1 1 ≤ 135 → regionOfP (c.f 1 1) = c.f 0 1 → c.f 2 1 ≤ 63 →
    c.f 3 1 ≤ 63 → c.f 4 1 ≤ 1 → s.dev.logicalOf (c.f 1 1) = none → Completes .hinjBind s fun d =>
      Dev.answersWith (s.dev.setRgn (c.f 0 1) { s.dev.rgn (c.f 0 1) with
        hinj := some (c.f 1 1, if c.f 4 1 = 1 then 4096 + c.f 3 1 else 64 * c.f 2 1 + c.f 3 1) }) d c 0) ∧
  (∀ (s : State) (c : Cmd) (i : Instr) (n : RegName) (is : List Nat),
    (i = .regRead ∧ s.holds c 0x0E04) ∨ (i = .rdreg ∧ s.holds c 0x03 true) → c.f 4 2 = 1 → c.f 0 4 % 4 = 0 →
    c.f 0 4 < 0x2000000 → regAt (c.f 0 4) = some (n, is) → n.row.half = 0 → Completes i s fun d =>
      ∃ x : Dev, Dev.answersWith x d c 0 (leBytes 4 (s.dev.value n is)) ∧ x = s.dev.clear n is) ∧
  (∀ (s : State) (c : Cmd) (i : Instr), (i = .regRead ∧ s.holds c 0x0E04) ∨ (i = .rdreg ∧ s.holds c 0x03 true) →
    1 ≤ c.f 4 2 → c.f 4 2 ≤ 1020 → c.f 0 4 % 4 = 0 → c.f 0 4 + 4 * c.f 4 2 ≤ 0x2000000 → Completes i s fun d =>
      ∃ (x : Dev) (bs : List Byte), bs.length = 4 * c.f 4 2 ∧ Dev.answersWith x d c 0 bs) ∧
  (∀ (s : State) (c : Cmd), s.holds c 0x04 true → c.f 0 4 % 4 = 0 → c.f 0 4 < 0x2000000 →
    s.dev.reaches (if 1 ≤ c.mbx ∧ c.mbx ≤ 4 then c.mbx else 0) (c.f 0 4) = true → s.dev.covered (c.f 0 4) 4 = false →
    Completes .wrreg s fun d =>
      (∀ e, e < 32 → c.f 0 4 = RegName.DEV_SKIPTHR.off e →
        d.reg .DEV_SKIPTHR e = (s.dev.reg .DEV_SKIPTHR e &&& 0xFFFF0000) ||| (c.f 4 4 &&& 0xFFFF) ∧
        Dev.answersWith { s.dev with regs := d.regs } d c 0) ∧
      Dev.answersWith (s.dev.writeReg (16 + c.mbx) (c.f 0 4) (c.f 4 4) c.mbx) d c 0) ∧
  (∀ (s : State) (c : Cmd), s.holds c 0x04 true → c.f 0 4 % 4 = 0 → c.f 0 4 < 0x2000000 →
    s.dev.reaches (if 1 ≤ c.mbx ∧ c.mbx ≤ 4 then c.mbx else 0) (c.f 0 4) = false → Completes .wrreg s fun d =>
      Dev.answersWith s.dev d c 6 (zeros 4)) ∧
  (∀ (s : State) (c : Cmd), s.holds c 0x04 true → c.f 0 4 % 4 = 0 → c.f 0 4 < 0x2000000 →
    s.dev.reaches (if 1 ≤ c.mbx ∧ c.mbx ≤ 4 then c.mbx else 0) (c.f 0 4) = true → s.dev.covered (c.f 0 4) 4 = true →
    Completes .wrreg s fun d => Dev.answersWith s.dev d c 8 (zeros 4))

/-! ### Reset, and the machine without power (R6, R25, R188, R238, R240, R264, R374, R437) -/

/-- The state after reset: memory canonical, nothing waiting, every register at the reset value of its table, the maps straight,
engines off, Tollgates in QUOTA mode, nothing ready. -/
def Obligations.ResetValues : Prop :=
  State.reset.pending = [] ∧ Memory.wf State.reset.dev.mem = true ∧ State.reset.dev.wr = [] ∧ State.reset.on ∧
  (∀ (n : RegName) (i j k : Nat), n ≠ .THM_WARN → n ≠ .THM_THROT → n ≠ .TG_REQCLS →
    State.reset.dev.reg n i j k = n.row.reset) ∧
  (∀ k, k < 4 → State.reset.dev.reg .THM_WARN k = [0x05F005A0, 0x050004D0, 0x04600410, 0x05500500].getD k 0 ∧
    State.reset.dev.reg .THM_THROT k = [0x06900640, 0x05300500, 0x050004B0, 0x05F005A0].getD k 0) ∧
  (∀ w, w < 0x147 → State.reset.dev.rf .TG_REQCLS (2 * (w % 16)) 2 (w / 16) =
    (if w < 0x100 then 1 else if w < 0x120 then 3 else if w < 0x141 then 1 else 2)) ∧
  (∀ lt, lt < 128 → State.reset.dev.phys lt = lt) ∧ (∀ rg, rg < 8 → State.reset.dev.spare rg = 128 + rg) ∧
  (∀ e, (State.reset.dev.eng e).st = .off ∧ (State.reset.dev.eng e).run = none ∧ (State.reset.dev.eng e).placed = []) ∧
  (∀ n, n < 54 → State.reset.dev.rf .TG_CFG 0 1 n = 1) ∧ (∀ n, (State.reset.dev.ctx n).st = .idle) ∧
  State.reset.dev.devnum = none ∧ State.reset.dev.cp.rstCause = 0 ∧ State.reset.dev.cp.warms = 0 ∧
  State.reset.dev.cp.ready = false ∧ State.reset.dev.cp.device = false ∧ State.reset.dev.time = 0 ∧
  State.reset.dev.tlSrc = 0 ∧ (∀ m, m < 8 → (State.reset.dev.mb m).state = .idle ∧ (State.reset.dev.mb m).evq = [])

/-- The residency table does not survive a reset: after a cold, PERST, warm, CP-watchdog, life-cycle or thermal-restart reset no
expert is resident, and no engine has a residency slot. -/
def Obligations.NothingResidentAfterReset : Prop :=
  ∀ (i : Instr) (s : State),
    (∃ straps, i = .pwrgdRising straps ∧ straps < 16 ∧ s.dev.th.tripped = none) ∨
      (i = .perstAssert ∧ s.on ∧ s.dev.cp.pwrgd = true) ∨
      (∃ t k, i = .resetBegin ∧ s.on ∧ s.dev.cp.resetAt = some (t, k) ∧ t ≤ s.dev.time ∧ k ≠ .lifeCycle) ∨
      (∃ t straps, i = .lcChangeReset straps ∧ straps < 16 ∧ s.on ∧ s.dev.cp.resetAt = some (t, .lifeCycle) ∧
        t ≤ s.dev.time) ∨
      (∃ w, i = .cpWatchdogExpiry w ∧ w < 2 ^ 32 ∧ s.on) ∨
      (∃ straps t, i = .thermalRestart straps ∧ straps < 16 ∧ s.dev.th.tripped = some t ∧ t + 10 * tcPerSec ≤ s.dev.aon ∧
        s.dev.cp.powered = false ∧
        s.dev.th.latched = false ∧ s.dev.cp.pwrgd = true ∧
        ∀ n, n < 96 → (s.dev.sensor n).fault = true ∨ (s.dev.sensor n).temp < restartBelow (sensorClass n)) →
    Completes i s fun d => (∀ k, tget d.res k 0#256 = 0#256) ∧ (∀ e, (d.eng e).rslots = [])

/-- Without power only the rows of the board's pins, rails and clocks, and of the thermal supervisor, act; every other
well-formed command finds its domain held in reset and changes nothing. -/
def Obligations.HeldWithoutPower : Prop :=
  ∀ (i : Instr) (s : State), s.dev.cp.powered = false → i.wellFormed = true →
    match i with
    | .pwrgdRising _ | .pwrgdFalling | .railLoss _ | .clockAbsent _ _ | .perstAssert | .perstRelease _ | .vddIoLoss
    | .thermalSample _ _ | .tripPowerOff | .thermalRestart _ => True
    | i => Completes i s fun d => d = s.dev

/-- A write of a valid entry whose fields break R238 or the rules of R240 completes with BAD_FIELD, and the shadow entry is
unchanged; an entry with VALID = 0 is accepted whatever its other fields hold, and never fires. -/
def Obligations.MilestoneEntryRules : Prop :=
  (∀ (s : State) (c : Cmd) (i : Nat) (m : MsEntry), s.holds c 0x0300 → c.f 0 2 ≤ 4095 → 1 ≤ c.f 2 2 → c.f 2 2 ≤ 127 →
    c.f 0 2 + c.f 2 2 ≤ 4096 → i < c.f 2 2 → m = BitVec.ofNat 256 (c.f (8 + 32 * i) 32) → MsEntry.valid m = true →
    (10 < MsEntry.perlog m ∨ MsEntry.f m 1 0 8 ≠ 0 ∨ MsEntry.f m 2 10 6 ≠ 0 ∨ MsEntry.f m 6 7 1 ≠ 0 ∨ MsEntry.f m 7 0 8 ≠ 0 ∨
      19660799 < MsEntry.offset m ∨ MsEntry.f m 15 4 4 ≠ 0 ∨ MsEntry.f m 23 2 6 ≠ 0 ∨ MsEntry.f m 24 0 64 ≠ 0 ∨
      128 ≤ MsEntry.actions m ∨ 2 ^ MsEntry.perlog m ≤ MsEntry.sfnres m ∨
      (MsEntry.slot m ≠ 0xFFFF ∧ (s.dev.numer (MsEntry.ct m)).spf ≤ MsEntry.slot m) ∨
      (s.dev.numer (MsEntry.ct m)).syms ≤ MsEntry.symbol m ∨
      (MsEntry.rgmask m = 0 ∧ (bit (MsEntry.actions m) 2 = true ∨ bit (MsEntry.actions m) 4 = true)) ∨
      (MsEntry.rgmask m ≠ 0 ∧ bit (MsEntry.actions m) 2 = false ∧ bit (MsEntry.actions m) 4 = false) ∨
      (MsEntry.stmask m = 0 ↔ bit (MsEntry.actions m) 3 = true) ∨ (MsEntry.mbxmask m = 0 ↔ bit (MsEntry.actions m) 6 = true) ∨
      (bit (MsEntry.actions m) 2 = true ∧ MsEntry.winlen m < 226099200) ∨
      (bit (MsEntry.actions m) 3 = true ∧ MsEntry.winlen m < 3933) ∨
      (bit (MsEntry.actions m) 2 = false ∧ bit (MsEntry.actions m) 3 = false ∧ MsEntry.winlen m ≠ 0) ∨
      (bit (MsEntry.actions m) 6 = false ∧ MsEntry.evcode m ≠ 0) ∨
      (bit (MsEntry.actions m) 5 = false ∧ MsEntry.snapsel m ≠ 0)) →
    Completes .msWrite s fun d => ∃ k, Dev.answersWith s.dev d c 5 (leBytes 4 k)) ∧
  (∀ (s : State) (c : Cmd), s.holds c 0x0300 → c.f 0 2 ≤ 4095 → c.f 2 2 = 1 → MsEntry.valid (c.entry32 0) = false →
    s.dev.inDomain c.mbx (c.f 0 2) = true → s.dev.ms.commit = none → Completes .msWrite s fun d =>
      d.msShadow (c.f 0 2) = c.entry32 0 ∧ Dev.answersWith { s.dev with ms := { s.dev.ms with shadow := d.ms.shadow } } d c 0) ∧
  (∀ (d : Dev) (m : MsEntry) (t : Nat), MsEntry.valid m = false → d.isFiring m t = false)
end

