-- ==== Sys2Proof/Laws/Memory.lean ====
section
/-!
SUPPORT. Device memory: reading after writing, and the canonical form that every operation keeps.
-/
namespace Sys2Proof.Machine

theorem Memory.wfFrom_mono {lo hi : Nat} (m : List Host.Cell) (h : Memory.wfFrom hi m = true) (hl : lo ≤ hi) :
    Memory.wfFrom lo m = true := by
  cases m with
  | nil => rfl
  | cons c m =>
    obtain ⟨k, b⟩ := c
    simp [Memory.wfFrom] at h ⊢
    exact ⟨⟨Nat.le_trans hl h.1.1, h.1.2⟩, h.2⟩

/-- A write keeps the canonical form. -/
theorem Memory.wfFrom_write (m : List Host.Cell) (lo a : Nat) (b : Byte) (hm : Memory.wfFrom lo m = true) (ha : lo ≤ a) :
    Memory.wfFrom lo (Memory.write m a b) = true := by
  induction m generalizing lo with
  | nil =>
    simp only [Memory.write]
    split
    · rfl
    · simp [Memory.wfFrom, *]
  | cons c m ih =>
    obtain ⟨k, x⟩ := c
    simp [Memory.wfFrom] at hm
    simp only [Memory.write]
    split
    · split
      · simp [Memory.wfFrom, hm]
      · rename_i h1 h2
        simp [Memory.wfFrom, hm, ha, h2]
        omega
    · split
      · rename_i h1 h2
        split
        · exact Memory.wfFrom_mono m hm.2 (by omega)
        · rename_i h3
          subst h2
          simp [Memory.wfFrom, hm, h3]
      · have h4 : k + 1 ≤ a := by omega
        simp [Memory.wfFrom, hm, ih (k + 1) hm.2 h4]

theorem Memory.wf_write (m : List Host.Cell) (a : Nat) (b : Byte) (h : Memory.wf m = true) :
    Memory.wf (Memory.write m a b) = true := Memory.wfFrom_write m 0 a b h (Nat.zero_le a)

theorem Memory.wf_writeBytes (m : List Host.Cell) (a : Nat) (bs : List Byte) (h : Memory.wf m = true) :
    Memory.wf (Memory.writeBytes m a bs) = true := by
  induction bs generalizing m a with
  | nil => exact h
  | cons b bs ih => exact ih _ _ (Memory.wf_write m a b h)

theorem Memory.wfFrom_zero (m : List Host.Cell) (lo a n : Nat) (h : Memory.wfFrom lo m = true) :
    Memory.wfFrom lo (Memory.zero m a n) = true := by
  induction m generalizing lo with
  | nil => rfl
  | cons c m ih =>
    obtain ⟨k, b⟩ := c
    simp [Memory.wfFrom] at h
    simp only [Memory.zero, List.filter_cons] at *
    split
    · simp [Memory.wfFrom, h, ih (k + 1) h.2]
    · exact ih lo (Memory.wfFrom_mono m h.2 (by omega))

theorem Memory.wf_zero (m : List Host.Cell) (a n : Nat) (h : Memory.wf m = true) : Memory.wf (Memory.zero m a n) = true :=
  Memory.wfFrom_zero m 0 a n h

theorem MemOp.wf_apply (o : MemOp) (m : List Host.Cell) (h : Memory.wf m = true) : Memory.wf (o.apply m) = true := by
  cases o with
  | bytes a bs => exact Memory.wf_writeBytes m a bs h
  | zero a n => exact Memory.wf_zero m a n h

/-- The changes of a command keep the canonical form. -/
theorem commitOps_wf (ops : List MemOp) (m : List Host.Cell) (h : Memory.wf m = true) : Memory.wf (commitOps ops m) = true := by
  induction ops with
  | nil => exact h
  | cons o ops ih => exact MemOp.wf_apply o _ ih

/-- An address below every listed one reads 0. -/
theorem Memory.read_below (m : List Host.Cell) (lo a : Nat) (h : Memory.wfFrom lo m = true) (ha : a < lo) :
    Memory.read m a = 0#8 := by
  cases m with
  | nil => rfl
  | cons c m =>
    obtain ⟨k, b⟩ := c
    simp [Memory.wfFrom] at h
    have h1 : k ≠ a := by omega
    have h2 : a < k := by omega
    simp [Memory.read, h1, h2]

/-- A read after a write: the written byte at its address, every other byte as before. -/
theorem Memory.read_writeFrom (m : List Host.Cell) (lo a c : Nat) (b : Byte) (h : Memory.wfFrom lo m = true) :
    Memory.read (Memory.write m a b) c = if c = a then b else Memory.read m c := by
  induction m generalizing lo with
  | nil =>
    by_cases hb : b = 0#8 <;> by_cases hc : c = a
    · simp [Memory.write, Memory.read, hb, hc]
    · simp [Memory.write, Memory.read, hb, hc]
    · simp [Memory.write, Memory.read, hb, hc]
    · have hc' : ¬ a = c := fun h => hc h.symm
      simp [Memory.write, Memory.read, hb, hc, hc']
  | cons x m ih =>
    obtain ⟨k, y⟩ := x
    simp [Memory.wfFrom] at h
    have ih := ih (k + 1) h.2
    simp only [Memory.write]
    split
    · rename_i hak
      split
      · rename_i hb
        by_cases hc : c = a
        · subst hc; simp [Memory.read, hb, hak]; omega
        · simp [hc]
      · by_cases hc : c = a
        · subst hc; simp [Memory.read]
        · have hc' : ¬ a = c := fun h => hc h.symm
          by_cases hca : c < a
          · have : k ≠ c := by omega
            have : c < k := by omega
            simp [Memory.read, *]
          · simp [Memory.read, hc, hc', hca]
    · split
      · rename_i hk
        subst hk
        split
        · rename_i hb
          by_cases hc : c = k
          · subst hc; rw [Memory.read_below m (c + 1) c h.2 (by omega)]; simp [hb]
          · by_cases hck : c < k
            · rw [Memory.read_below m (k + 1) c h.2 (by omega)]
              have hc' : ¬ k = c := fun h => hc h.symm
              simp [Memory.read, hc, hc', hck]
            · have hc' : ¬ k = c := fun h => hc h.symm
              simp [Memory.read, hc, hc', hck]
        · by_cases hc : c = k
          · subst hc; simp [Memory.read]
          · have hc' : ¬ k = c := fun h => hc h.symm
            simp [Memory.read, hc, hc']
      · rename_i h1 h2
        simp only [Memory.read]
        split
        · rename_i hkc
          have : c ≠ a := by omega
          simp [this]
        · split
          · rename_i hkc
            have : c ≠ a := by omega
            simp [this]
          · exact ih

theorem Memory.read_write (m : List Host.Cell) (a c : Nat) (b : Byte) (h : Memory.wf m = true) :
    Memory.read (Memory.write m a b) c = if c = a then b else Memory.read m c :=
  Memory.read_writeFrom m 0 a c b h

/-- A run of bytes written leaves every byte outside it. -/
theorem Memory.read_writeBytes_outside (m : List Host.Cell) (a c : Nat) (bs : List Byte) (h : Memory.wf m = true)
    (hc : c < a ∨ a + bs.length ≤ c) : Memory.read (Memory.writeBytes m a bs) c = Memory.read m c := by
  induction bs generalizing m a with
  | nil => rfl
  | cons b bs ih =>
    simp only [Memory.writeBytes, List.length_cons] at *
    rw [ih _ _ (Memory.wf_write m a b h) (by omega), Memory.read_write m a c b h]
    have : c ≠ a := by omega
    simp [this]

/-- Zeroing a run leaves every byte outside it. -/
theorem Memory.read_zero_outside (m : List Host.Cell) (lo a n c : Nat) (h : Memory.wfFrom lo m = true)
    (hc : c < a ∨ a + n ≤ c) : Memory.read (Memory.zero m a n) c = Memory.read m c := by
  induction m generalizing lo with
  | nil => rfl
  | cons x m ih =>
    obtain ⟨k, b⟩ := x
    simp [Memory.wfFrom] at h
    have ih := ih (k + 1) h.2
    simp only [Memory.zero, List.filter_cons] at *
    split
    · simp only [Memory.read, ih]
    · rename_i hk
      have hk : k ≠ c := by simp at hk; omega
      rw [ih]
      simp only [Memory.read, if_neg hk]
      split
      · exact Memory.read_below m (k + 1) c h.2 (by omega)
      · rfl

/-- A change leaves every byte it does not cover. -/
theorem MemOp.read_apply_outside (o : MemOp) (m : List Host.Cell) (c : Nat) (h : Memory.wf m = true)
    (hc : o.byteAt c = none) : Memory.read (o.apply m) c = Memory.read m c := by
  cases o with
  | bytes a bs =>
    simp [MemOp.byteAt] at hc
    exact Memory.read_writeBytes_outside m a c bs h (by omega)
  | zero a n =>
    simp [MemOp.byteAt] at hc
    exact Memory.read_zero_outside m 0 a n c h (by omega)

/-- The changes of a command leave every byte that none of them covers. -/
theorem commitOps_outside (ops : List MemOp) (m : List Host.Cell) (c : Nat) (h : Memory.wf m = true)
    (hc : ∀ o ∈ ops, o.byteAt c = none) : Memory.read (commitOps ops m) c = Memory.read m c := by
  induction ops with
  | nil => rfl
  | cons o ops ih =>
    show Memory.read (o.apply (commitOps ops m)) c = _
    rw [MemOp.read_apply_outside o _ c (commitOps_wf ops m h) (hc o (by simp)), ih (fun o ho => hc o (by simp [ho]))]

/-- Bytes written read back as written. -/
theorem Memory.read_writeBytes_inside (m : List Host.Cell) (a k : Nat) (bs : List Byte) (h : Memory.wf m = true)
    (hk : k < bs.length) : Memory.read (Memory.writeBytes m a bs) (a + k) = bs.getD k 0#8 := by
  induction bs generalizing m a k with
  | nil => simp at hk
  | cons b bs ih =>
    simp only [Memory.writeBytes]
    cases k with
    | zero =>
      rw [Memory.read_writeBytes_outside _ _ _ _ (Memory.wf_write m a b h) (by omega), Memory.read_write m a _ b h]; simp
    | succ k =>
      have := ih (Memory.write m a b) (a + 1) k (Memory.wf_write m a b h) (by simpa using hk)
      rw [show a + (k + 1) = a + 1 + k by omega, this]; simp

theorem Memory.read_zero_inside (m : List Host.Cell) (a n c : Nat) (hc : a ≤ c ∧ c < a + n) :
    Memory.read (Memory.zero m a n) c = 0#8 := by
  induction m with
  | nil => rfl
  | cons x m ih =>
    obtain ⟨k, b⟩ := x
    simp only [Memory.zero, List.filter_cons] at *
    split
    · rename_i hk
      have hk : k ≠ c := by simp at hk; omega
      simp only [Memory.read, if_neg hk, ih]; split <;> rfl
    · exact ih

/-- A change leaves in memory the byte it is to leave. -/
theorem MemOp.read_apply_inside (o : MemOp) (m : List Host.Cell) (c : Nat) (b : Byte) (h : Memory.wf m = true)
    (hc : o.byteAt c = some b) : Memory.read (o.apply m) c = b := by
  cases o with
  | bytes a bs =>
    simp [MemOp.byteAt] at hc
    obtain ⟨⟨h1, h2⟩, rfl⟩ := hc
    have := Memory.read_writeBytes_inside m a (c - a) bs h (by omega)
    rw [show a + (c - a) = c by omega] at this
    simpa [MemOp.apply] using this
  | zero a n =>
    simp [MemOp.byteAt] at hc
    obtain ⟨⟨h1, h2⟩, rfl⟩ := hc
    exact Memory.read_zero_inside m a n c (by omega)

/-- What a command in progress reads is what memory holds once its changes are made. -/
theorem Dev.read_commit (d : Dev) (a : Nat) (h : Memory.wf d.mem = true) :
    Memory.read (commitOps d.wr d.mem) a = d.rd a := by
  unfold Dev.rd
  generalize d.wr = ops
  induction ops with
  | nil => rfl
  | cons o ops ih =>
    show Memory.read (o.apply (commitOps ops d.mem)) a = _
    rw [List.findSome?_cons]
    cases hb : o.byteAt a with
    | none => rw [MemOp.read_apply_outside o _ a (commitOps_wf ops _ h) hb, ih]
    | some b => rw [MemOp.read_apply_inside o _ a b (commitOps_wf ops _ h) hb]

end Sys2Proof.Machine
end

