-- ==== Sys2Proof/Laws/State.lean ====
section
/-!
SUPPORT. What each update of the device leaves and sets: one lemma per field, so that no later proof unfolds a record
update.
-/
namespace Sys2Proof.Machine

/-! ### setEng -/

section
variable (d : Dev) (e : Nat) (x : Engine)

@[simp] theorem Dev.setEng_time : (d.setEng e x).time = d.time := rfl
@[simp] theorem Dev.setEng_aon : (d.setEng e x).aon = d.aon := rfl
@[simp] theorem Dev.setEng_regs : (d.setEng e x).regs = d.regs := rfl
@[simp] theorem Dev.setEng_holdR : (d.setEng e x).holdR = d.holdR := rfl
@[simp] theorem Dev.setEng_holdW : (d.setEng e x).holdW = d.holdW := rfl
@[simp] theorem Dev.setEng_mem : (d.setEng e x).mem = d.mem := rfl
@[simp] theorem Dev.setEng_wr : (d.setEng e x).wr = d.wr := rfl
@[simp] theorem Dev.setEng_log : (d.setEng e x).log = d.log := rfl
@[simp] theorem Dev.setEng_mbx : (d.setEng e x).mbx = d.mbx := rfl
@[simp] theorem Dev.setEng_out : (d.setEng e x).out = d.out := rfl
@[simp] theorem Dev.setEng_freeCtr : (d.setEng e x).freeCtr = d.freeCtr := rfl
@[simp] theorem Dev.setEng_tl : (d.setEng e x).tl = d.tl := rfl
@[simp] theorem Dev.setEng_ms : (d.setEng e x).ms = d.ms := rfl
@[simp] theorem Dev.setEng_tmap : (d.setEng e x).tmap = d.tmap := rfl
@[simp] theorem Dev.setEng_spares : (d.setEng e x).spares = d.spares := rfl
@[simp] theorem Dev.setEng_tmapGen : (d.setEng e x).tmapGen = d.tmapGen := rfl
@[simp] theorem Dev.setEng_devnum : (d.setEng e x).devnum = d.devnum := rfl
@[simp] theorem Dev.setEng_ptiles : (d.setEng e x).ptiles = d.ptiles := rfl
@[simp] theorem Dev.setEng_res : (d.setEng e x).res = d.res := rfl
@[simp] theorem Dev.setEng_nextPlace : (d.setEng e x).nextPlace = d.nextPlace := rfl
@[simp] theorem Dev.setEng_str : (d.setEng e x).str = d.str := rfl
@[simp] theorem Dev.setEng_peers : (d.setEng e x).peers = d.peers := rfl
@[simp] theorem Dev.setEng_tgs : (d.setEng e x).tgs = d.tgs := rfl
@[simp] theorem Dev.setEng_pinned : (d.setEng e x).pinned = d.pinned := rfl
@[simp] theorem Dev.setEng_scrubLift : (d.setEng e x).scrubLift = d.scrubLift := rfl
@[simp] theorem Dev.setEng_stks : (d.setEng e x).stks = d.stks := rfl
@[simp] theorem Dev.setEng_rgs : (d.setEng e x).rgs = d.rgs := rfl
@[simp] theorem Dev.setEng_th : (d.setEng e x).th = d.th := rfl
@[simp] theorem Dev.setEng_ports : (d.setEng e x).ports = d.ports := rfl
@[simp] theorem Dev.setEng_cp : (d.setEng e x).cp = d.cp := rfl
@[simp] theorem Dev.setEng_engs : (d.setEng e x).engs = tset d.engs e x := rfl

end

/-! ### modEng -/

section
variable (d : Dev) (e : Nat) (f : Engine → Engine)

@[simp] theorem Dev.modEng_time : (d.modEng e f).time = d.time := rfl
@[simp] theorem Dev.modEng_aon : (d.modEng e f).aon = d.aon := rfl
@[simp] theorem Dev.modEng_regs : (d.modEng e f).regs = d.regs := rfl
@[simp] theorem Dev.modEng_holdR : (d.modEng e f).holdR = d.holdR := rfl
@[simp] theorem Dev.modEng_holdW : (d.modEng e f).holdW = d.holdW := rfl
@[simp] theorem Dev.modEng_mem : (d.modEng e f).mem = d.mem := rfl
@[simp] theorem Dev.modEng_wr : (d.modEng e f).wr = d.wr := rfl
@[simp] theorem Dev.modEng_log : (d.modEng e f).log = d.log := rfl
@[simp] theorem Dev.modEng_mbx : (d.modEng e f).mbx = d.mbx := rfl
@[simp] theorem Dev.modEng_out : (d.modEng e f).out = d.out := rfl
@[simp] theorem Dev.modEng_freeCtr : (d.modEng e f).freeCtr = d.freeCtr := rfl
@[simp] theorem Dev.modEng_tl : (d.modEng e f).tl = d.tl := rfl
@[simp] theorem Dev.modEng_ms : (d.modEng e f).ms = d.ms := rfl
@[simp] theorem Dev.modEng_tmap : (d.modEng e f).tmap = d.tmap := rfl
@[simp] theorem Dev.modEng_spares : (d.modEng e f).spares = d.spares := rfl
@[simp] theorem Dev.modEng_tmapGen : (d.modEng e f).tmapGen = d.tmapGen := rfl
@[simp] theorem Dev.modEng_devnum : (d.modEng e f).devnum = d.devnum := rfl
@[simp] theorem Dev.modEng_ptiles : (d.modEng e f).ptiles = d.ptiles := rfl
@[simp] theorem Dev.modEng_res : (d.modEng e f).res = d.res := rfl
@[simp] theorem Dev.modEng_nextPlace : (d.modEng e f).nextPlace = d.nextPlace := rfl
@[simp] theorem Dev.modEng_str : (d.modEng e f).str = d.str := rfl
@[simp] theorem Dev.modEng_peers : (d.modEng e f).peers = d.peers := rfl
@[simp] theorem Dev.modEng_tgs : (d.modEng e f).tgs = d.tgs := rfl
@[simp] theorem Dev.modEng_pinned : (d.modEng e f).pinned = d.pinned := rfl
@[simp] theorem Dev.modEng_scrubLift : (d.modEng e f).scrubLift = d.scrubLift := rfl
@[simp] theorem Dev.modEng_stks : (d.modEng e f).stks = d.stks := rfl
@[simp] theorem Dev.modEng_rgs : (d.modEng e f).rgs = d.rgs := rfl
@[simp] theorem Dev.modEng_th : (d.modEng e f).th = d.th := rfl
@[simp] theorem Dev.modEng_ports : (d.modEng e f).ports = d.ports := rfl
@[simp] theorem Dev.modEng_cp : (d.modEng e f).cp = d.cp := rfl
@[simp] theorem Dev.modEng_engs : (d.modEng e f).engs = tset d.engs e (f (d.eng e)) := rfl

end

/-! ### setSlot -/

section
variable (d : Dev) (e t : Nat) (x : Slot)

@[simp] theorem Dev.setSlot_time : (d.setSlot e t x).time = d.time := rfl
@[simp] theorem Dev.setSlot_aon : (d.setSlot e t x).aon = d.aon := rfl
@[simp] theorem Dev.setSlot_regs : (d.setSlot e t x).regs = d.regs := rfl
@[simp] theorem Dev.setSlot_holdR : (d.setSlot e t x).holdR = d.holdR := rfl
@[simp] theorem Dev.setSlot_holdW : (d.setSlot e t x).holdW = d.holdW := rfl
@[simp] theorem Dev.setSlot_mem : (d.setSlot e t x).mem = d.mem := rfl
@[simp] theorem Dev.setSlot_wr : (d.setSlot e t x).wr = d.wr := rfl
@[simp] theorem Dev.setSlot_log : (d.setSlot e t x).log = d.log := rfl
@[simp] theorem Dev.setSlot_mbx : (d.setSlot e t x).mbx = d.mbx := rfl
@[simp] theorem Dev.setSlot_out : (d.setSlot e t x).out = d.out := rfl
@[simp] theorem Dev.setSlot_freeCtr : (d.setSlot e t x).freeCtr = d.freeCtr := rfl
@[simp] theorem Dev.setSlot_tl : (d.setSlot e t x).tl = d.tl := rfl
@[simp] theorem Dev.setSlot_ms : (d.setSlot e t x).ms = d.ms := rfl
@[simp] theorem Dev.setSlot_tmap : (d.setSlot e t x).tmap = d.tmap := rfl
@[simp] theorem Dev.setSlot_spares : (d.setSlot e t x).spares = d.spares := rfl
@[simp] theorem Dev.setSlot_tmapGen : (d.setSlot e t x).tmapGen = d.tmapGen := rfl
@[simp] theorem Dev.setSlot_devnum : (d.setSlot e t x).devnum = d.devnum := rfl
@[simp] theorem Dev.setSlot_ptiles : (d.setSlot e t x).ptiles = d.ptiles := rfl
@[simp] theorem Dev.setSlot_res : (d.setSlot e t x).res = d.res := rfl
@[simp] theorem Dev.setSlot_nextPlace : (d.setSlot e t x).nextPlace = d.nextPlace := rfl
@[simp] theorem Dev.setSlot_str : (d.setSlot e t x).str = d.str := rfl
@[simp] theorem Dev.setSlot_peers : (d.setSlot e t x).peers = d.peers := rfl
@[simp] theorem Dev.setSlot_tgs : (d.setSlot e t x).tgs = d.tgs := rfl
@[simp] theorem Dev.setSlot_pinned : (d.setSlot e t x).pinned = d.pinned := rfl
@[simp] theorem Dev.setSlot_scrubLift : (d.setSlot e t x).scrubLift = d.scrubLift := rfl
@[simp] theorem Dev.setSlot_stks : (d.setSlot e t x).stks = d.stks := rfl
@[simp] theorem Dev.setSlot_rgs : (d.setSlot e t x).rgs = d.rgs := rfl
@[simp] theorem Dev.setSlot_th : (d.setSlot e t x).th = d.th := rfl
@[simp] theorem Dev.setSlot_ports : (d.setSlot e t x).ports = d.ports := rfl
@[simp] theorem Dev.setSlot_cp : (d.setSlot e t x).cp = d.cp := rfl

end

/-! ### modSlot -/

section
variable (d : Dev) (e t : Nat) (f : Slot → Slot)

@[simp] theorem Dev.modSlot_time : (d.modSlot e t f).time = d.time := rfl
@[simp] theorem Dev.modSlot_aon : (d.modSlot e t f).aon = d.aon := rfl
@[simp] theorem Dev.modSlot_regs : (d.modSlot e t f).regs = d.regs := rfl
@[simp] theorem Dev.modSlot_holdR : (d.modSlot e t f).holdR = d.holdR := rfl
@[simp] theorem Dev.modSlot_holdW : (d.modSlot e t f).holdW = d.holdW := rfl
@[simp] theorem Dev.modSlot_mem : (d.modSlot e t f).mem = d.mem := rfl
@[simp] theorem Dev.modSlot_wr : (d.modSlot e t f).wr = d.wr := rfl
@[simp] theorem Dev.modSlot_log : (d.modSlot e t f).log = d.log := rfl
@[simp] theorem Dev.modSlot_mbx : (d.modSlot e t f).mbx = d.mbx := rfl
@[simp] theorem Dev.modSlot_out : (d.modSlot e t f).out = d.out := rfl
@[simp] theorem Dev.modSlot_freeCtr : (d.modSlot e t f).freeCtr = d.freeCtr := rfl
@[simp] theorem Dev.modSlot_tl : (d.modSlot e t f).tl = d.tl := rfl
@[simp] theorem Dev.modSlot_ms : (d.modSlot e t f).ms = d.ms := rfl
@[simp] theorem Dev.modSlot_tmap : (d.modSlot e t f).tmap = d.tmap := rfl
@[simp] theorem Dev.modSlot_spares : (d.modSlot e t f).spares = d.spares := rfl
@[simp] theorem Dev.modSlot_tmapGen : (d.modSlot e t f).tmapGen = d.tmapGen := rfl
@[simp] theorem Dev.modSlot_devnum : (d.modSlot e t f).devnum = d.devnum := rfl
@[simp] theorem Dev.modSlot_ptiles : (d.modSlot e t f).ptiles = d.ptiles := rfl
@[simp] theorem Dev.modSlot_res : (d.modSlot e t f).res = d.res := rfl
@[simp] theorem Dev.modSlot_nextPlace : (d.modSlot e t f).nextPlace = d.nextPlace := rfl
@[simp] theorem Dev.modSlot_str : (d.modSlot e t f).str = d.str := rfl
@[simp] theorem Dev.modSlot_peers : (d.modSlot e t f).peers = d.peers := rfl
@[simp] theorem Dev.modSlot_tgs : (d.modSlot e t f).tgs = d.tgs := rfl
@[simp] theorem Dev.modSlot_pinned : (d.modSlot e t f).pinned = d.pinned := rfl
@[simp] theorem Dev.modSlot_scrubLift : (d.modSlot e t f).scrubLift = d.scrubLift := rfl
@[simp] theorem Dev.modSlot_stks : (d.modSlot e t f).stks = d.stks := rfl
@[simp] theorem Dev.modSlot_rgs : (d.modSlot e t f).rgs = d.rgs := rfl
@[simp] theorem Dev.modSlot_th : (d.modSlot e t f).th = d.th := rfl
@[simp] theorem Dev.modSlot_ports : (d.modSlot e t f).ports = d.ports := rfl
@[simp] theorem Dev.modSlot_cp : (d.modSlot e t f).cp = d.cp := rfl

end

/-! ### setPt -/

section
variable (d : Dev) (p : Nat) (x : PTile)

@[simp] theorem Dev.setPt_time : (d.setPt p x).time = d.time := rfl
@[simp] theorem Dev.setPt_aon : (d.setPt p x).aon = d.aon := rfl
@[simp] theorem Dev.setPt_regs : (d.setPt p x).regs = d.regs := rfl
@[simp] theorem Dev.setPt_holdR : (d.setPt p x).holdR = d.holdR := rfl
@[simp] theorem Dev.setPt_holdW : (d.setPt p x).holdW = d.holdW := rfl
@[simp] theorem Dev.setPt_mem : (d.setPt p x).mem = d.mem := rfl
@[simp] theorem Dev.setPt_wr : (d.setPt p x).wr = d.wr := rfl
@[simp] theorem Dev.setPt_log : (d.setPt p x).log = d.log := rfl
@[simp] theorem Dev.setPt_mbx : (d.setPt p x).mbx = d.mbx := rfl
@[simp] theorem Dev.setPt_out : (d.setPt p x).out = d.out := rfl
@[simp] theorem Dev.setPt_freeCtr : (d.setPt p x).freeCtr = d.freeCtr := rfl
@[simp] theorem Dev.setPt_tl : (d.setPt p x).tl = d.tl := rfl
@[simp] theorem Dev.setPt_ms : (d.setPt p x).ms = d.ms := rfl
@[simp] theorem Dev.setPt_tmap : (d.setPt p x).tmap = d.tmap := rfl
@[simp] theorem Dev.setPt_spares : (d.setPt p x).spares = d.spares := rfl
@[simp] theorem Dev.setPt_tmapGen : (d.setPt p x).tmapGen = d.tmapGen := rfl
@[simp] theorem Dev.setPt_devnum : (d.setPt p x).devnum = d.devnum := rfl
@[simp] theorem Dev.setPt_engs : (d.setPt p x).engs = d.engs := rfl
@[simp] theorem Dev.setPt_res : (d.setPt p x).res = d.res := rfl
@[simp] theorem Dev.setPt_nextPlace : (d.setPt p x).nextPlace = d.nextPlace := rfl
@[simp] theorem Dev.setPt_str : (d.setPt p x).str = d.str := rfl
@[simp] theorem Dev.setPt_peers : (d.setPt p x).peers = d.peers := rfl
@[simp] theorem Dev.setPt_tgs : (d.setPt p x).tgs = d.tgs := rfl
@[simp] theorem Dev.setPt_pinned : (d.setPt p x).pinned = d.pinned := rfl
@[simp] theorem Dev.setPt_scrubLift : (d.setPt p x).scrubLift = d.scrubLift := rfl
@[simp] theorem Dev.setPt_stks : (d.setPt p x).stks = d.stks := rfl
@[simp] theorem Dev.setPt_rgs : (d.setPt p x).rgs = d.rgs := rfl
@[simp] theorem Dev.setPt_th : (d.setPt p x).th = d.th := rfl
@[simp] theorem Dev.setPt_ports : (d.setPt p x).ports = d.ports := rfl
@[simp] theorem Dev.setPt_cp : (d.setPt p x).cp = d.cp := rfl
@[simp] theorem Dev.setPt_ptiles : (d.setPt p x).ptiles = tset d.ptiles p x := rfl

end

/-! ### modPt -/

section
variable (d : Dev) (p : Nat) (f : PTile → PTile)

@[simp] theorem Dev.modPt_time : (d.modPt p f).time = d.time := rfl
@[simp] theorem Dev.modPt_aon : (d.modPt p f).aon = d.aon := rfl
@[simp] theorem Dev.modPt_regs : (d.modPt p f).regs = d.regs := rfl
@[simp] theorem Dev.modPt_holdR : (d.modPt p f).holdR = d.holdR := rfl
@[simp] theorem Dev.modPt_holdW : (d.modPt p f).holdW = d.holdW := rfl
@[simp] theorem Dev.modPt_mem : (d.modPt p f).mem = d.mem := rfl
@[simp] theorem Dev.modPt_wr : (d.modPt p f).wr = d.wr := rfl
@[simp] theorem Dev.modPt_log : (d.modPt p f).log = d.log := rfl
@[simp] theorem Dev.modPt_mbx : (d.modPt p f).mbx = d.mbx := rfl
@[simp] theorem Dev.modPt_out : (d.modPt p f).out = d.out := rfl
@[simp] theorem Dev.modPt_freeCtr : (d.modPt p f).freeCtr = d.freeCtr := rfl
@[simp] theorem Dev.modPt_tl : (d.modPt p f).tl = d.tl := rfl
@[simp] theorem Dev.modPt_ms : (d.modPt p f).ms = d.ms := rfl
@[simp] theorem Dev.modPt_tmap : (d.modPt p f).tmap = d.tmap := rfl
@[simp] theorem Dev.modPt_spares : (d.modPt p f).spares = d.spares := rfl
@[simp] theorem Dev.modPt_tmapGen : (d.modPt p f).tmapGen = d.tmapGen := rfl
@[simp] theorem Dev.modPt_devnum : (d.modPt p f).devnum = d.devnum := rfl
@[simp] theorem Dev.modPt_engs : (d.modPt p f).engs = d.engs := rfl
@[simp] theorem Dev.modPt_res : (d.modPt p f).res = d.res := rfl
@[simp] theorem Dev.modPt_nextPlace : (d.modPt p f).nextPlace = d.nextPlace := rfl
@[simp] theorem Dev.modPt_str : (d.modPt p f).str = d.str := rfl
@[simp] theorem Dev.modPt_peers : (d.modPt p f).peers = d.peers := rfl
@[simp] theorem Dev.modPt_tgs : (d.modPt p f).tgs = d.tgs := rfl
@[simp] theorem Dev.modPt_pinned : (d.modPt p f).pinned = d.pinned := rfl
@[simp] theorem Dev.modPt_scrubLift : (d.modPt p f).scrubLift = d.scrubLift := rfl
@[simp] theorem Dev.modPt_stks : (d.modPt p f).stks = d.stks := rfl
@[simp] theorem Dev.modPt_rgs : (d.modPt p f).rgs = d.rgs := rfl
@[simp] theorem Dev.modPt_th : (d.modPt p f).th = d.th := rfl
@[simp] theorem Dev.modPt_ports : (d.modPt p f).ports = d.ports := rfl
@[simp] theorem Dev.modPt_cp : (d.modPt p f).cp = d.cp := rfl
@[simp] theorem Dev.modPt_ptiles : (d.modPt p f).ptiles = tset d.ptiles p (f (d.pt p)) := rfl

end

/-! ### mapUpdate -/

section
variable (d : Dev) (ts sp : List (Nat × Nat))

@[simp] theorem Dev.mapUpdate_time : (d.mapUpdate ts sp).time = d.time := rfl
@[simp] theorem Dev.mapUpdate_aon : (d.mapUpdate ts sp).aon = d.aon := rfl
@[simp] theorem Dev.mapUpdate_regs : (d.mapUpdate ts sp).regs = d.regs := rfl
@[simp] theorem Dev.mapUpdate_holdR : (d.mapUpdate ts sp).holdR = d.holdR := rfl
@[simp] theorem Dev.mapUpdate_holdW : (d.mapUpdate ts sp).holdW = d.holdW := rfl
@[simp] theorem Dev.mapUpdate_mem : (d.mapUpdate ts sp).mem = d.mem := rfl
@[simp] theorem Dev.mapUpdate_wr : (d.mapUpdate ts sp).wr = d.wr := rfl
@[simp] theorem Dev.mapUpdate_log : (d.mapUpdate ts sp).log = d.log := rfl
@[simp] theorem Dev.mapUpdate_mbx : (d.mapUpdate ts sp).mbx = d.mbx := rfl
@[simp] theorem Dev.mapUpdate_out : (d.mapUpdate ts sp).out = d.out := rfl
@[simp] theorem Dev.mapUpdate_freeCtr : (d.mapUpdate ts sp).freeCtr = d.freeCtr := rfl
@[simp] theorem Dev.mapUpdate_tl : (d.mapUpdate ts sp).tl = d.tl := rfl
@[simp] theorem Dev.mapUpdate_ms : (d.mapUpdate ts sp).ms = d.ms := rfl
@[simp] theorem Dev.mapUpdate_devnum : (d.mapUpdate ts sp).devnum = d.devnum := rfl
@[simp] theorem Dev.mapUpdate_engs : (d.mapUpdate ts sp).engs = d.engs := rfl
@[simp] theorem Dev.mapUpdate_ptiles : (d.mapUpdate ts sp).ptiles = d.ptiles := rfl
@[simp] theorem Dev.mapUpdate_res : (d.mapUpdate ts sp).res = d.res := rfl
@[simp] theorem Dev.mapUpdate_nextPlace : (d.mapUpdate ts sp).nextPlace = d.nextPlace := rfl
@[simp] theorem Dev.mapUpdate_str : (d.mapUpdate ts sp).str = d.str := rfl
@[simp] theorem Dev.mapUpdate_peers : (d.mapUpdate ts sp).peers = d.peers := rfl
@[simp] theorem Dev.mapUpdate_tgs : (d.mapUpdate ts sp).tgs = d.tgs := rfl
@[simp] theorem Dev.mapUpdate_pinned : (d.mapUpdate ts sp).pinned = d.pinned := rfl
@[simp] theorem Dev.mapUpdate_scrubLift : (d.mapUpdate ts sp).scrubLift = d.scrubLift := rfl
@[simp] theorem Dev.mapUpdate_stks : (d.mapUpdate ts sp).stks = d.stks := rfl
@[simp] theorem Dev.mapUpdate_rgs : (d.mapUpdate ts sp).rgs = d.rgs := rfl
@[simp] theorem Dev.mapUpdate_th : (d.mapUpdate ts sp).th = d.th := rfl
@[simp] theorem Dev.mapUpdate_ports : (d.mapUpdate ts sp).ports = d.ports := rfl
@[simp] theorem Dev.mapUpdate_cp : (d.mapUpdate ts sp).cp = d.cp := rfl

end

/-! ### setCtx -/

section
variable (d : Dev) (n : Nat) (x : Ctx)

@[simp] theorem Dev.setCtx_time : (d.setCtx n x).time = d.time := rfl
@[simp] theorem Dev.setCtx_aon : (d.setCtx n x).aon = d.aon := rfl
@[simp] theorem Dev.setCtx_regs : (d.setCtx n x).regs = d.regs := rfl
@[simp] theorem Dev.setCtx_holdR : (d.setCtx n x).holdR = d.holdR := rfl
@[simp] theorem Dev.setCtx_holdW : (d.setCtx n x).holdW = d.holdW := rfl
@[simp] theorem Dev.setCtx_mem : (d.setCtx n x).mem = d.mem := rfl
@[simp] theorem Dev.setCtx_wr : (d.setCtx n x).wr = d.wr := rfl
@[simp] theorem Dev.setCtx_log : (d.setCtx n x).log = d.log := rfl
@[simp] theorem Dev.setCtx_mbx : (d.setCtx n x).mbx = d.mbx := rfl
@[simp] theorem Dev.setCtx_out : (d.setCtx n x).out = d.out := rfl
@[simp] theorem Dev.setCtx_freeCtr : (d.setCtx n x).freeCtr = d.freeCtr := rfl
@[simp] theorem Dev.setCtx_tl : (d.setCtx n x).tl = d.tl := rfl
@[simp] theorem Dev.setCtx_ms : (d.setCtx n x).ms = d.ms := rfl
@[simp] theorem Dev.setCtx_tmap : (d.setCtx n x).tmap = d.tmap := rfl
@[simp] theorem Dev.setCtx_spares : (d.setCtx n x).spares = d.spares := rfl
@[simp] theorem Dev.setCtx_tmapGen : (d.setCtx n x).tmapGen = d.tmapGen := rfl
@[simp] theorem Dev.setCtx_devnum : (d.setCtx n x).devnum = d.devnum := rfl
@[simp] theorem Dev.setCtx_engs : (d.setCtx n x).engs = d.engs := rfl
@[simp] theorem Dev.setCtx_ptiles : (d.setCtx n x).ptiles = d.ptiles := rfl
@[simp] theorem Dev.setCtx_res : (d.setCtx n x).res = d.res := rfl
@[simp] theorem Dev.setCtx_nextPlace : (d.setCtx n x).nextPlace = d.nextPlace := rfl
@[simp] theorem Dev.setCtx_peers : (d.setCtx n x).peers = d.peers := rfl
@[simp] theorem Dev.setCtx_tgs : (d.setCtx n x).tgs = d.tgs := rfl
@[simp] theorem Dev.setCtx_pinned : (d.setCtx n x).pinned = d.pinned := rfl
@[simp] theorem Dev.setCtx_scrubLift : (d.setCtx n x).scrubLift = d.scrubLift := rfl
@[simp] theorem Dev.setCtx_stks : (d.setCtx n x).stks = d.stks := rfl
@[simp] theorem Dev.setCtx_rgs : (d.setCtx n x).rgs = d.rgs := rfl
@[simp] theorem Dev.setCtx_th : (d.setCtx n x).th = d.th := rfl
@[simp] theorem Dev.setCtx_ports : (d.setCtx n x).ports = d.ports := rfl
@[simp] theorem Dev.setCtx_cp : (d.setCtx n x).cp = d.cp := rfl
@[simp] theorem Dev.setCtx_str : (d.setCtx n x).str = { d.str with ctxs := tset d.str.ctxs n x } := rfl

end

/-! ### setTg -/

section
variable (d : Dev) (n : Nat) (x : Tollgate)

@[simp] theorem Dev.setTg_time : (d.setTg n x).time = d.time := rfl
@[simp] theorem Dev.setTg_aon : (d.setTg n x).aon = d.aon := rfl
@[simp] theorem Dev.setTg_regs : (d.setTg n x).regs = d.regs := rfl
@[simp] theorem Dev.setTg_holdR : (d.setTg n x).holdR = d.holdR := rfl
@[simp] theorem Dev.setTg_holdW : (d.setTg n x).holdW = d.holdW := rfl
@[simp] theorem Dev.setTg_mem : (d.setTg n x).mem = d.mem := rfl
@[simp] theorem Dev.setTg_wr : (d.setTg n x).wr = d.wr := rfl
@[simp] theorem Dev.setTg_log : (d.setTg n x).log = d.log := rfl
@[simp] theorem Dev.setTg_mbx : (d.setTg n x).mbx = d.mbx := rfl
@[simp] theorem Dev.setTg_out : (d.setTg n x).out = d.out := rfl
@[simp] theorem Dev.setTg_freeCtr : (d.setTg n x).freeCtr = d.freeCtr := rfl
@[simp] theorem Dev.setTg_tl : (d.setTg n x).tl = d.tl := rfl
@[simp] theorem Dev.setTg_ms : (d.setTg n x).ms = d.ms := rfl
@[simp] theorem Dev.setTg_tmap : (d.setTg n x).tmap = d.tmap := rfl
@[simp] theorem Dev.setTg_spares : (d.setTg n x).spares = d.spares := rfl
@[simp] theorem Dev.setTg_tmapGen : (d.setTg n x).tmapGen = d.tmapGen := rfl
@[simp] theorem Dev.setTg_devnum : (d.setTg n x).devnum = d.devnum := rfl
@[simp] theorem Dev.setTg_engs : (d.setTg n x).engs = d.engs := rfl
@[simp] theorem Dev.setTg_ptiles : (d.setTg n x).ptiles = d.ptiles := rfl
@[simp] theorem Dev.setTg_res : (d.setTg n x).res = d.res := rfl
@[simp] theorem Dev.setTg_nextPlace : (d.setTg n x).nextPlace = d.nextPlace := rfl
@[simp] theorem Dev.setTg_str : (d.setTg n x).str = d.str := rfl
@[simp] theorem Dev.setTg_peers : (d.setTg n x).peers = d.peers := rfl
@[simp] theorem Dev.setTg_pinned : (d.setTg n x).pinned = d.pinned := rfl
@[simp] theorem Dev.setTg_scrubLift : (d.setTg n x).scrubLift = d.scrubLift := rfl
@[simp] theorem Dev.setTg_stks : (d.setTg n x).stks = d.stks := rfl
@[simp] theorem Dev.setTg_rgs : (d.setTg n x).rgs = d.rgs := rfl
@[simp] theorem Dev.setTg_th : (d.setTg n x).th = d.th := rfl
@[simp] theorem Dev.setTg_ports : (d.setTg n x).ports = d.ports := rfl
@[simp] theorem Dev.setTg_cp : (d.setTg n x).cp = d.cp := rfl
@[simp] theorem Dev.setTg_tgs : (d.setTg n x).tgs = tset d.tgs n x := rfl

end

/-! ### setRgn -/

section
variable (d : Dev) (n : Nat) (x : Region)

@[simp] theorem Dev.setRgn_time : (d.setRgn n x).time = d.time := rfl
@[simp] theorem Dev.setRgn_aon : (d.setRgn n x).aon = d.aon := rfl
@[simp] theorem Dev.setRgn_regs : (d.setRgn n x).regs = d.regs := rfl
@[simp] theorem Dev.setRgn_holdR : (d.setRgn n x).holdR = d.holdR := rfl
@[simp] theorem Dev.setRgn_holdW : (d.setRgn n x).holdW = d.holdW := rfl
@[simp] theorem Dev.setRgn_mem : (d.setRgn n x).mem = d.mem := rfl
@[simp] theorem Dev.setRgn_wr : (d.setRgn n x).wr = d.wr := rfl
@[simp] theorem Dev.setRgn_log : (d.setRgn n x).log = d.log := rfl
@[simp] theorem Dev.setRgn_mbx : (d.setRgn n x).mbx = d.mbx := rfl
@[simp] theorem Dev.setRgn_out : (d.setRgn n x).out = d.out := rfl
@[simp] theorem Dev.setRgn_freeCtr : (d.setRgn n x).freeCtr = d.freeCtr := rfl
@[simp] theorem Dev.setRgn_tl : (d.setRgn n x).tl = d.tl := rfl
@[simp] theorem Dev.setRgn_ms : (d.setRgn n x).ms = d.ms := rfl
@[simp] theorem Dev.setRgn_tmap : (d.setRgn n x).tmap = d.tmap := rfl
@[simp] theorem Dev.setRgn_spares : (d.setRgn n x).spares = d.spares := rfl
@[simp] theorem Dev.setRgn_tmapGen : (d.setRgn n x).tmapGen = d.tmapGen := rfl
@[simp] theorem Dev.setRgn_devnum : (d.setRgn n x).devnum = d.devnum := rfl
@[simp] theorem Dev.setRgn_engs : (d.setRgn n x).engs = d.engs := rfl
@[simp] theorem Dev.setRgn_ptiles : (d.setRgn n x).ptiles = d.ptiles := rfl
@[simp] theorem Dev.setRgn_res : (d.setRgn n x).res = d.res := rfl
@[simp] theorem Dev.setRgn_nextPlace : (d.setRgn n x).nextPlace = d.nextPlace := rfl
@[simp] theorem Dev.setRgn_str : (d.setRgn n x).str = d.str := rfl
@[simp] theorem Dev.setRgn_peers : (d.setRgn n x).peers = d.peers := rfl
@[simp] theorem Dev.setRgn_tgs : (d.setRgn n x).tgs = d.tgs := rfl
@[simp] theorem Dev.setRgn_pinned : (d.setRgn n x).pinned = d.pinned := rfl
@[simp] theorem Dev.setRgn_scrubLift : (d.setRgn n x).scrubLift = d.scrubLift := rfl
@[simp] theorem Dev.setRgn_stks : (d.setRgn n x).stks = d.stks := rfl
@[simp] theorem Dev.setRgn_th : (d.setRgn n x).th = d.th := rfl
@[simp] theorem Dev.setRgn_ports : (d.setRgn n x).ports = d.ports := rfl
@[simp] theorem Dev.setRgn_cp : (d.setRgn n x).cp = d.cp := rfl
@[simp] theorem Dev.setRgn_rgs : (d.setRgn n x).rgs = tset d.rgs n x := rfl

end

/-! ### setStk -/

section
variable (d : Dev) (n : Nat) (x : StackSt)

@[simp] theorem Dev.setStk_time : (d.setStk n x).time = d.time := rfl
@[simp] theorem Dev.setStk_aon : (d.setStk n x).aon = d.aon := rfl
@[simp] theorem Dev.setStk_regs : (d.setStk n x).regs = d.regs := rfl
@[simp] theorem Dev.setStk_holdR : (d.setStk n x).holdR = d.holdR := rfl
@[simp] theorem Dev.setStk_holdW : (d.setStk n x).holdW = d.holdW := rfl
@[simp] theorem Dev.setStk_mem : (d.setStk n x).mem = d.mem := rfl
@[simp] theorem Dev.setStk_wr : (d.setStk n x).wr = d.wr := rfl
@[simp] theorem Dev.setStk_log : (d.setStk n x).log = d.log := rfl
@[simp] theorem Dev.setStk_mbx : (d.setStk n x).mbx = d.mbx := rfl
@[simp] theorem Dev.setStk_out : (d.setStk n x).out = d.out := rfl
@[simp] theorem Dev.setStk_freeCtr : (d.setStk n x).freeCtr = d.freeCtr := rfl
@[simp] theorem Dev.setStk_tl : (d.setStk n x).tl = d.tl := rfl
@[simp] theorem Dev.setStk_ms : (d.setStk n x).ms = d.ms := rfl
@[simp] theorem Dev.setStk_tmap : (d.setStk n x).tmap = d.tmap := rfl
@[simp] theorem Dev.setStk_spares : (d.setStk n x).spares = d.spares := rfl
@[simp] theorem Dev.setStk_tmapGen : (d.setStk n x).tmapGen = d.tmapGen := rfl
@[simp] theorem Dev.setStk_devnum : (d.setStk n x).devnum = d.devnum := rfl
@[simp] theorem Dev.setStk_engs : (d.setStk n x).engs = d.engs := rfl
@[simp] theorem Dev.setStk_ptiles : (d.setStk n x).ptiles = d.ptiles := rfl
@[simp] theorem Dev.setStk_res : (d.setStk n x).res = d.res := rfl
@[simp] theorem Dev.setStk_nextPlace : (d.setStk n x).nextPlace = d.nextPlace := rfl
@[simp] theorem Dev.setStk_str : (d.setStk n x).str = d.str := rfl
@[simp] theorem Dev.setStk_peers : (d.setStk n x).peers = d.peers := rfl
@[simp] theorem Dev.setStk_tgs : (d.setStk n x).tgs = d.tgs := rfl
@[simp] theorem Dev.setStk_pinned : (d.setStk n x).pinned = d.pinned := rfl
@[simp] theorem Dev.setStk_scrubLift : (d.setStk n x).scrubLift = d.scrubLift := rfl
@[simp] theorem Dev.setStk_rgs : (d.setStk n x).rgs = d.rgs := rfl
@[simp] theorem Dev.setStk_th : (d.setStk n x).th = d.th := rfl
@[simp] theorem Dev.setStk_ports : (d.setStk n x).ports = d.ports := rfl
@[simp] theorem Dev.setStk_cp : (d.setStk n x).cp = d.cp := rfl
@[simp] theorem Dev.setStk_stks : (d.setStk n x).stks = tset d.stks n x := rfl

end

/-! ### setReg -/

section
variable (d : Dev) (n : RegName) (v i j k : Nat)

@[simp] theorem Dev.setReg_time : (d.setReg n v i j k).time = d.time := rfl
@[simp] theorem Dev.setReg_aon : (d.setReg n v i j k).aon = d.aon := rfl
@[simp] theorem Dev.setReg_holdR : (d.setReg n v i j k).holdR = d.holdR := rfl
@[simp] theorem Dev.setReg_holdW : (d.setReg n v i j k).holdW = d.holdW := rfl
@[simp] theorem Dev.setReg_mem : (d.setReg n v i j k).mem = d.mem := rfl
@[simp] theorem Dev.setReg_wr : (d.setReg n v i j k).wr = d.wr := rfl
@[simp] theorem Dev.setReg_log : (d.setReg n v i j k).log = d.log := rfl
@[simp] theorem Dev.setReg_mbx : (d.setReg n v i j k).mbx = d.mbx := rfl
@[simp] theorem Dev.setReg_out : (d.setReg n v i j k).out = d.out := rfl
@[simp] theorem Dev.setReg_freeCtr : (d.setReg n v i j k).freeCtr = d.freeCtr := rfl
@[simp] theorem Dev.setReg_tl : (d.setReg n v i j k).tl = d.tl := rfl
@[simp] theorem Dev.setReg_ms : (d.setReg n v i j k).ms = d.ms := rfl
@[simp] theorem Dev.setReg_tmap : (d.setReg n v i j k).tmap = d.tmap := rfl
@[simp] theorem Dev.setReg_spares : (d.setReg n v i j k).spares = d.spares := rfl
@[simp] theorem Dev.setReg_tmapGen : (d.setReg n v i j k).tmapGen = d.tmapGen := rfl
@[simp] theorem Dev.setReg_devnum : (d.setReg n v i j k).devnum = d.devnum := rfl
@[simp] theorem Dev.setReg_engs : (d.setReg n v i j k).engs = d.engs := rfl
@[simp] theorem Dev.setReg_ptiles : (d.setReg n v i j k).ptiles = d.ptiles := rfl
@[simp] theorem Dev.setReg_res : (d.setReg n v i j k).res = d.res := rfl
@[simp] theorem Dev.setReg_nextPlace : (d.setReg n v i j k).nextPlace = d.nextPlace := rfl
@[simp] theorem Dev.setReg_str : (d.setReg n v i j k).str = d.str := rfl
@[simp] theorem Dev.setReg_peers : (d.setReg n v i j k).peers = d.peers := rfl
@[simp] theorem Dev.setReg_tgs : (d.setReg n v i j k).tgs = d.tgs := rfl
@[simp] theorem Dev.setReg_pinned : (d.setReg n v i j k).pinned = d.pinned := rfl
@[simp] theorem Dev.setReg_scrubLift : (d.setReg n v i j k).scrubLift = d.scrubLift := rfl
@[simp] theorem Dev.setReg_stks : (d.setReg n v i j k).stks = d.stks := rfl
@[simp] theorem Dev.setReg_rgs : (d.setReg n v i j k).rgs = d.rgs := rfl
@[simp] theorem Dev.setReg_th : (d.setReg n v i j k).th = d.th := rfl
@[simp] theorem Dev.setReg_ports : (d.setReg n v i j k).ports = d.ports := rfl
@[simp] theorem Dev.setReg_cp : (d.setReg n v i j k).cp = d.cp := rfl
@[simp] theorem Dev.setReg_regs : (d.setReg n v i j k).regs = tset d.regs (n.off i j k) (BitVec.ofNat 32 v) := rfl

end

/-! ### setMb -/

section
variable (d : Dev) (m : Nat) (x : Mailbox)

@[simp] theorem Dev.setMb_time : (d.setMb m x).time = d.time := rfl
@[simp] theorem Dev.setMb_aon : (d.setMb m x).aon = d.aon := rfl
@[simp] theorem Dev.setMb_regs : (d.setMb m x).regs = d.regs := rfl
@[simp] theorem Dev.setMb_holdR : (d.setMb m x).holdR = d.holdR := rfl
@[simp] theorem Dev.setMb_holdW : (d.setMb m x).holdW = d.holdW := rfl
@[simp] theorem Dev.setMb_mem : (d.setMb m x).mem = d.mem := rfl
@[simp] theorem Dev.setMb_wr : (d.setMb m x).wr = d.wr := rfl
@[simp] theorem Dev.setMb_log : (d.setMb m x).log = d.log := rfl
@[simp] theorem Dev.setMb_out : (d.setMb m x).out = d.out := rfl
@[simp] theorem Dev.setMb_freeCtr : (d.setMb m x).freeCtr = d.freeCtr := rfl
@[simp] theorem Dev.setMb_tl : (d.setMb m x).tl = d.tl := rfl
@[simp] theorem Dev.setMb_ms : (d.setMb m x).ms = d.ms := rfl
@[simp] theorem Dev.setMb_tmap : (d.setMb m x).tmap = d.tmap := rfl
@[simp] theorem Dev.setMb_spares : (d.setMb m x).spares = d.spares := rfl
@[simp] theorem Dev.setMb_tmapGen : (d.setMb m x).tmapGen = d.tmapGen := rfl
@[simp] theorem Dev.setMb_devnum : (d.setMb m x).devnum = d.devnum := rfl
@[simp] theorem Dev.setMb_engs : (d.setMb m x).engs = d.engs := rfl
@[simp] theorem Dev.setMb_ptiles : (d.setMb m x).ptiles = d.ptiles := rfl
@[simp] theorem Dev.setMb_res : (d.setMb m x).res = d.res := rfl
@[simp] theorem Dev.setMb_nextPlace : (d.setMb m x).nextPlace = d.nextPlace := rfl
@[simp] theorem Dev.setMb_str : (d.setMb m x).str = d.str := rfl
@[simp] theorem Dev.setMb_peers : (d.setMb m x).peers = d.peers := rfl
@[simp] theorem Dev.setMb_tgs : (d.setMb m x).tgs = d.tgs := rfl
@[simp] theorem Dev.setMb_pinned : (d.setMb m x).pinned = d.pinned := rfl
@[simp] theorem Dev.setMb_scrubLift : (d.setMb m x).scrubLift = d.scrubLift := rfl
@[simp] theorem Dev.setMb_stks : (d.setMb m x).stks = d.stks := rfl
@[simp] theorem Dev.setMb_rgs : (d.setMb m x).rgs = d.rgs := rfl
@[simp] theorem Dev.setMb_th : (d.setMb m x).th = d.th := rfl
@[simp] theorem Dev.setMb_ports : (d.setMb m x).ports = d.ports := rfl
@[simp] theorem Dev.setMb_cp : (d.setMb m x).cp = d.cp := rfl
@[simp] theorem Dev.setMb_mbx : (d.setMb m x).mbx = tset d.mbx m x := rfl

end

/-! ### emit -/

section
variable (d : Dev) (o : Output)

@[simp] theorem Dev.emit_time : (d.emit o).time = d.time := rfl
@[simp] theorem Dev.emit_aon : (d.emit o).aon = d.aon := rfl
@[simp] theorem Dev.emit_regs : (d.emit o).regs = d.regs := rfl
@[simp] theorem Dev.emit_holdR : (d.emit o).holdR = d.holdR := rfl
@[simp] theorem Dev.emit_holdW : (d.emit o).holdW = d.holdW := rfl
@[simp] theorem Dev.emit_mem : (d.emit o).mem = d.mem := rfl
@[simp] theorem Dev.emit_wr : (d.emit o).wr = d.wr := rfl
@[simp] theorem Dev.emit_log : (d.emit o).log = d.log := rfl
@[simp] theorem Dev.emit_mbx : (d.emit o).mbx = d.mbx := rfl
@[simp] theorem Dev.emit_freeCtr : (d.emit o).freeCtr = d.freeCtr := rfl
@[simp] theorem Dev.emit_tl : (d.emit o).tl = d.tl := rfl
@[simp] theorem Dev.emit_ms : (d.emit o).ms = d.ms := rfl
@[simp] theorem Dev.emit_tmap : (d.emit o).tmap = d.tmap := rfl
@[simp] theorem Dev.emit_spares : (d.emit o).spares = d.spares := rfl
@[simp] theorem Dev.emit_tmapGen : (d.emit o).tmapGen = d.tmapGen := rfl
@[simp] theorem Dev.emit_devnum : (d.emit o).devnum = d.devnum := rfl
@[simp] theorem Dev.emit_engs : (d.emit o).engs = d.engs := rfl
@[simp] theorem Dev.emit_ptiles : (d.emit o).ptiles = d.ptiles := rfl
@[simp] theorem Dev.emit_res : (d.emit o).res = d.res := rfl
@[simp] theorem Dev.emit_nextPlace : (d.emit o).nextPlace = d.nextPlace := rfl
@[simp] theorem Dev.emit_str : (d.emit o).str = d.str := rfl
@[simp] theorem Dev.emit_peers : (d.emit o).peers = d.peers := rfl
@[simp] theorem Dev.emit_tgs : (d.emit o).tgs = d.tgs := rfl
@[simp] theorem Dev.emit_pinned : (d.emit o).pinned = d.pinned := rfl
@[simp] theorem Dev.emit_scrubLift : (d.emit o).scrubLift = d.scrubLift := rfl
@[simp] theorem Dev.emit_stks : (d.emit o).stks = d.stks := rfl
@[simp] theorem Dev.emit_rgs : (d.emit o).rgs = d.rgs := rfl
@[simp] theorem Dev.emit_th : (d.emit o).th = d.th := rfl
@[simp] theorem Dev.emit_ports : (d.emit o).ports = d.ports := rfl
@[simp] theorem Dev.emit_cp : (d.emit o).cp = d.cp := rfl
@[simp] theorem Dev.emit_out : (d.emit o).out = o :: d.out := rfl

end

/-! ### wrZero -/

section
variable (d : Dev) (a n : Nat)

@[simp] theorem Dev.wrZero_time : (d.wrZero a n).time = d.time := rfl
@[simp] theorem Dev.wrZero_aon : (d.wrZero a n).aon = d.aon := rfl
@[simp] theorem Dev.wrZero_regs : (d.wrZero a n).regs = d.regs := rfl
@[simp] theorem Dev.wrZero_holdR : (d.wrZero a n).holdR = d.holdR := rfl
@[simp] theorem Dev.wrZero_holdW : (d.wrZero a n).holdW = d.holdW := rfl
@[simp] theorem Dev.wrZero_mem : (d.wrZero a n).mem = d.mem := rfl
@[simp] theorem Dev.wrZero_log : (d.wrZero a n).log = d.log := rfl
@[simp] theorem Dev.wrZero_mbx : (d.wrZero a n).mbx = d.mbx := rfl
@[simp] theorem Dev.wrZero_out : (d.wrZero a n).out = d.out := rfl
@[simp] theorem Dev.wrZero_freeCtr : (d.wrZero a n).freeCtr = d.freeCtr := rfl
@[simp] theorem Dev.wrZero_tl : (d.wrZero a n).tl = d.tl := rfl
@[simp] theorem Dev.wrZero_ms : (d.wrZero a n).ms = d.ms := rfl
@[simp] theorem Dev.wrZero_tmap : (d.wrZero a n).tmap = d.tmap := rfl
@[simp] theorem Dev.wrZero_spares : (d.wrZero a n).spares = d.spares := rfl
@[simp] theorem Dev.wrZero_tmapGen : (d.wrZero a n).tmapGen = d.tmapGen := rfl
@[simp] theorem Dev.wrZero_devnum : (d.wrZero a n).devnum = d.devnum := rfl
@[simp] theorem Dev.wrZero_engs : (d.wrZero a n).engs = d.engs := rfl
@[simp] theorem Dev.wrZero_ptiles : (d.wrZero a n).ptiles = d.ptiles := rfl
@[simp] theorem Dev.wrZero_res : (d.wrZero a n).res = d.res := rfl
@[simp] theorem Dev.wrZero_nextPlace : (d.wrZero a n).nextPlace = d.nextPlace := rfl
@[simp] theorem Dev.wrZero_str : (d.wrZero a n).str = d.str := rfl
@[simp] theorem Dev.wrZero_peers : (d.wrZero a n).peers = d.peers := rfl
@[simp] theorem Dev.wrZero_tgs : (d.wrZero a n).tgs = d.tgs := rfl
@[simp] theorem Dev.wrZero_pinned : (d.wrZero a n).pinned = d.pinned := rfl
@[simp] theorem Dev.wrZero_scrubLift : (d.wrZero a n).scrubLift = d.scrubLift := rfl
@[simp] theorem Dev.wrZero_stks : (d.wrZero a n).stks = d.stks := rfl
@[simp] theorem Dev.wrZero_rgs : (d.wrZero a n).rgs = d.rgs := rfl
@[simp] theorem Dev.wrZero_th : (d.wrZero a n).th = d.th := rfl
@[simp] theorem Dev.wrZero_ports : (d.wrZero a n).ports = d.ports := rfl
@[simp] theorem Dev.wrZero_cp : (d.wrZero a n).cp = d.cp := rfl
@[simp] theorem Dev.wrZero_wr : (d.wrZero a n).wr = .zero a n :: d.wr := rfl

end

end Sys2Proof.Machine
end

