-- ==== Sys2Proof/Laws/Access.lean ====
section
/-!
SUPPORT. Accesses to DRAM: byte order, what a command in progress reads after it has stored, and an access that lies in
DRAM, which is served whole and logs nothing.
-/
namespace Sys2Proof.Machine

@[simp] theorem leBytes_length (n v : Nat) : (leBytes n v).length = n := by
  induction n generalizing v with
  | zero => rfl
  | succ n ih => simp [leBytes, ih]

/-- The number that its little-endian bytes hold. -/
theorem ofLe_leBytes (n v : Nat) : ofLe (leBytes n v) = v % 256 ^ n := by
  induction n generalizing v with
  | zero => simp [leBytes, ofLe, Nat.mod_one]
  | succ n ih =>
    simp only [leBytes, ofLe, ih, BitVec.toNat_ofNat]
    rw [show 256 ^ (n + 1) = 256 * 256 ^ n by rw [Nat.pow_succ, Nat.mul_comm], Nat.mod_mul]

theorem ofLe_lt (bs : List Byte) : ofLe bs < 256 ^ bs.length := by
  induction bs with
  | nil => simp [ofLe]
  | cons b bs ih =>
    have hb := b.isLt
    simp only [ofLe, List.length_cons, Nat.pow_succ]
    omega

theorem Dev.rdLe_lt (d : Dev) (a n : Nat) : d.rdLe a n < 256 ^ n := by
  have := ofLe_lt (d.rdBytes a n)
  simpa [Dev.rdLe, Dev.rdBytes, upTo] using this

theorem Dev.rd_of_wr_nil (d : Dev) (a : Nat) (h : d.wr = []) : d.rd a = Memory.read d.mem a := by simp [Dev.rd, h]

/-- What a command in progress reads once it has stored bytes. -/
theorem Dev.rd_wrBytes (d : Dev) (a c : Nat) (bs : List Byte) :
    (d.wrBytes a bs).rd c = if a ≤ c ∧ c < a + bs.length then bs.getD (c - a) 0#8 else d.rd c := by
  unfold Dev.wrBytes
  split
  · subst_vars; rw [if_neg (by simp)]
  · simp only [Dev.rd, List.findSome?_cons, MemOp.byteAt]
    by_cases h : a ≤ c ∧ c < a + bs.length
    · simp [h]
    · have h' : (decide (a ≤ c) && decide (c < a + bs.length)) = false := by simpa using h
      rw [h']; simp only [Bool.false_eq_true, if_false, if_neg h]

theorem Dev.rdBytes_wrBytes (d : Dev) (a : Nat) (bs : List Byte) : (d.wrBytes a bs).rdBytes a bs.length = bs := by
  apply List.ext_getElem
  · simp [Dev.rdBytes, upTo]
  · intro i h1 h2
    simp only [Dev.rdBytes, upTo, List.getElem_map, List.getElem_range, Dev.rd_wrBytes]
    rw [if_pos (by omega), Nat.add_sub_cancel_left, List.getD_eq_getElem?_getD, List.getElem?_eq_getElem h2]; rfl

/-- A number stored reads back. -/
theorem Dev.rdLe_wrLe (d : Dev) (a n v : Nat) : (d.wrLe a n v).rdLe a n = v % 256 ^ n := by
  have := Dev.rdBytes_wrBytes d a (leBytes n v)
  rw [leBytes_length] at this
  rw [Dev.wrLe, Dev.rdLe, this, ofLe_leBytes]

theorem Dev.wrBytes_frame (d : Dev) (a : Nat) (bs : List Byte) : d.wrBytes a bs = { d with wr := (d.wrBytes a bs).wr } := by
  unfold Dev.wrBytes; split <;> rfl

theorem usableRange_dram {a n : Nat} (h : a + n ≤ 0x6000000000) : usableRange a n = true := by
  have h' : a + n ≤ dramEnd := h
  simp [usableRange, h']

theorem Dev.logReserved_dram (d : Dev) (w : Nat) {a n : Nat} (h : a + n ≤ 0x6000000000) : d.logReserved w a n = d := by
  simp [Dev.logReserved, firstReserved, usableRange_dram h]

/-- A write that lies in DRAM is stored whole. -/
theorem Dev.devWrite_dram (d : Dev) (w : Nat) {a : Nat} {bs : List Byte} (h : a + bs.length ≤ 0x6000000000) :
    d.devWrite w a bs = (d.wrBytes a bs).unpoison a bs.length := by
  simp [Dev.devWrite, Dev.logReserved_dram _ _ h, usableRuns, usableRange_dram h]

/-- A read that lies in DRAM returns its bytes. -/
theorem Dev.devRead_dram (d : Dev) (w : Nat) {a n : Nat} (h : a + n ≤ 0x6000000000) :
    d.devRead w a n = (d.rdBytes a n, d) := by
  simp only [Dev.devRead, Dev.logReserved_dram _ _ h, Dev.rdBytes, upTo, Prod.mk.injEq, and_true]
  apply List.map_congr_left
  intro k hk
  have hk : k < n := by simpa using hk
  have hu : isUsable (a + k) = true := by
    have : a + k < dramEnd := by unfold dramEnd; omega
    simp [isUsable, isDram, this]
  simp [hu]

end Sys2Proof.Machine
end

