-- ==== Sys2Proof/Laws/Tables.lean ====
section
/-!
SUPPORT. Sparse tables: what a table reads after an entry is set or dropped.
-/
namespace Sys2Proof.Machine

variable {α : Type}

@[simp] theorem tget_nil (k : Nat) (x : α) : tget [] k x = x := rfl
@[simp] theorem tfind_nil (k : Nat) : tfind ([] : Tbl α) k = none := rfl

@[simp] theorem tget_tset_same (t : Tbl α) (k : Nat) (v x : α) : tget (tset t k v) k x = v := by
  induction t with
  | nil => simp [tset, tget]
  | cons p t ih =>
    obtain ⟨k', w⟩ := p
    simp only [tset]
    split
    · simp [tget]
    · split
      · simp [tget]
      · rename_i h _; simp only [tget]; simp_all

theorem tget_tset_ne (t : Tbl α) {k k' : Nat} (v x : α) (h : k ≠ k') : tget (tset t k v) k' x = tget t k' x := by
  induction t with
  | nil => simp [tset, tget, h]
  | cons p t ih =>
    obtain ⟨j, w⟩ := p
    simp only [tset]
    split
    · simp [tget, h]
    · split
      · rename_i h2; subst h2; simp [tget, h]
      · simp only [tget]; split
        · rfl
        · exact ih

@[simp] theorem tfind_tset_same (t : Tbl α) (k : Nat) (v : α) : tfind (tset t k v) k = some v := by
  induction t with
  | nil => simp [tset, tfind]
  | cons p t ih =>
    obtain ⟨k', w⟩ := p
    simp only [tset]
    split
    · simp [tfind]
    · split
      · simp [tfind]
      · simp only [tfind]; simp_all

theorem tfind_tset_ne (t : Tbl α) {k k' : Nat} (v : α) (h : k ≠ k') : tfind (tset t k v) k' = tfind t k' := by
  induction t with
  | nil => simp [tset, tfind, h]
  | cons p t ih =>
    obtain ⟨j, w⟩ := p
    simp only [tset]
    split
    · simp [tfind, h]
    · split
      · rename_i h2; subst h2; simp [tfind, h]
      · simp only [tfind]; split
        · rfl
        · exact ih

@[simp] theorem tfind_tdrop_same (t : Tbl α) (k : Nat) : tfind (tdrop t k) k = none := by
  induction t with
  | nil => rfl
  | cons p t ih =>
    obtain ⟨j, w⟩ := p
    simp only [tdrop, List.filter_cons] at *
    split
    · rename_i h; simp at h; simp [tfind, h, ih]
    · exact ih

end Sys2Proof.Machine
end

