-- ==== Sys2Proof/Laws/Reports.lean ====
section
/-!
SUPPORT. What reports do, said once: an interrupt bit and an event touch mailboxes and outputs alone, a log entry also the
log, a response its mailbox and the peer link of MBX6.
-/
namespace Sys2Proof.Machine

@[simp] theorem Dev.mb_setMb_same (d : Dev) (m : Nat) (b : Mailbox) : (d.setMb m b).mb m = b := by
  simp [Dev.mb, Dev.setMb]

theorem Dev.mb_setMb_ne (d : Dev) {m k : Nat} (b : Mailbox) (h : m ≠ k) : (d.setMb m b).mb k = d.mb k := by
  simp [Dev.mb, Dev.setMb, tget_tset_ne _ _ _ h]

@[simp] theorem Dev.mb_emit (d : Dev) (o : Output) (m : Nat) : (d.emit o).mb m = d.mb m := rfl

/-! ### Frames -/

/-- The device with the mailboxes and outputs of another. -/
def Dev.withMail (d x : Dev) : Dev := { d with mbx := x.mbx, out := x.out }

@[simp] theorem Dev.withMail_self (d : Dev) : d.withMail d = d := rfl

theorem Dev.mail_trans {a b c : Dev} (h : b = a.withMail b) (k : c = b.withMail c) : c = a.withMail c := by
  rw [k, h]; rfl

theorem Dev.mail_foldl {α : Type} (l : List α) (f : Dev → α → Dev) (h : ∀ d a, f d a = d.withMail (f d a)) (d : Dev) :
    l.foldl f d = d.withMail (l.foldl f d) := by
  induction l generalizing d with
  | nil => rfl
  | cons a l ih => rw [List.foldl_cons]; exact Dev.mail_trans (h d a) (ih (f d a))

theorem Dev.setMb_mail (d : Dev) (m : Nat) (b : Mailbox) : d.setMb m b = d.withMail (d.setMb m b) := rfl
theorem Dev.emit_mail (d : Dev) (o : Output) : d.emit o = d.withMail (d.emit o) := rfl

theorem Dev.setInt_mail (d : Dev) (m b c : Nat) : d.setInt m b c = d.withMail (d.setInt m b c) := by
  unfold Dev.setInt; dsimp only
  split
  · split
    · exact Dev.mail_trans (Dev.setMb_mail _ _ _) (Dev.emit_mail _ _)
    · rfl
  · rfl

theorem Dev.place_mail (d : Dev) (m : Nat) (es : List Event) : d.place m es = d.withMail (d.place m es) := by
  unfold Dev.place; dsimp only
  split
  · rfl
  · split
    · exact Dev.mail_trans (Dev.setMb_mail _ _ _) (Dev.setInt_mail _ _ _ _)
    · exact Dev.mail_trans (Dev.setMb_mail _ _ _) (Dev.mail_foldl _ _ (fun d e => Dev.setInt_mail d _ _ _) _)

theorem Dev.event_mail (d : Dev) (m t s : Nat) (fs : List (Nat × Nat)) (ts : Nat) :
    d.event m t s fs ts = d.withMail (d.event m t s fs ts) := Dev.place_mail d m _

theorem Dev.publish_mail (d : Dev) (t s : Nat) (fs : List (Nat × Nat)) (ts : Nat) :
    d.publish t s fs ts = d.withMail (d.publish t s fs ts) :=
  Dev.mail_foldl _ _ (fun d m => by split; exact Dev.event_mail d m _ _ _ _; rfl) d

theorem Dev.eventMask_mail (d : Dev) (k t s : Nat) (fs : List (Nat × Nat)) (ts : Nat) :
    d.eventMask k t s fs ts = d.withMail (d.eventMask k t s fs ts) :=
  Dev.mail_foldl _ _ (fun d m => by split; exact Dev.event_mail d m _ _ _ _; rfl) d

/-- A log entry touches the log, mailboxes and outputs alone. -/
theorem Dev.logAt_frame (d : Dev) (s c : Nat) (fs : List (Nat × Nat)) (ts : Nat) :
    d.logAt s c fs ts = { d with
      log := (d.logAt s c fs ts).log, mbx := (d.logAt s c fs ts).mbx, out := (d.logAt s c fs ts).out } := by
  unfold Dev.logAt; dsimp only; split
  · rw [Dev.publish_mail]; rfl
  · rfl

theorem Dev.logAt_log (d : Dev) (s c : Nat) (fs : List (Nat × Nat)) (ts : Nat) :
    (d.logAt s c fs ts).log =
      d.log.add { ts, source := s, code := c, severity := logSeverity c, data := padTo 16 (pack fs) } := by
  unfold Dev.logAt; dsimp only; split
  · rw [Dev.publish_mail]; rfl
  · rfl

@[simp] theorem ErrLog.add_written (l : ErrLog) (e : LogEntry) : (l.add e).written = l.written + 1 := by
  unfold ErrLog.add ErrLog.count; dsimp only; split
  · rfl
  · split
    · rfl
    · split <;> rfl

theorem ErrLog.add_entries (l : ErrLog) (e : LogEntry) :
    (l.add e).entries = ({ e with seq := l.written % 2 ^ 24 } :: l.entries).take 8192 := by
  unfold ErrLog.add ErrLog.count; dsimp only; split
  · rfl
  · split
    · rfl
    · split <;> rfl

@[simp] theorem Dev.logAt_written (d : Dev) (s c : Nat) (fs : List (Nat × Nat)) (ts : Nat) :
    (d.logAt s c fs ts).log.written = d.log.written + 1 := by simp [Dev.logAt_log]

theorem Dev.logNow_frame (d : Dev) (s c : Nat) (fs : List (Nat × Nat)) :
    d.logNow s c fs = { d with
      log := (d.logNow s c fs).log, mbx := (d.logNow s c fs).mbx, out := (d.logNow s c fs).out } :=
  Dev.logAt_frame d s c fs d.time

theorem Dev.logNow_log (d : Dev) (s c : Nat) (fs : List (Nat × Nat)) :
    (d.logNow s c fs).log =
      d.log.add { ts := d.time, source := s, code := c, severity := logSeverity c, data := padTo 16 (pack fs) } :=
  Dev.logAt_log d s c fs d.time

@[simp] theorem Dev.logNow_written (d : Dev) (s c : Nat) (fs : List (Nat × Nat)) :
    (d.logNow s c fs).log.written = d.log.written + 1 := Dev.logAt_written d s c fs d.time

/-- The newest log entry is the one written last. -/
theorem Dev.logNow_head (d : Dev) (s c : Nat) (fs : List (Nat × Nat)) :
    (d.logNow s c fs).log.entries.head? =
      some { ts := d.time, source := s, code := c, severity := logSeverity c, seq := d.log.written % 2 ^ 24
             data := padTo 16 (pack fs) } := by
  rw [Dev.logNow_log, ErrLog.add_entries]; rfl

/-! ### What reports leave, field by field -/

section
variable (d : Dev) (m b c : Nat)

@[simp] theorem Dev.setInt_time : (d.setInt m b c).time = d.time := by rw [Dev.setInt_mail]; rfl
@[simp] theorem Dev.setInt_aon : (d.setInt m b c).aon = d.aon := by rw [Dev.setInt_mail]; rfl
@[simp] theorem Dev.setInt_regs : (d.setInt m b c).regs = d.regs := by rw [Dev.setInt_mail]; rfl
@[simp] theorem Dev.setInt_holdR : (d.setInt m b c).holdR = d.holdR := by rw [Dev.setInt_mail]; rfl
@[simp] theorem Dev.setInt_holdW : (d.setInt m b c).holdW = d.holdW := by rw [Dev.setInt_mail]; rfl
@[simp] theorem Dev.setInt_mem : (d.setInt m b c).mem = d.mem := by rw [Dev.setInt_mail]; rfl
@[simp] theorem Dev.setInt_wr : (d.setInt m b c).wr = d.wr := by rw [Dev.setInt_mail]; rfl
@[simp] theorem Dev.setInt_log : (d.setInt m b c).log = d.log := by rw [Dev.setInt_mail]; rfl
@[simp] theorem Dev.setInt_freeCtr : (d.setInt m b c).freeCtr = d.freeCtr := by rw [Dev.setInt_mail]; rfl
@[simp] theorem Dev.setInt_tl : (d.setInt m b c).tl = d.tl := by rw [Dev.setInt_mail]; rfl
@[simp] theorem Dev.setInt_ms : (d.setInt m b c).ms = d.ms := by rw [Dev.setInt_mail]; rfl
@[simp] theorem Dev.setInt_tmap : (d.setInt m b c).tmap = d.tmap := by rw [Dev.setInt_mail]; rfl
@[simp] theorem Dev.setInt_spares : (d.setInt m b c).spares = d.spares := by rw [Dev.setInt_mail]; rfl
@[simp] theorem Dev.setInt_tmapGen : (d.setInt m b c).tmapGen = d.tmapGen := by rw [Dev.setInt_mail]; rfl
@[simp] theorem Dev.setInt_devnum : (d.setInt m b c).devnum = d.devnum := by rw [Dev.setInt_mail]; rfl
@[simp] theorem Dev.setInt_engs : (d.setInt m b c).engs = d.engs := by rw [Dev.setInt_mail]; rfl
@[simp] theorem Dev.setInt_ptiles : (d.setInt m b c).ptiles = d.ptiles := by rw [Dev.setInt_mail]; rfl
@[simp] theorem Dev.setInt_res : (d.setInt m b c).res = d.res := by rw [Dev.setInt_mail]; rfl
@[simp] theorem Dev.setInt_nextPlace : (d.setInt m b c).nextPlace = d.nextPlace := by rw [Dev.setInt_mail]; rfl
@[simp] theorem Dev.setInt_str : (d.setInt m b c).str = d.str := by rw [Dev.setInt_mail]; rfl
@[simp] theorem Dev.setInt_peers : (d.setInt m b c).peers = d.peers := by rw [Dev.setInt_mail]; rfl
@[simp] theorem Dev.setInt_tgs : (d.setInt m b c).tgs = d.tgs := by rw [Dev.setInt_mail]; rfl
@[simp] theorem Dev.setInt_pinned : (d.setInt m b c).pinned = d.pinned := by rw [Dev.setInt_mail]; rfl
@[simp] theorem Dev.setInt_scrubLift : (d.setInt m b c).scrubLift = d.scrubLift := by rw [Dev.setInt_mail]; rfl
@[simp] theorem Dev.setInt_stks : (d.setInt m b c).stks = d.stks := by rw [Dev.setInt_mail]; rfl
@[simp] theorem Dev.setInt_rgs : (d.setInt m b c).rgs = d.rgs := by rw [Dev.setInt_mail]; rfl
@[simp] theorem Dev.setInt_th : (d.setInt m b c).th = d.th := by rw [Dev.setInt_mail]; rfl
@[simp] theorem Dev.setInt_ports : (d.setInt m b c).ports = d.ports := by rw [Dev.setInt_mail]; rfl
@[simp] theorem Dev.setInt_cp : (d.setInt m b c).cp = d.cp := by rw [Dev.setInt_mail]; rfl

end

section
variable (d : Dev) (m : Nat) (es : List Event)

@[simp] theorem Dev.place_time : (d.place m es).time = d.time := by rw [Dev.place_mail]; rfl
@[simp] theorem Dev.place_aon : (d.place m es).aon = d.aon := by rw [Dev.place_mail]; rfl
@[simp] theorem Dev.place_regs : (d.place m es).regs = d.regs := by rw [Dev.place_mail]; rfl
@[simp] theorem Dev.place_holdR : (d.place m es).holdR = d.holdR := by rw [Dev.place_mail]; rfl
@[simp] theorem Dev.place_holdW : (d.place m es).holdW = d.holdW := by rw [Dev.place_mail]; rfl
@[simp] theorem Dev.place_mem : (d.place m es).mem = d.mem := by rw [Dev.place_mail]; rfl
@[simp] theorem Dev.place_wr : (d.place m es).wr = d.wr := by rw [Dev.place_mail]; rfl
@[simp] theorem Dev.place_log : (d.place m es).log = d.log := by rw [Dev.place_mail]; rfl
@[simp] theorem Dev.place_freeCtr : (d.place m es).freeCtr = d.freeCtr := by rw [Dev.place_mail]; rfl
@[simp] theorem Dev.place_tl : (d.place m es).tl = d.tl := by rw [Dev.place_mail]; rfl
@[simp] theorem Dev.place_ms : (d.place m es).ms = d.ms := by rw [Dev.place_mail]; rfl
@[simp] theorem Dev.place_tmap : (d.place m es).tmap = d.tmap := by rw [Dev.place_mail]; rfl
@[simp] theorem Dev.place_spares : (d.place m es).spares = d.spares := by rw [Dev.place_mail]; rfl
@[simp] theorem Dev.place_tmapGen : (d.place m es).tmapGen = d.tmapGen := by rw [Dev.place_mail]; rfl
@[simp] theorem Dev.place_devnum : (d.place m es).devnum = d.devnum := by rw [Dev.place_mail]; rfl
@[simp] theorem Dev.place_engs : (d.place m es).engs = d.engs := by rw [Dev.place_mail]; rfl
@[simp] theorem Dev.place_ptiles : (d.place m es).ptiles = d.ptiles := by rw [Dev.place_mail]; rfl
@[simp] theorem Dev.place_res : (d.place m es).res = d.res := by rw [Dev.place_mail]; rfl
@[simp] theorem Dev.place_nextPlace : (d.place m es).nextPlace = d.nextPlace := by rw [Dev.place_mail]; rfl
@[simp] theorem Dev.place_str : (d.place m es).str = d.str := by rw [Dev.place_mail]; rfl
@[simp] theorem Dev.place_peers : (d.place m es).peers = d.peers := by rw [Dev.place_mail]; rfl
@[simp] theorem Dev.place_tgs : (d.place m es).tgs = d.tgs := by rw [Dev.place_mail]; rfl
@[simp] theorem Dev.place_pinned : (d.place m es).pinned = d.pinned := by rw [Dev.place_mail]; rfl
@[simp] theorem Dev.place_scrubLift : (d.place m es).scrubLift = d.scrubLift := by rw [Dev.place_mail]; rfl
@[simp] theorem Dev.place_stks : (d.place m es).stks = d.stks := by rw [Dev.place_mail]; rfl
@[simp] theorem Dev.place_rgs : (d.place m es).rgs = d.rgs := by rw [Dev.place_mail]; rfl
@[simp] theorem Dev.place_th : (d.place m es).th = d.th := by rw [Dev.place_mail]; rfl
@[simp] theorem Dev.place_ports : (d.place m es).ports = d.ports := by rw [Dev.place_mail]; rfl
@[simp] theorem Dev.place_cp : (d.place m es).cp = d.cp := by rw [Dev.place_mail]; rfl

end

section
variable (d : Dev) (m t s : Nat) (fs : List (Nat × Nat)) (ts : Nat)

@[simp] theorem Dev.event_time : (d.event m t s fs ts).time = d.time := by rw [Dev.event_mail]; rfl
@[simp] theorem Dev.event_aon : (d.event m t s fs ts).aon = d.aon := by rw [Dev.event_mail]; rfl
@[simp] theorem Dev.event_regs : (d.event m t s fs ts).regs = d.regs := by rw [Dev.event_mail]; rfl
@[simp] theorem Dev.event_holdR : (d.event m t s fs ts).holdR = d.holdR := by rw [Dev.event_mail]; rfl
@[simp] theorem Dev.event_holdW : (d.event m t s fs ts).holdW = d.holdW := by rw [Dev.event_mail]; rfl
@[simp] theorem Dev.event_mem : (d.event m t s fs ts).mem = d.mem := by rw [Dev.event_mail]; rfl
@[simp] theorem Dev.event_wr : (d.event m t s fs ts).wr = d.wr := by rw [Dev.event_mail]; rfl
@[simp] theorem Dev.event_log : (d.event m t s fs ts).log = d.log := by rw [Dev.event_mail]; rfl
@[simp] theorem Dev.event_freeCtr : (d.event m t s fs ts).freeCtr = d.freeCtr := by rw [Dev.event_mail]; rfl
@[simp] theorem Dev.event_tl : (d.event m t s fs ts).tl = d.tl := by rw [Dev.event_mail]; rfl
@[simp] theorem Dev.event_ms : (d.event m t s fs ts).ms = d.ms := by rw [Dev.event_mail]; rfl
@[simp] theorem Dev.event_tmap : (d.event m t s fs ts).tmap = d.tmap := by rw [Dev.event_mail]; rfl
@[simp] theorem Dev.event_spares : (d.event m t s fs ts).spares = d.spares := by rw [Dev.event_mail]; rfl
@[simp] theorem Dev.event_tmapGen : (d.event m t s fs ts).tmapGen = d.tmapGen := by rw [Dev.event_mail]; rfl
@[simp] theorem Dev.event_devnum : (d.event m t s fs ts).devnum = d.devnum := by rw [Dev.event_mail]; rfl
@[simp] theorem Dev.event_engs : (d.event m t s fs ts).engs = d.engs := by rw [Dev.event_mail]; rfl
@[simp] theorem Dev.event_ptiles : (d.event m t s fs ts).ptiles = d.ptiles := by rw [Dev.event_mail]; rfl
@[simp] theorem Dev.event_res : (d.event m t s fs ts).res = d.res := by rw [Dev.event_mail]; rfl
@[simp] theorem Dev.event_nextPlace : (d.event m t s fs ts).nextPlace = d.nextPlace := by rw [Dev.event_mail]; rfl
@[simp] theorem Dev.event_str : (d.event m t s fs ts).str = d.str := by rw [Dev.event_mail]; rfl
@[simp] theorem Dev.event_peers : (d.event m t s fs ts).peers = d.peers := by rw [Dev.event_mail]; rfl
@[simp] theorem Dev.event_tgs : (d.event m t s fs ts).tgs = d.tgs := by rw [Dev.event_mail]; rfl
@[simp] theorem Dev.event_pinned : (d.event m t s fs ts).pinned = d.pinned := by rw [Dev.event_mail]; rfl
@[simp] theorem Dev.event_scrubLift : (d.event m t s fs ts).scrubLift = d.scrubLift := by rw [Dev.event_mail]; rfl
@[simp] theorem Dev.event_stks : (d.event m t s fs ts).stks = d.stks := by rw [Dev.event_mail]; rfl
@[simp] theorem Dev.event_rgs : (d.event m t s fs ts).rgs = d.rgs := by rw [Dev.event_mail]; rfl
@[simp] theorem Dev.event_th : (d.event m t s fs ts).th = d.th := by rw [Dev.event_mail]; rfl
@[simp] theorem Dev.event_ports : (d.event m t s fs ts).ports = d.ports := by rw [Dev.event_mail]; rfl
@[simp] theorem Dev.event_cp : (d.event m t s fs ts).cp = d.cp := by rw [Dev.event_mail]; rfl

end

section
variable (d : Dev) (t s : Nat) (fs : List (Nat × Nat)) (ts : Nat)

@[simp] theorem Dev.publish_time : (d.publish t s fs ts).time = d.time := by rw [Dev.publish_mail]; rfl
@[simp] theorem Dev.publish_aon : (d.publish t s fs ts).aon = d.aon := by rw [Dev.publish_mail]; rfl
@[simp] theorem Dev.publish_regs : (d.publish t s fs ts).regs = d.regs := by rw [Dev.publish_mail]; rfl
@[simp] theorem Dev.publish_holdR : (d.publish t s fs ts).holdR = d.holdR := by rw [Dev.publish_mail]; rfl
@[simp] theorem Dev.publish_holdW : (d.publish t s fs ts).holdW = d.holdW := by rw [Dev.publish_mail]; rfl
@[simp] theorem Dev.publish_mem : (d.publish t s fs ts).mem = d.mem := by rw [Dev.publish_mail]; rfl
@[simp] theorem Dev.publish_wr : (d.publish t s fs ts).wr = d.wr := by rw [Dev.publish_mail]; rfl
@[simp] theorem Dev.publish_log : (d.publish t s fs ts).log = d.log := by rw [Dev.publish_mail]; rfl
@[simp] theorem Dev.publish_freeCtr : (d.publish t s fs ts).freeCtr = d.freeCtr := by rw [Dev.publish_mail]; rfl
@[simp] theorem Dev.publish_tl : (d.publish t s fs ts).tl = d.tl := by rw [Dev.publish_mail]; rfl
@[simp] theorem Dev.publish_ms : (d.publish t s fs ts).ms = d.ms := by rw [Dev.publish_mail]; rfl
@[simp] theorem Dev.publish_tmap : (d.publish t s fs ts).tmap = d.tmap := by rw [Dev.publish_mail]; rfl
@[simp] theorem Dev.publish_spares : (d.publish t s fs ts).spares = d.spares := by rw [Dev.publish_mail]; rfl
@[simp] theorem Dev.publish_tmapGen : (d.publish t s fs ts).tmapGen = d.tmapGen := by rw [Dev.publish_mail]; rfl
@[simp] theorem Dev.publish_devnum : (d.publish t s fs ts).devnum = d.devnum := by rw [Dev.publish_mail]; rfl
@[simp] theorem Dev.publish_engs : (d.publish t s fs ts).engs = d.engs := by rw [Dev.publish_mail]; rfl
@[simp] theorem Dev.publish_ptiles : (d.publish t s fs ts).ptiles = d.ptiles := by rw [Dev.publish_mail]; rfl
@[simp] theorem Dev.publish_res : (d.publish t s fs ts).res = d.res := by rw [Dev.publish_mail]; rfl
@[simp] theorem Dev.publish_nextPlace : (d.publish t s fs ts).nextPlace = d.nextPlace := by rw [Dev.publish_mail]; rfl
@[simp] theorem Dev.publish_str : (d.publish t s fs ts).str = d.str := by rw [Dev.publish_mail]; rfl
@[simp] theorem Dev.publish_peers : (d.publish t s fs ts).peers = d.peers := by rw [Dev.publish_mail]; rfl
@[simp] theorem Dev.publish_tgs : (d.publish t s fs ts).tgs = d.tgs := by rw [Dev.publish_mail]; rfl
@[simp] theorem Dev.publish_pinned : (d.publish t s fs ts).pinned = d.pinned := by rw [Dev.publish_mail]; rfl
@[simp] theorem Dev.publish_scrubLift : (d.publish t s fs ts).scrubLift = d.scrubLift := by rw [Dev.publish_mail]; rfl
@[simp] theorem Dev.publish_stks : (d.publish t s fs ts).stks = d.stks := by rw [Dev.publish_mail]; rfl
@[simp] theorem Dev.publish_rgs : (d.publish t s fs ts).rgs = d.rgs := by rw [Dev.publish_mail]; rfl
@[simp] theorem Dev.publish_th : (d.publish t s fs ts).th = d.th := by rw [Dev.publish_mail]; rfl
@[simp] theorem Dev.publish_ports : (d.publish t s fs ts).ports = d.ports := by rw [Dev.publish_mail]; rfl
@[simp] theorem Dev.publish_cp : (d.publish t s fs ts).cp = d.cp := by rw [Dev.publish_mail]; rfl

end

section
variable (d : Dev) (k t s : Nat) (fs : List (Nat × Nat)) (ts : Nat)

@[simp] theorem Dev.eventMask_time : (d.eventMask k t s fs ts).time = d.time := by rw [Dev.eventMask_mail]; rfl
@[simp] theorem Dev.eventMask_aon : (d.eventMask k t s fs ts).aon = d.aon := by rw [Dev.eventMask_mail]; rfl
@[simp] theorem Dev.eventMask_regs : (d.eventMask k t s fs ts).regs = d.regs := by rw [Dev.eventMask_mail]; rfl
@[simp] theorem Dev.eventMask_holdR : (d.eventMask k t s fs ts).holdR = d.holdR := by rw [Dev.eventMask_mail]; rfl
@[simp] theorem Dev.eventMask_holdW : (d.eventMask k t s fs ts).holdW = d.holdW := by rw [Dev.eventMask_mail]; rfl
@[simp] theorem Dev.eventMask_mem : (d.eventMask k t s fs ts).mem = d.mem := by rw [Dev.eventMask_mail]; rfl
@[simp] theorem Dev.eventMask_wr : (d.eventMask k t s fs ts).wr = d.wr := by rw [Dev.eventMask_mail]; rfl
@[simp] theorem Dev.eventMask_log : (d.eventMask k t s fs ts).log = d.log := by rw [Dev.eventMask_mail]; rfl
@[simp] theorem Dev.eventMask_freeCtr : (d.eventMask k t s fs ts).freeCtr = d.freeCtr := by rw [Dev.eventMask_mail]; rfl
@[simp] theorem Dev.eventMask_tl : (d.eventMask k t s fs ts).tl = d.tl := by rw [Dev.eventMask_mail]; rfl
@[simp] theorem Dev.eventMask_ms : (d.eventMask k t s fs ts).ms = d.ms := by rw [Dev.eventMask_mail]; rfl
@[simp] theorem Dev.eventMask_tmap : (d.eventMask k t s fs ts).tmap = d.tmap := by rw [Dev.eventMask_mail]; rfl
@[simp] theorem Dev.eventMask_spares : (d.eventMask k t s fs ts).spares = d.spares := by rw [Dev.eventMask_mail]; rfl
@[simp] theorem Dev.eventMask_tmapGen : (d.eventMask k t s fs ts).tmapGen = d.tmapGen := by rw [Dev.eventMask_mail]; rfl
@[simp] theorem Dev.eventMask_devnum : (d.eventMask k t s fs ts).devnum = d.devnum := by rw [Dev.eventMask_mail]; rfl
@[simp] theorem Dev.eventMask_engs : (d.eventMask k t s fs ts).engs = d.engs := by rw [Dev.eventMask_mail]; rfl
@[simp] theorem Dev.eventMask_ptiles : (d.eventMask k t s fs ts).ptiles = d.ptiles := by rw [Dev.eventMask_mail]; rfl
@[simp] theorem Dev.eventMask_res : (d.eventMask k t s fs ts).res = d.res := by rw [Dev.eventMask_mail]; rfl
@[simp] theorem Dev.eventMask_nextPlace : (d.eventMask k t s fs ts).nextPlace = d.nextPlace := by rw [Dev.eventMask_mail]; rfl
@[simp] theorem Dev.eventMask_str : (d.eventMask k t s fs ts).str = d.str := by rw [Dev.eventMask_mail]; rfl
@[simp] theorem Dev.eventMask_peers : (d.eventMask k t s fs ts).peers = d.peers := by rw [Dev.eventMask_mail]; rfl
@[simp] theorem Dev.eventMask_tgs : (d.eventMask k t s fs ts).tgs = d.tgs := by rw [Dev.eventMask_mail]; rfl
@[simp] theorem Dev.eventMask_pinned : (d.eventMask k t s fs ts).pinned = d.pinned := by rw [Dev.eventMask_mail]; rfl
@[simp] theorem Dev.eventMask_scrubLift : (d.eventMask k t s fs ts).scrubLift = d.scrubLift := by rw [Dev.eventMask_mail]; rfl
@[simp] theorem Dev.eventMask_stks : (d.eventMask k t s fs ts).stks = d.stks := by rw [Dev.eventMask_mail]; rfl
@[simp] theorem Dev.eventMask_rgs : (d.eventMask k t s fs ts).rgs = d.rgs := by rw [Dev.eventMask_mail]; rfl
@[simp] theorem Dev.eventMask_th : (d.eventMask k t s fs ts).th = d.th := by rw [Dev.eventMask_mail]; rfl
@[simp] theorem Dev.eventMask_ports : (d.eventMask k t s fs ts).ports = d.ports := by rw [Dev.eventMask_mail]; rfl
@[simp] theorem Dev.eventMask_cp : (d.eventMask k t s fs ts).cp = d.cp := by rw [Dev.eventMask_mail]; rfl

end

section
variable (d : Dev) (s c : Nat) (fs : List (Nat × Nat)) (ts : Nat)

@[simp] theorem Dev.logAt_time : (d.logAt s c fs ts).time = d.time := by rw [Dev.logAt_frame]
@[simp] theorem Dev.logAt_aon : (d.logAt s c fs ts).aon = d.aon := by rw [Dev.logAt_frame]
@[simp] theorem Dev.logAt_regs : (d.logAt s c fs ts).regs = d.regs := by rw [Dev.logAt_frame]
@[simp] theorem Dev.logAt_holdR : (d.logAt s c fs ts).holdR = d.holdR := by rw [Dev.logAt_frame]
@[simp] theorem Dev.logAt_holdW : (d.logAt s c fs ts).holdW = d.holdW := by rw [Dev.logAt_frame]
@[simp] theorem Dev.logAt_mem : (d.logAt s c fs ts).mem = d.mem := by rw [Dev.logAt_frame]
@[simp] theorem Dev.logAt_wr : (d.logAt s c fs ts).wr = d.wr := by rw [Dev.logAt_frame]
@[simp] theorem Dev.logAt_freeCtr : (d.logAt s c fs ts).freeCtr = d.freeCtr := by rw [Dev.logAt_frame]
@[simp] theorem Dev.logAt_tl : (d.logAt s c fs ts).tl = d.tl := by rw [Dev.logAt_frame]
@[simp] theorem Dev.logAt_ms : (d.logAt s c fs ts).ms = d.ms := by rw [Dev.logAt_frame]
@[simp] theorem Dev.logAt_tmap : (d.logAt s c fs ts).tmap = d.tmap := by rw [Dev.logAt_frame]
@[simp] theorem Dev.logAt_spares : (d.logAt s c fs ts).spares = d.spares := by rw [Dev.logAt_frame]
@[simp] theorem Dev.logAt_tmapGen : (d.logAt s c fs ts).tmapGen = d.tmapGen := by rw [Dev.logAt_frame]
@[simp] theorem Dev.logAt_devnum : (d.logAt s c fs ts).devnum = d.devnum := by rw [Dev.logAt_frame]
@[simp] theorem Dev.logAt_engs : (d.logAt s c fs ts).engs = d.engs := by rw [Dev.logAt_frame]
@[simp] theorem Dev.logAt_ptiles : (d.logAt s c fs ts).ptiles = d.ptiles := by rw [Dev.logAt_frame]
@[simp] theorem Dev.logAt_res : (d.logAt s c fs ts).res = d.res := by rw [Dev.logAt_frame]
@[simp] theorem Dev.logAt_nextPlace : (d.logAt s c fs ts).nextPlace = d.nextPlace := by rw [Dev.logAt_frame]
@[simp] theorem Dev.logAt_str : (d.logAt s c fs ts).str = d.str := by rw [Dev.logAt_frame]
@[simp] theorem Dev.logAt_peers : (d.logAt s c fs ts).peers = d.peers := by rw [Dev.logAt_frame]
@[simp] theorem Dev.logAt_tgs : (d.logAt s c fs ts).tgs = d.tgs := by rw [Dev.logAt_frame]
@[simp] theorem Dev.logAt_pinned : (d.logAt s c fs ts).pinned = d.pinned := by rw [Dev.logAt_frame]
@[simp] theorem Dev.logAt_scrubLift : (d.logAt s c fs ts).scrubLift = d.scrubLift := by rw [Dev.logAt_frame]
@[simp] theorem Dev.logAt_stks : (d.logAt s c fs ts).stks = d.stks := by rw [Dev.logAt_frame]
@[simp] theorem Dev.logAt_rgs : (d.logAt s c fs ts).rgs = d.rgs := by rw [Dev.logAt_frame]
@[simp] theorem Dev.logAt_th : (d.logAt s c fs ts).th = d.th := by rw [Dev.logAt_frame]
@[simp] theorem Dev.logAt_ports : (d.logAt s c fs ts).ports = d.ports := by rw [Dev.logAt_frame]
@[simp] theorem Dev.logAt_cp : (d.logAt s c fs ts).cp = d.cp := by rw [Dev.logAt_frame]

end

section
variable (d : Dev) (s c : Nat) (fs : List (Nat × Nat))

@[simp] theorem Dev.logNow_time : (d.logNow s c fs).time = d.time := by rw [Dev.logNow_frame]
@[simp] theorem Dev.logNow_aon : (d.logNow s c fs).aon = d.aon := by rw [Dev.logNow_frame]
@[simp] theorem Dev.logNow_regs : (d.logNow s c fs).regs = d.regs := by rw [Dev.logNow_frame]
@[simp] theorem Dev.logNow_holdR : (d.logNow s c fs).holdR = d.holdR := by rw [Dev.logNow_frame]
@[simp] theorem Dev.logNow_holdW : (d.logNow s c fs).holdW = d.holdW := by rw [Dev.logNow_frame]
@[simp] theorem Dev.logNow_mem : (d.logNow s c fs).mem = d.mem := by rw [Dev.logNow_frame]
@[simp] theorem Dev.logNow_wr : (d.logNow s c fs).wr = d.wr := by rw [Dev.logNow_frame]
@[simp] theorem Dev.logNow_freeCtr : (d.logNow s c fs).freeCtr = d.freeCtr := by rw [Dev.logNow_frame]
@[simp] theorem Dev.logNow_tl : (d.logNow s c fs).tl = d.tl := by rw [Dev.logNow_frame]
@[simp] theorem Dev.logNow_ms : (d.logNow s c fs).ms = d.ms := by rw [Dev.logNow_frame]
@[simp] theorem Dev.logNow_tmap : (d.logNow s c fs).tmap = d.tmap := by rw [Dev.logNow_frame]
@[simp] theorem Dev.logNow_spares : (d.logNow s c fs).spares = d.spares := by rw [Dev.logNow_frame]
@[simp] theorem Dev.logNow_tmapGen : (d.logNow s c fs).tmapGen = d.tmapGen := by rw [Dev.logNow_frame]
@[simp] theorem Dev.logNow_devnum : (d.logNow s c fs).devnum = d.devnum := by rw [Dev.logNow_frame]
@[simp] theorem Dev.logNow_engs : (d.logNow s c fs).engs = d.engs := by rw [Dev.logNow_frame]
@[simp] theorem Dev.logNow_ptiles : (d.logNow s c fs).ptiles = d.ptiles := by rw [Dev.logNow_frame]
@[simp] theorem Dev.logNow_res : (d.logNow s c fs).res = d.res := by rw [Dev.logNow_frame]
@[simp] theorem Dev.logNow_nextPlace : (d.logNow s c fs).nextPlace = d.nextPlace := by rw [Dev.logNow_frame]
@[simp] theorem Dev.logNow_str : (d.logNow s c fs).str = d.str := by rw [Dev.logNow_frame]
@[simp] theorem Dev.logNow_peers : (d.logNow s c fs).peers = d.peers := by rw [Dev.logNow_frame]
@[simp] theorem Dev.logNow_tgs : (d.logNow s c fs).tgs = d.tgs := by rw [Dev.logNow_frame]
@[simp] theorem Dev.logNow_pinned : (d.logNow s c fs).pinned = d.pinned := by rw [Dev.logNow_frame]
@[simp] theorem Dev.logNow_scrubLift : (d.logNow s c fs).scrubLift = d.scrubLift := by rw [Dev.logNow_frame]
@[simp] theorem Dev.logNow_stks : (d.logNow s c fs).stks = d.stks := by rw [Dev.logNow_frame]
@[simp] theorem Dev.logNow_rgs : (d.logNow s c fs).rgs = d.rgs := by rw [Dev.logNow_frame]
@[simp] theorem Dev.logNow_th : (d.logNow s c fs).th = d.th := by rw [Dev.logNow_frame]
@[simp] theorem Dev.logNow_ports : (d.logNow s c fs).ports = d.ports := by rw [Dev.logNow_frame]
@[simp] theorem Dev.logNow_cp : (d.logNow s c fs).cp = d.cp := by rw [Dev.logNow_frame]

end

end Sys2Proof.Machine
end

