-- ==== Sys2Proof/Laws/Run.lean ====
section
/-!
SUPPORT. What every command has in common: it is one effect within the frame of `run`, so it answers a next state, leaves
the rest of the queue alone, and changes memory only through the changes it collects.
-/
namespace Sys2Proof.Machine

/-- Every arm of `exec` is one effect within `run`. -/
theorem exec_run (i : Instr) (s : State) : ∃ f : Dev → Dev, exec i s = run i s f := by
  cases i <;> exact ⟨_, rfl⟩

theorem run_ok {i : Instr} (h : i.wellFormed = true) (s : State) (f : Dev → Dev) : run i s f = .next (s.after f) := by
  simp [run, h]

theorem run_ill {i : Instr} (h : i.wellFormed = false) (s : State) (f : Dev → Dev) :
    run i s f = .next (s.after id) := by
  simp [run, h]

@[simp] theorem State.after_pending (s : State) (f : Dev → Dev) : (s.after f).pending = s.pending := rfl
theorem State.after_dev (s : State) (f : Dev → Dev) : (s.after f).dev = s.dev.finish (f s.dev) := rfl

theorem powered_on {f : Dev → Dev} {d : Dev} (h : d.cp.powered = true) : powered f d = f d := by simp [powered, h]
theorem powered_off {f : Dev → Dev} {d : Dev} (h : d.cp.powered = false) : powered f d = d := by simp [powered, h]

/-- Every command answers a next state, the end of its effect. -/
theorem exec_next {i : Instr} {s t : State} (h : exec i s = .next t) : ∃ f : Dev → Dev, t = s.after f := by
  obtain ⟨f, hf⟩ := exec_run i s
  rw [hf, run] at h
  cases h
  exact ⟨_, rfl⟩

/-- A step that goes on is the end of some effect. -/
theorem step_next {s t : State} (h : step s = .next t) : ∃ d : Dev, t.dev = s.dev.finish d := by
  unfold step at h
  split at h
  · cases h; exact ⟨_, rfl⟩
  · obtain ⟨f, rfl⟩ := exec_next h; exact ⟨_, rfl⟩

/-- A well-formed command completes with its effect. -/
theorem completes_of {i : Instr} {s : State} {f : Dev → Dev} {P : Dev → Prop} (h : exec i s = run i s f)
    (hw : i.wellFormed = true) (hP : P (f s.dev)) : Completes i s P :=
  ⟨f s.dev, by rw [h, run_ok hw]; rfl, hP⟩

/-- A well-formed command of the powered domains completes with its effect while they have power. -/
theorem completes_on {i : Instr} {s : State} {f : Dev → Dev} {P : Dev → Prop} (h : exec i s = run i s (powered f))
    (hw : i.wellFormed = true) (hon : s.on) (hP : P (f s.dev)) : Completes i s P :=
  completes_of h hw (by rw [powered_on hon]; exact hP)

end Sys2Proof.Machine
end

