-- ==== Sys2Proof/Laws/Commands.lean ====
section
/-!
SUPPORT. Roadbook commands: the checks that let a command through, and what an answer leaves.
-/
namespace Sys2Proof.Machine

/-- A command that passes every check goes on. -/
theorem Dev.checked_ok (d : Dev) (c : Cmd) (l : List (Bool × Nat × Nat)) (k : Dev → Dev) (h : ∀ x ∈ l, x.1 = false) :
    d.checked c l k = k d := by
  induction l with
  | nil => rfl
  | cons x l ih =>
    obtain ⟨b, st, det⟩ := x
    have hb : b = false := h (b, st, det) (by simp)
    simp only [Dev.checked, hb, Bool.false_eq_true, if_false]
    exact ih (fun x hx => h x (by simp [hx]))

/-- A command row acts on the command the CP holds, where that is the one it names. -/
theorem Dev.command_held {d : Dev} {c : Cmd} (h : d.cp.cur = some c) (f : Dev → Cmd → Dev) :
    d.command c.v1 c.opcode f = f d c := by
  simp [Dev.command, h]

theorem Dev.setInt_mb_ne (d : Dev) {m k : Nat} (b e : Nat) (h : m ≠ k) : (d.setInt m b e).mb k = d.mb k := by
  have h' : (d.setMb m { d.mb m with intStat := (d.mb m).intStat ||| BitVec.ofNat 5 (2 ^ b) }).mb k = d.mb k :=
    Dev.mb_setMb_ne _ _ h
  unfold Dev.setInt; dsimp only; split
  · split
    · rw [Dev.mb_emit]; exact h'
    · exact h'
  · exact h'

theorem Dev.setInt_mb_same (d : Dev) (m b e : Nat) :
    (d.setInt m b e).mb m = { d.mb m with intStat := (d.mb m).intStat ||| BitVec.ofNat 5 (2 ^ b) } := by
  unfold Dev.setInt; dsimp only; split
  · split <;> simp
  · simp

theorem Dev.mbxFrame_mb (d : Dev) (p : Nat) (msg : List Byte) (k : Nat) : (d.mbxFrame p msg).mb k = d.mb k := rfl

theorem Dev.mbxSend_mb (d : Dev) (n : Nat) (msg : List Byte) (k : Nat) : (d.mbxSend n msg).mb k = d.mb k := by
  unfold Dev.mbxSend; split <;> rfl

/-- A response written to a mailbox: the mailbox's new contents, the others, and everything else. -/
theorem Dev.respond_facts (d : Dev) (m : Nat) (v1 : Bool) (op st seq ts : Nat) (payload : List Byte) :
    ((d.respond m v1 op st seq ts payload).mb m = { d.mb m with
        rsp := respHeader v1 op st seq ts payload.length ++ payload ++
          (d.mb m).rsp.drop (respHeader v1 op st seq ts payload.length ++ payload).length
        state := .done, lastStatus := st, lastSeq := seq, rung := false, intStat := (d.mb m).intStat ||| 1#5 }) ∧
    (∀ k, k ≠ m → (d.respond m v1 op st seq ts payload).mb k = d.mb k) ∧
    d.respond m v1 op st seq ts payload = { d with
      mbx := (d.respond m v1 op st seq ts payload).mbx, out := (d.respond m v1 op st seq ts payload).out
      peers := { d.peers with
        nextTag := (d.respond m v1 op st seq ts payload).peers.nextTag
        mbxOut := (d.respond m v1 op st seq ts payload).peers.mbxOut } } := by
  generalize hb : ({ d.mb m with
    rsp := respHeader v1 op st seq ts payload.length ++ payload ++
      (d.mb m).rsp.drop (respHeader v1 op st seq ts payload.length ++ payload).length
    state := .done, lastSeq := seq, lastStatus := st, rung := false } : Mailbox) = b
  have hs : ((d.setMb m b).setInt m 0).mb m = { b with intStat := b.intStat ||| 1#5 } := by
    rw [Dev.setInt_mb_same]; simp
  have hn : ∀ k, k ≠ m → ((d.setMb m b).setInt m 0).mb k = d.mb k := fun k hk => by
    rw [Dev.setInt_mb_ne _ _ _ hk.symm, Dev.mb_setMb_ne _ _ hk.symm]
  have hm : (d.setMb m b).setInt m 0 = d.withMail ((d.setMb m b).setInt m 0) := by
    rw [Dev.setInt_mail, Dev.setMb_mail]; rfl
  have hr : d.respond m v1 op st seq ts payload =
      (if m = 6 then match ((d.setMb m b).setInt m 0).peers.mbxDev with
        | some p => ((d.setMb m b).setInt m 0).mbxSend p (respHeader v1 op st seq ts payload.length ++ payload)
        | none => (d.setMb m b).setInt m 0
      else (d.setMb m b).setInt m 0) := by rw [← hb]; rfl
  rw [hr]
  generalize (d.setMb m b).setInt m 0 = e at *
  have hb' : ({ b with intStat := b.intStat ||| 1#5 } : Mailbox) = { d.mb m with
        rsp := respHeader v1 op st seq ts payload.length ++ payload ++
          (d.mb m).rsp.drop (respHeader v1 op st seq ts payload.length ++ payload).length
        state := .done, lastStatus := st, lastSeq := seq, rung := false, intStat := (d.mb m).intStat ||| 1#5 } := by rw [← hb]
  split
  · split
    · rename_i p _
      refine ⟨by rw [Dev.mbxSend_mb, hs, hb'], fun k hk => by rw [Dev.mbxSend_mb, hn k hk], ?_⟩
      rw [hm]; unfold Dev.mbxSend; split <;> rfl
    · exact ⟨by rw [hs, hb'], hn, by rw [hm]; rfl⟩
  · exact ⟨by rw [hs, hb'], hn, by rw [hm]; rfl⟩

/-- A command row completes with what its meaning does to the command the CP holds. -/
theorem completes_held {i : Instr} {s : State} {c : Cmd} {op : Nat} {v1 : Bool} {f : Dev → Cmd → Dev} {P : Dev → Prop}
    (h : exec i s = run i s (powered (fun d => d.command v1 op f))) (hw : i.wellFormed = true) (hc : s.holds c op v1)
    (hP : P (f s.dev c)) : Completes i s P := by
  obtain ⟨hon, hcur, rfl, rfl⟩ := hc
  exact completes_on h hw hon (by rw [Dev.command_held hcur]; exact hP)

/-- What an answer leaves: the response in the mailbox, and everything else as the effect left it. -/
theorem Dev.answer_answersWith (d : Dev) (c : Cmd) (st : Nat) (payload : List Byte) (det : Nat) :
    Dev.answersWith d (d.answer c st payload det) c st (respPayload st payload det) := by
  have f := Dev.respond_facts { d with cp := { d.cp with cur := none } } c.mbx c.v1 c.opcode st c.seq c.hostts
    (respPayload st payload det)
  exact ⟨⟨_, f.1⟩, f.2.1, f.2.2⟩

/-- OK with `payload`. -/
theorem Dev.ok_answersWith (d : Dev) (c : Cmd) (payload : List Byte) : Dev.answersWith d (d.ok c payload) c 0 payload :=
  Dev.answer_answersWith d c 0 payload 0

/-- What `startJob` leaves. -/
theorem Dev.startJob_begins (d : Dev) (c : Cmd) : Dev.beginsJob d (d.startJob c) c := by
  constructor <;> intro h <;> unfold Dev.startJob
  · rw [if_pos h]
    have ⟨h1, h2, h3⟩ := Dev.answer_answersWith { d with cp := { d.cp.withJob c with cur := none } } c 1 [] 0
    exact ⟨h1, h2, h3⟩
  · rw [if_neg (by simp [h])]; rfl

end Sys2Proof.Machine
end

