-- ==== Sys2Proof/Laws/Hub.lean ====
section
/-!
SUPPORT. What an access through the hub cache can change, said once: the Tollgates' requests and the cache's lines, never a
byte of memory; and what a refill of the prefetch buffer can change.
-/
namespace Sys2Proof.Machine

theorem Dev.hubAccess_frame (d : Dev) (who a n : Nat) (write : Bool) (skip : Nat) :
    d.hubAccess who a n write skip = { d with
      tgs := (d.hubAccess who a n write skip).tgs
      str := { d.str with cache := (d.hubAccess who a n write skip).str.cache } } := rfl

theorem Dev.hubAccess_eq (d : Dev) (who a n : Nat) (write : Bool) (skip : Nat) :
    ∃ t c, d.hubAccess who a n write skip = { d with tgs := t, str := { d.str with cache := c } } := ⟨_, _, rfl⟩

@[simp] theorem Dev.hubAccess_rd (d : Dev) (who a n : Nat) (write : Bool) (skip c : Nat) :
    (d.hubAccess who a n write skip).rd c = d.rd c := rfl
@[simp] theorem Dev.hubAccess_rdBytes (d : Dev) (who a n : Nat) (write : Bool) (skip c k : Nat) :
    (d.hubAccess who a n write skip).rdBytes c k = d.rdBytes c k := rfl
@[simp] theorem Dev.hubAccess_poisoned (d : Dev) (who a n : Nat) (write : Bool) (skip c k : Nat) :
    (d.hubAccess who a n write skip).poisoned c k = d.poisoned c k := rfl
@[simp] theorem Dev.hubAccess_regs (d : Dev) (who a n : Nat) (write : Bool) (skip : Nat) :
    (d.hubAccess who a n write skip).regs = d.regs := rfl
@[simp] theorem Dev.hubAccess_engs (d : Dev) (who a n : Nat) (write : Bool) (skip : Nat) :
    (d.hubAccess who a n write skip).engs = d.engs := rfl
@[simp] theorem Dev.hubAccess_log (d : Dev) (who a n : Nat) (write : Bool) (skip : Nat) :
    (d.hubAccess who a n write skip).log = d.log := rfl
@[simp] theorem Dev.hubAccess_mbx (d : Dev) (who a n : Nat) (write : Bool) (skip : Nat) :
    (d.hubAccess who a n write skip).mbx = d.mbx := rfl

/-- A read of DRAM through the hub cache gives memory's bytes. -/
theorem Dev.hubRead_dram (d : Dev) (who : Nat) {a n : Nat} (h : a + n ≤ 0x6000000000) :
    d.hubRead who a n = (d.rdBytes a n, d.hubAccess who a n false) := by
  simp [Dev.hubRead, Dev.devRead_dram _ _ h]

/-- A write of DRAM through the hub cache stores every byte. -/
theorem Dev.hubWrite_dram (d : Dev) (who : Nat) {a : Nat} {bs : List Byte} (h : a + bs.length ≤ 0x6000000000) :
    d.hubWrite who a bs = ((d.hubAccess who a bs.length true).wrBytes a bs).unpoison a bs.length := by
  simp [Dev.hubWrite, Dev.devWrite_dram _ _ h]

/-- The bytes of DRAM after such a write. -/
theorem Dev.rd_hubWrite_dram (d : Dev) (who c : Nat) {a : Nat} {bs : List Byte} (h : a + bs.length ≤ 0x6000000000) :
    (d.hubWrite who a bs).rd c = if a ≤ c ∧ c < a + bs.length then bs.getD (c - a) 0#8 else d.rd c := by
  rw [Dev.hubWrite_dram d who h, ← Dev.hubAccess_rd d who a bs.length true 0 c, ← Dev.rd_wrBytes]; rfl

/-- A refill of the prefetch buffer changes the Tollgates' requests, the cache's lines and the engine. -/
theorem Dev.refill_frame (d : Dev) (e : Nat) :
    d.refill e = { d with
      tgs := (d.refill e).tgs, engs := (d.refill e).engs, str := { d.str with cache := (d.refill e).str.cache } } := by
  by_cases h : ((d.eng e).fetched != []) = true
  · simp only [Dev.refill, h, if_true]
  · simp only [Dev.refill, h, if_false, Bool.false_eq_true]
    obtain ⟨t, c, hx⟩ := Dev.hubAccess_eq d (0x120 + e) (d.eng e).pc
      (32 * ((upTo 64).filter (fun i => usableRange ((d.eng e).pc + 32 * i) 32)).length) false 0
    rw [hx]; rfl

end Sys2Proof.Machine
end

