-- ==== Sys2Proof/Laws/Finish.lean ====
section
/-!
SUPPORT. What the end of a command leaves alone: reports (log entries, events, interrupts, frames) and FENCEs that end
touch engines, registers, the log, mailboxes, outputs, pins, what waits at Tollgates and the hub cache's lines, and nothing else.
-/
namespace Sys2Proof.Machine

/-- The device without what reports and the end of a command may change. -/
def Dev.fixed (d : Dev) : Dev :=
  { d with
    engs := [], regs := [], wr := [], log := {}, mbx := [], out := [], peers := {}, tgs := []
    ports := { d.ports with tlps := [] }, str := { d.str with wdogFrom := none, cache := [] }, cp := { d.cp with alert := false, therm := false, ppsOut := false } }

/-! ### Reports -/

/-- A fold whose every step keeps the fixed part keeps it. -/
theorem Dev.fixed_foldl {α : Type} (l : List α) (f : Dev → α → Dev) (h : ∀ d a, (f d a).fixed = d.fixed) (d : Dev) :
    (l.foldl f d).fixed = d.fixed := by
  induction l generalizing d with
  | nil => rfl
  | cons a l ih => rw [List.foldl_cons, ih, h]

@[simp] theorem Dev.setMb_fixed (d : Dev) (m : Nat) (b : Mailbox) : (d.setMb m b).fixed = d.fixed := rfl
@[simp] theorem Dev.emit_fixed (d : Dev) (o : Output) : (d.emit o).fixed = d.fixed := rfl
@[simp] theorem Dev.setEng_fixed (d : Dev) (e : Nat) (x : Engine) : (d.setEng e x).fixed = d.fixed := rfl
@[simp] theorem Dev.modEng_fixed (d : Dev) (e : Nat) (f : Engine → Engine) : (d.modEng e f).fixed = d.fixed := rfl
@[simp] theorem Dev.setReg_fixed (d : Dev) (n : RegName) (v i j k : Nat) : (d.setReg n v i j k).fixed = d.fixed := rfl

@[simp] theorem Dev.setInt_fixed (d : Dev) (m b c : Nat) : (d.setInt m b c).fixed = d.fixed := by
  unfold Dev.setInt; dsimp only; split
  · split <;> simp
  · simp

@[simp] theorem Dev.place_fixed (d : Dev) (m : Nat) (es : List Event) : (d.place m es).fixed = d.fixed := by
  unfold Dev.place; dsimp only; split
  · rfl
  · split
    · simp
    · rw [Dev.fixed_foldl _ _ (fun d a => Dev.setInt_fixed d m 1 _)]; rfl

@[simp] theorem Dev.event_fixed (d : Dev) (m t s : Nat) (fs : List (Nat × Nat)) (ts : Nat) :
    (d.event m t s fs ts).fixed = d.fixed := Dev.place_fixed d m _

@[simp] theorem Dev.publish_fixed (d : Dev) (t s : Nat) (fs : List (Nat × Nat)) (ts : Nat) :
    (d.publish t s fs ts).fixed = d.fixed :=
  Dev.fixed_foldl _ _ (fun d m => by split <;> simp) d

@[simp] theorem Dev.eventMask_fixed (d : Dev) (mask t s : Nat) (fs : List (Nat × Nat)) (ts : Nat) :
    (d.eventMask mask t s fs ts).fixed = d.fixed :=
  Dev.fixed_foldl _ _ (fun d m => by split <;> simp) d

@[simp] theorem Dev.logAt_fixed (d : Dev) (s c : Nat) (fs : List (Nat × Nat)) (ts : Nat) :
    (d.logAt s c fs ts).fixed = d.fixed := by
  unfold Dev.logAt; dsimp only; split
  · rw [Dev.publish_fixed]; rfl
  · rfl

@[simp] theorem Dev.logNow_fixed (d : Dev) (s c : Nat) (fs : List (Nat × Nat)) : (d.logNow s c fs).fixed = d.fixed :=
  Dev.logAt_fixed d s c fs d.time

@[simp] theorem Dev.bump_fixed (d : Dev) (n : RegName) (i j b : Nat) : (d.bump n i j b).fixed = d.fixed := by
  unfold Dev.bump; split <;> simp

@[simp] theorem Dev.sendFrame_fixed (d : Dev) (p : Nat) (h : PHdr) (bs : List Byte) : (d.sendFrame p h bs).fixed = d.fixed := rfl
@[simp] theorem Dev.mbxFrame_fixed (d : Dev) (p : Nat) (m : List Byte) : (d.mbxFrame p m).fixed = d.fixed := rfl

@[simp] theorem Dev.mbxSend_fixed (d : Dev) (n : Nat) (m : List Byte) : (d.mbxSend n m).fixed = d.fixed := by
  unfold Dev.mbxSend; split <;> first | exact Dev.mbxFrame_fixed .. | rfl
@[simp] theorem Dev.present_fixed (d : Dev) (n w : Nat) (m : Option (Nat × Bool)) : (d.present n w m).fixed = d.fixed := rfl
@[simp] theorem Dev.hubAccess_fixed (d : Dev) (who a n : Nat) (w : Bool) (k : Nat) :
    (d.hubAccess who a n w k).fixed = d.fixed := by
  obtain ⟨t, c, h⟩ := Dev.hubAccess_eq d who a n w k
  rw [h]; rfl

@[simp] theorem Dev.respond_fixed (d : Dev) (m : Nat) (v : Bool) (o s q h : Nat) (bs : List Byte) :
    (d.respond m v o s q h bs).fixed = d.fixed := by
  unfold Dev.respond; dsimp only; split
  · split <;> simp
  · simp

/-! ### What lets a FENCE end -/

@[simp] theorem Dev.bump_engs (d : Dev) (n : RegName) (i j b : Nat) : (d.bump n i j b).engs = d.engs := by
  unfold Dev.bump; split <;> rfl

@[simp] theorem Dev.bump_eng (d : Dev) (n : RegName) (i j b e : Nat) : (d.bump n i j b).eng e = d.eng e := by
  simp only [Dev.eng, Dev.bump_engs]

@[simp] theorem Dev.eng_setEng (d : Dev) (e : Nat) (x : Engine) : (d.setEng e x).eng e = x := tget_tset_same _ _ _ _

/-- A task word's error touches nothing else but the lock request of a LOCKSEQ that holds decoding. -/
theorem Dev.taskError_fixed (d : Dev) (e c o a : Nat) (h : (d.eng e).hold = .none) :
    (d.taskError e c o a).fixed = d.fixed := by
  unfold Dev.taskError; dsimp only; split
  · rfl
  · split
    · rfl
    · rw [Dev.stopRun, h]; rfl

@[simp] theorem Dev.logReserved_fixed (d : Dev) (w a n : Nat) : (d.logReserved w a n).fixed = d.fixed := by
  unfold Dev.logReserved; split <;> simp

@[simp] theorem Dev.logReserved_engs (d : Dev) (w a n : Nat) : (d.logReserved w a n).engs = d.engs := by
  unfold Dev.logReserved; split
  · rw [Dev.logNow_frame]
  · rfl

theorem Dev.search_hold (d : Dev) (l n : Nat) : ∀ (a : Nat) (x : Engine), (d.search l n a x).2.2.hold = x.hold := by
  induction n with
  | zero => intro a x; rfl
  | succ n ih =>
    intro a x
    unfold Dev.search; dsimp only
    split
    · rfl
    · split
      · rfl
      · split
        · rfl
        · rw [ih]; split
          · unfold Engine.reach; dsimp only; split <;> rfl
          · rfl

theorem Dev.goto_fixed (d : Dev) (e l a o x : Nat) (h : (d.eng e).hold = .none) : (d.goto e l a o x).fixed = d.fixed := by
  have hs := Dev.search_hold d l ((d.eng e).wordsLeft a) a (d.eng e)
  unfold Dev.goto
  generalize d.search l ((d.eng e).wordsLeft a) a (d.eng e) = r at hs
  obtain ⟨r, z, y⟩ := r
  dsimp only at hs ⊢
  split
  · simp
  · rw [Dev.taskError_fixed _ _ _ _ _ (by rw [Dev.eng_setEng]; exact hs.trans h)]; simp
  · rw [Dev.taskError_fixed _ _ _ _ _ (by
      rw [Dev.eng, Dev.logReserved_engs, ← Dev.eng, Dev.eng_setEng]; exact hs.trans h)]; simp

@[simp] theorem Dev.wrBytes_fixed (d : Dev) (a : Nat) (bs : List Byte) : (d.wrBytes a bs).fixed = d.fixed := by
  unfold Dev.wrBytes; split <;> rfl

theorem Dev.nextSection_fixed (d : Dev) (e : Nat) (h : (d.eng e).hold = .none) : (d.nextSection e).fixed = d.fixed := by
  unfold Dev.nextSection; dsimp only; split
  · rfl
  · split <;> rw [Dev.goto_fixed _ _ _ _ _ _ (by rw [Dev.eng_setEng]; exact h)] <;> simp

@[simp] theorem Dev.advance_fixed (d : Dev) (e : Nat) (c : Bool) : (d.advance e c).fixed = d.fixed := by
  unfold Dev.advance; dsimp only; split
  · rfl
  · split <;> split <;> (try split) <;>
      first | simp; done | (rw [Dev.nextSection_fixed _ _ (by simp only [Dev.bump_eng, Dev.eng_setEng])]; simp)

@[simp] theorem Dev.fenceGo_fixed (d : Dev) (e : Nat) : (d.fenceGo e).fixed = d.fixed := by
  unfold Dev.fenceGo; dsimp only; split
  · split <;> simp
  · rfl

/-! ### The end of a command -/

@[simp] theorem Dev.watchPool_fixed (d : Dev) : d.watchPool.fixed = d.fixed := rfl
@[simp] theorem Dev.setPins_fixed (d : Dev) : d.setPins.fixed = d.fixed := rfl

@[simp] theorem Dev.forwardEvents_fixed (d : Dev) : d.forwardEvents.fixed = d.fixed := by
  unfold Dev.forwardEvents; split
  · rfl
  · dsimp only; split
    · exact Dev.fixed_foldl _ _ (fun d a => Dev.mbxSend_fixed d _ _) _
    · rw [Dev.setMb_fixed, Dev.fixed_foldl _ _ (fun d a => Dev.mbxSend_fixed d _ _)]
      exact Dev.fixed_foldl _ _ (fun d a => Dev.mbxSend_fixed d _ _) _

@[simp] theorem Dev.sendTlps_fixed (d : Dev) : d.sendTlps.fixed = d.fixed := by
  unfold Dev.sendTlps; dsimp only; split
  · rfl
  · exact Dev.fixed_foldl _ _ (fun d a => Dev.present_fixed d _ _ _) _

theorem Dev.settle_fixed (d : Dev) : d.settle.fixed = d.fixed := by
  unfold Dev.settle
  rw [Dev.setPins_fixed, Dev.forwardEvents_fixed, Dev.fixed_foldl _ _ (fun d e => Dev.fenceGo_fixed d e), Dev.watchPool_fixed]

theorem Dev.ended_fixed (d : Dev) : d.settle.sendTlps.fixed = d.fixed := by
  rw [Dev.sendTlps_fixed, Dev.settle_fixed]

/-- TLPs taken to Tollgate 52 leave the collected changes of memory alone. -/
@[simp] theorem Dev.sendTlps_wr (d : Dev) : d.sendTlps.wr = d.wr := by
  have h (l : List (Nat × Output)) (x : Dev) : (l.foldl (fun d t => Dev.present d 52 t.1 none) x).wr = x.wr := by
    induction l generalizing x with
    | nil => rfl
    | cons a l ih => rw [List.foldl_cons, ih]; rfl
  unfold Dev.sendTlps; dsimp only; split
  · rfl
  · rw [h]

/-- The memory after a command is the memory it found with the changes it collected. -/
theorem Dev.finish_mem (d0 d : Dev) : (d0.finish d).mem = commitOps d.settle.wr d0.mem := by
  simp only [Dev.finish, Dev.sendTlps_wr]
@[simp] theorem Dev.finish_wr (d0 d : Dev) : (d0.finish d).wr = [] := by simp only [Dev.finish]

/-- The end of a command keeps the canonical form of memory. -/
theorem Dev.finish_wf (d0 d : Dev) (h : Memory.wf d0.mem = true) : Memory.wf (d0.finish d).mem = true := by
  rw [Dev.finish_mem]; exact commitOps_wf _ _ h

@[simp] theorem Dev.finish_time (d0 d : Dev) : (d0.finish d).time = d.time := by
  have h := congrArg (fun x : Dev => x.time) (Dev.ended_fixed d); exact h
@[simp] theorem Dev.finish_aon (d0 d : Dev) : (d0.finish d).aon = d.aon := by
  have h := congrArg (fun x : Dev => x.aon) (Dev.ended_fixed d); exact h
@[simp] theorem Dev.finish_holdR (d0 d : Dev) : (d0.finish d).holdR = d.holdR := by
  have h := congrArg (fun x : Dev => x.holdR) (Dev.ended_fixed d); exact h
@[simp] theorem Dev.finish_holdW (d0 d : Dev) : (d0.finish d).holdW = d.holdW := by
  have h := congrArg (fun x : Dev => x.holdW) (Dev.ended_fixed d); exact h
@[simp] theorem Dev.finish_freeCtr (d0 d : Dev) : (d0.finish d).freeCtr = d.freeCtr := by
  have h := congrArg (fun x : Dev => x.freeCtr) (Dev.ended_fixed d); exact h
@[simp] theorem Dev.finish_tl (d0 d : Dev) : (d0.finish d).tl = d.tl := by
  have h := congrArg (fun x : Dev => x.tl) (Dev.ended_fixed d); exact h
@[simp] theorem Dev.finish_ms (d0 d : Dev) : (d0.finish d).ms = d.ms := by
  have h := congrArg (fun x : Dev => x.ms) (Dev.ended_fixed d); exact h
@[simp] theorem Dev.finish_tmap (d0 d : Dev) : (d0.finish d).tmap = d.tmap := by
  have h := congrArg (fun x : Dev => x.tmap) (Dev.ended_fixed d); exact h
@[simp] theorem Dev.finish_spares (d0 d : Dev) : (d0.finish d).spares = d.spares := by
  have h := congrArg (fun x : Dev => x.spares) (Dev.ended_fixed d); exact h
@[simp] theorem Dev.finish_tmapGen (d0 d : Dev) : (d0.finish d).tmapGen = d.tmapGen := by
  have h := congrArg (fun x : Dev => x.tmapGen) (Dev.ended_fixed d); exact h
@[simp] theorem Dev.finish_devnum (d0 d : Dev) : (d0.finish d).devnum = d.devnum := by
  have h := congrArg (fun x : Dev => x.devnum) (Dev.ended_fixed d); exact h
@[simp] theorem Dev.finish_ptiles (d0 d : Dev) : (d0.finish d).ptiles = d.ptiles := by
  have h := congrArg (fun x : Dev => x.ptiles) (Dev.ended_fixed d); exact h
@[simp] theorem Dev.finish_res (d0 d : Dev) : (d0.finish d).res = d.res := by
  have h := congrArg (fun x : Dev => x.res) (Dev.ended_fixed d); exact h
@[simp] theorem Dev.finish_nextPlace (d0 d : Dev) : (d0.finish d).nextPlace = d.nextPlace := by
  have h := congrArg (fun x : Dev => x.nextPlace) (Dev.ended_fixed d); exact h
@[simp] theorem Dev.finish_pinned (d0 d : Dev) : (d0.finish d).pinned = d.pinned := by
  have h := congrArg (fun x : Dev => x.pinned) (Dev.ended_fixed d); exact h
@[simp] theorem Dev.finish_scrubLift (d0 d : Dev) : (d0.finish d).scrubLift = d.scrubLift := by
  have h := congrArg (fun x : Dev => x.scrubLift) (Dev.ended_fixed d); exact h
@[simp] theorem Dev.finish_stks (d0 d : Dev) : (d0.finish d).stks = d.stks := by
  have h := congrArg (fun x : Dev => x.stks) (Dev.ended_fixed d); exact h
@[simp] theorem Dev.finish_rgs (d0 d : Dev) : (d0.finish d).rgs = d.rgs := by
  have h := congrArg (fun x : Dev => x.rgs) (Dev.ended_fixed d); exact h
@[simp] theorem Dev.finish_th (d0 d : Dev) : (d0.finish d).th = d.th := by
  have h := congrArg (fun x : Dev => x.th) (Dev.ended_fixed d); exact h
@[simp] theorem Dev.finish_ports_fh (d0 d : Dev) : (d0.finish d).ports.fh = d.ports.fh := by
  have h := congrArg (fun x : Dev => x.ports.fh) (Dev.ended_fixed d); exact h
@[simp] theorem Dev.finish_ports_flows (d0 d : Dev) : (d0.finish d).ports.flows = d.ports.flows := by
  have h := congrArg (fun x : Dev => x.ports.flows) (Dev.ended_fixed d); exact h
@[simp] theorem Dev.finish_ports_lastSeq (d0 d : Dev) : (d0.finish d).ports.lastSeq = d.ports.lastSeq := by
  have h := congrArg (fun x : Dev => x.ports.lastSeq) (Dev.ended_fixed d); exact h
@[simp] theorem Dev.finish_ports_exc (d0 d : Dev) : (d0.finish d).ports.exc = d.ports.exc := by
  have h := congrArg (fun x : Dev => x.ports.exc) (Dev.ended_fixed d); exact h
@[simp] theorem Dev.finish_ports_excIdx (d0 d : Dev) : (d0.finish d).ports.excIdx = d.ports.excIdx := by
  have h := congrArg (fun x : Dev => x.ports.excIdx) (Dev.ended_fixed d); exact h
@[simp] theorem Dev.finish_ports_outq (d0 d : Dev) : (d0.finish d).ports.outq = d.ports.outq := by
  have h := congrArg (fun x : Dev => x.ports.outq) (Dev.ended_fixed d); exact h
@[simp] theorem Dev.finish_ports_mods (d0 d : Dev) : (d0.finish d).ports.mods = d.ports.mods := by
  have h := congrArg (fun x : Dev => x.ports.mods) (Dev.ended_fixed d); exact h
@[simp] theorem Dev.finish_ports_host (d0 d : Dev) : (d0.finish d).ports.host = d.ports.host := by
  have h := congrArg (fun x : Dev => x.ports.host) (Dev.ended_fixed d); exact h
@[simp] theorem Dev.finish_ports_vfs (d0 d : Dev) : (d0.finish d).ports.vfs = d.ports.vfs := by
  have h := congrArg (fun x : Dev => x.ports.vfs) (Dev.ended_fixed d); exact h
@[simp] theorem Dev.finish_cp_powered (d0 d : Dev) : (d0.finish d).cp.powered = d.cp.powered := by
  have h := congrArg (fun x : Dev => x.cp.powered) (Dev.ended_fixed d); exact h
@[simp] theorem Dev.finish_cp_pwrgd (d0 d : Dev) : (d0.finish d).cp.pwrgd = d.cp.pwrgd := by
  have h := congrArg (fun x : Dev => x.cp.pwrgd) (Dev.ended_fixed d); exact h
@[simp] theorem Dev.finish_cp_perst (d0 d : Dev) : (d0.finish d).cp.perst = d.cp.perst := by
  have h := congrArg (fun x : Dev => x.cp.perst) (Dev.ended_fixed d); exact h
@[simp] theorem Dev.finish_cp_ready (d0 d : Dev) : (d0.finish d).cp.ready = d.cp.ready := by
  have h := congrArg (fun x : Dev => x.cp.ready) (Dev.ended_fixed d); exact h
@[simp] theorem Dev.finish_cp_dramReady (d0 d : Dev) : (d0.finish d).cp.dramReady = d.cp.dramReady := by
  have h := congrArg (fun x : Dev => x.cp.dramReady) (Dev.ended_fixed d); exact h
@[simp] theorem Dev.finish_cp_regions (d0 d : Dev) : (d0.finish d).cp.regions = d.cp.regions := by
  have h := congrArg (fun x : Dev => x.cp.regions) (Dev.ended_fixed d); exact h
@[simp] theorem Dev.finish_cp_device (d0 d : Dev) : (d0.finish d).cp.device = d.cp.device := by
  have h := congrArg (fun x : Dev => x.cp.device) (Dev.ended_fixed d); exact h
@[simp] theorem Dev.finish_cp_degraded (d0 d : Dev) : (d0.finish d).cp.degraded = d.cp.degraded := by
  have h := congrArg (fun x : Dev => x.cp.degraded) (Dev.ended_fixed d); exact h
@[simp] theorem Dev.finish_cp_standalone (d0 d : Dev) : (d0.finish d).cp.standalone = d.cp.standalone := by
  have h := congrArg (fun x : Dev => x.cp.standalone) (Dev.ended_fixed d); exact h
@[simp] theorem Dev.finish_cp_rstCause (d0 d : Dev) : (d0.finish d).cp.rstCause = d.cp.rstCause := by
  have h := congrArg (fun x : Dev => x.cp.rstCause) (Dev.ended_fixed d); exact h
@[simp] theorem Dev.finish_cp_warms (d0 d : Dev) : (d0.finish d).cp.warms = d.cp.warms := by
  have h := congrArg (fun x : Dev => x.cp.warms) (Dev.ended_fixed d); exact h
@[simp] theorem Dev.finish_cp_straps (d0 d : Dev) : (d0.finish d).cp.straps = d.cp.straps := by
  have h := congrArg (fun x : Dev => x.cp.straps) (Dev.ended_fixed d); exact h
@[simp] theorem Dev.finish_cp_lcState (d0 d : Dev) : (d0.finish d).cp.lcState = d.cp.lcState := by
  have h := congrArg (fun x : Dev => x.cp.lcState) (Dev.ended_fixed d); exact h
@[simp] theorem Dev.finish_cp_lcCount (d0 d : Dev) : (d0.finish d).cp.lcCount = d.cp.lcCount := by
  have h := congrArg (fun x : Dev => x.cp.lcCount) (Dev.ended_fixed d); exact h
@[simp] theorem Dev.finish_cp_returns (d0 d : Dev) : (d0.finish d).cp.returns = d.cp.returns := by
  have h := congrArg (fun x : Dev => x.cp.returns) (Dev.ended_fixed d); exact h
@[simp] theorem Dev.finish_cp_svn (d0 d : Dev) : (d0.finish d).cp.svn = d.cp.svn := by
  have h := congrArg (fun x : Dev => x.cp.svn) (Dev.ended_fixed d); exact h
@[simp] theorem Dev.finish_cp_uid (d0 d : Dev) : (d0.finish d).cp.uid = d.cp.uid := by
  have h := congrArg (fun x : Dev => x.cp.uid) (Dev.ended_fixed d); exact h
@[simp] theorem Dev.finish_cp_keys (d0 d : Dev) : (d0.finish d).cp.keys = d.cp.keys := by
  have h := congrArg (fun x : Dev => x.cp.keys) (Dev.ended_fixed d); exact h
@[simp] theorem Dev.finish_cp_vkeys (d0 d : Dev) : (d0.finish d).cp.vkeys = d.cp.vkeys := by
  have h := congrArg (fun x : Dev => x.cp.vkeys) (Dev.ended_fixed d); exact h
@[simp] theorem Dev.finish_cp_auxRec (d0 d : Dev) : (d0.finish d).cp.auxRec = d.cp.auxRec := by
  have h := congrArg (fun x : Dev => x.cp.auxRec) (Dev.ended_fixed d); exact h
@[simp] theorem Dev.finish_cp_flash (d0 d : Dev) : (d0.finish d).cp.flash = d.cp.flash := by
  have h := congrArg (fun x : Dev => x.cp.flash) (Dev.ended_fixed d); exact h
@[simp] theorem Dev.finish_cp_bootSel (d0 d : Dev) : (d0.finish d).cp.bootSel = d.cp.bootSel := by
  have h := congrArg (fun x : Dev => x.cp.bootSel) (Dev.ended_fixed d); exact h
@[simp] theorem Dev.finish_cp_fails (d0 d : Dev) : (d0.finish d).cp.fails = d.cp.fails := by
  have h := congrArg (fun x : Dev => x.cp.fails) (Dev.ended_fixed d); exact h
@[simp] theorem Dev.finish_cp_slot (d0 d : Dev) : (d0.finish d).cp.slot = d.cp.slot := by
  have h := congrArg (fun x : Dev => x.cp.slot) (Dev.ended_fixed d); exact h
@[simp] theorem Dev.finish_cp_fallback (d0 d : Dev) : (d0.finish d).cp.fallback = d.cp.fallback := by
  have h := congrArg (fun x : Dev => x.cp.fallback) (Dev.ended_fixed d); exact h
@[simp] theorem Dev.finish_cp_recovery (d0 d : Dev) : (d0.finish d).cp.recovery = d.cp.recovery := by
  have h := congrArg (fun x : Dev => x.cp.recovery) (Dev.ended_fixed d); exact h
@[simp] theorem Dev.finish_cp_cur (d0 d : Dev) : (d0.finish d).cp.cur = d.cp.cur := by
  have h := congrArg (fun x : Dev => x.cp.cur) (Dev.ended_fixed d); exact h
@[simp] theorem Dev.finish_cp_lastServed (d0 d : Dev) : (d0.finish d).cp.lastServed = d.cp.lastServed := by
  have h := congrArg (fun x : Dev => x.cp.lastServed) (Dev.ended_fixed d); exact h
@[simp] theorem Dev.finish_cp_jobs (d0 d : Dev) : (d0.finish d).cp.jobs = d.cp.jobs := by
  have h := congrArg (fun x : Dev => x.cp.jobs) (Dev.ended_fixed d); exact h
@[simp] theorem Dev.finish_cp_resetAt (d0 d : Dev) : (d0.finish d).cp.resetAt = d.cp.resetAt := by
  have h := congrArg (fun x : Dev => x.cp.resetAt) (Dev.ended_fixed d); exact h
@[simp] theorem Dev.finish_cp_windows (d0 d : Dev) : (d0.finish d).cp.windows = d.cp.windows := by
  have h := congrArg (fun x : Dev => x.cp.windows) (Dev.ended_fixed d); exact h
@[simp] theorem Dev.finish_cp_fns (d0 d : Dev) : (d0.finish d).cp.fns = d.cp.fns := by
  have h := congrArg (fun x : Dev => x.cp.fns) (Dev.ended_fixed d); exact h
@[simp] theorem Dev.finish_cp_smbusOfs (d0 d : Dev) : (d0.finish d).cp.smbusOfs = d.cp.smbusOfs := by
  have h := congrArg (fun x : Dev => x.cp.smbusOfs) (Dev.ended_fixed d); exact h
@[simp] theorem Dev.finish_cp_earlyLogged (d0 d : Dev) : (d0.finish d).cp.earlyLogged = d.cp.earlyLogged := by
  have h := congrArg (fun x : Dev => x.cp.earlyLogged) (Dev.ended_fixed d); exact h
@[simp] theorem Dev.finish_cp_tgTest (d0 d : Dev) : (d0.finish d).cp.tgTest = d.cp.tgTest := by
  have h := congrArg (fun x : Dev => x.cp.tgTest) (Dev.ended_fixed d); exact h
@[simp] theorem Dev.finish_cp_clocks (d0 d : Dev) : (d0.finish d).cp.clocks = d.cp.clocks := by
  have h := congrArg (fun x : Dev => x.cp.clocks) (Dev.ended_fixed d); exact h
@[simp] theorem Dev.finish_str_ctxs (d0 d : Dev) : (d0.finish d).str.ctxs = d.str.ctxs := by
  have h := congrArg (fun x : Dev => x.str.ctxs) (Dev.ended_fixed d); exact h
@[simp] theorem Dev.finish_str_nextArm (d0 d : Dev) : (d0.finish d).str.nextArm = d.str.nextArm := by
  have h := congrArg (fun x : Dev => x.str.nextArm) (Dev.ended_fixed d); exact h
@[simp] theorem Dev.finish_str_spillUsed (d0 d : Dev) : (d0.finish d).str.spillUsed = d.str.spillUsed := by
  have h := congrArg (fun x : Dev => x.str.spillUsed) (Dev.ended_fixed d); exact h
@[simp] theorem Dev.finish_str_poison (d0 d : Dev) : (d0.finish d).str.poison = d.str.poison := by
  have h := congrArg (fun x : Dev => x.str.poison) (Dev.ended_fixed d); exact h
@[simp] theorem Dev.finish_str_writeBack (d0 d : Dev) : (d0.finish d).str.writeBack = d.str.writeBack := by
  have h := congrArg (fun x : Dev => x.str.writeBack) (Dev.ended_fixed d); exact h
@[simp] theorem Dev.finish_str_scrubNext (d0 d : Dev) : (d0.finish d).str.scrubNext = d.str.scrubNext := by
  have h := congrArg (fun x : Dev => x.str.scrubNext) (Dev.ended_fixed d); exact h
@[simp] theorem Dev.finish_str_scrubFrom (d0 d : Dev) : (d0.finish d).str.scrubFrom = d.str.scrubFrom := by
  have h := congrArg (fun x : Dev => x.str.scrubFrom) (Dev.ended_fixed d); exact h

/-! ### The end of a command while no engine is held at a FENCE -/

theorem Dev.fenceGo_of_not_fence (d : Dev) (e : Nat) (h : ∀ n s p a v t i m, (d.eng e).hold ≠ .fence n s p a v t i m) :
    d.fenceGo e = d := by
  unfold Dev.fenceGo; dsimp only; split
  · rename_i heq; exact absurd heq (h _ _ _ _ _ _ _ _)
  · rfl

theorem Dev.fences_calm (d : Dev) (l : List Nat) (hl : ∀ e ∈ l, e < 32)
    (h : ∀ e, e < 32 → ∀ n s p a v t i m, (d.eng e).hold ≠ .fence n s p a v t i m) :
    l.foldl (fun (d : Dev) e => d.fenceGo e) d = d := by
  induction l with
  | nil => rfl
  | cons a l ih =>
    rw [List.foldl_cons, Dev.fenceGo_of_not_fence d a (h a (hl a (by simp))), ih (fun e he => hl e (by simp [he]))]

theorem Dev.settle_calm (d : Dev) (h : d.calm) : d.settle = d.watchPool.setPins := by
  have h1 : (upTo 32).foldl (fun (d : Dev) e => d.fenceGo e) d.watchPool = d.watchPool :=
    Dev.fences_calm d.watchPool _ (fun e he => by simpa [upTo] using he) h.1
  have h2 : d.watchPool.peers.mbxDev = none := h.2
  unfold Dev.settle
  rw [h1, Dev.forwardEvents, h2]

theorem Dev.finish_calm (d0 d : Dev) (h : d.calm) :
    d0.finish d = { d.watchPool.setPins.sendTlps with mem := commitOps d.wr d0.mem, wr := [] } := by
  simp only [Dev.finish, Dev.settle_calm d h, Dev.sendTlps_wr]; rfl

end Sys2Proof.Machine
end

