-- ==== Sys2Proof/Laws/Registers.lean ====
section
/-!
SUPPORT. Registers and the halves held for 64-bit pairs: what a register reads after it, or another, has been written.
-/
namespace Sys2Proof.Machine

theorem Dev.reg_lt (d : Dev) (n : RegName) (i j k : Nat) : d.reg n i j k < 2 ^ 32 := BitVec.isLt _

@[simp] theorem Dev.reg_setReg_same (d : Dev) (n : RegName) (v i j k : Nat) :
    (d.setReg n v i j k).reg n i j k = v % 2 ^ 32 := by
  simp [Dev.reg, Dev.setReg]

theorem Dev.reg_setReg_ne (d : Dev) (n m : RegName) (v i j k i' j' k' : Nat) (h : n.off i j k ≠ m.off i' j' k') :
    (d.setReg n v i j k).reg m i' j' k' = d.reg m i' j' k' := by
  simp [Dev.reg, Dev.setReg, tget_tset_ne _ _ _ h]

/-- The value a plain write leaves: the RW bits of `v`, the old value elsewhere, and W1C bits cleared where `v` has a 1. -/
def plainValue (r : RegRow) (old v : Nat) : Nat :=
  old &&& (0xFFFFFFFF ^^^ r.rw ^^^ (r.w1c &&& v)) ||| (v &&& r.rw)

theorem plainValue_lt (r : RegRow) (old v : Nat) (ho : old < 2 ^ 32) (hr : r.rw < 2 ^ 32) : plainValue r old v < 2 ^ 32 :=
  Nat.or_lt_two_pow (Nat.lt_of_le_of_lt Nat.and_le_left ho) (Nat.lt_of_le_of_lt Nat.and_le_right hr)

theorem Dev.plainWrite_eq (d : Dev) (n : RegName) (is : List Nat) (v : Nat) (h : n.row.rw ≠ 0) :
    d.plainWrite n is v =
      d.setReg n (plainValue n.row (d.reg n (is.getD 0 0) (is.getD 1 0) (is.getD 2 0)) v)
        (is.getD 0 0) (is.getD 1 0) (is.getD 2 0) := by
  simp only [Dev.plainWrite, plainValue, h]; rfl

theorem heldHalf_cons (hs : List (Nat × Nat × Nat)) (w o v : Nat) : heldHalf ((w, o, v) :: hs) w o = some v := by
  simp [heldHalf]

theorem heldHalf_drop (hs : List (Nat × Nat × Nat)) (w o : Nat) : heldHalf (dropHalf hs w o) w o = none := by
  unfold heldHalf dropHalf
  rw [List.find?_filter]
  have h : (hs.find? fun h => (!decide (h.1 = w) || !decide (h.2.1 = o)) && (decide (h.1 = w) && decide (h.2.1 = o))) = none := by
    rw [List.find?_eq_none]; intro x _; by_cases a : x.1 = w <;> by_cases b : x.2.1 = o <;> simp [a, b]
  simp [Bool.not_and, h]

end Sys2Proof.Machine
end

