-- ==== Sys2Proof/Tests/Slice0.lean ====
section
/-!
SUPPORT. Tests: an ill-formed command for each named check, and that one has no effect; values that the manual gives; and for each statement a witness, a
concrete state and operands that meet all the hypotheses of each of its clauses.
-/
namespace Sys2Proof.Tests
set_option Elab.async false
open Sys2Proof Sys2Proof.Machine

/-! ### Small states -/

/-- The reset state with its device changed by `f`. -/
def st (f : Dev → Dev) : State := { State.reset with dev := f State.reset.dev }

/-- The reset device with the CP ready, DRAM ready and every region ready. -/
def upDev (d : Dev) : Dev := { d with cp := { d.cp with ready := true, dramReady := true, device := true, regions := 0xFF } }

/-- A command of mailbox `m`. -/
def cmdOf (op : Nat) (payload : List Byte) (v1 : Bool := false) (m : Nat := 0) (async : Bool := false) : Cmd :=
  { mbx := m, v1, opcode := op, async, seq := 7, hostts := 0, payload }

/-- A device that is up and whose CP holds the command. -/
def held (c : Cmd) (f : Dev → Dev := id) : State :=
  st fun d => let d := f (upDev d); { d with cp := { d.cp with cur := some c } }

/-- A device that is up, changed by `f`. -/
def up (f : Dev → Dev := id) : State := st fun d => f (upDev d)

/-- Memory that holds `bs` from `a` upwards. -/
def memAt (a : Nat) (bs : List Byte) : List Host.Cell := Memory.writeBytes [] a bs

/-- A byte list given by numbers. -/
def by8 (l : List Nat) : List Byte := l.map (BitVec.ofNat 8)

/-- A run of the list at 0x1000, placed by MBX0. -/
def run0 : Run := { plc := { list := 0x1000, start := none, deadline := none, bias := 0, placeId := 0, mbx := 0 }, startTs := 0 }

/-- Engine 0 about to decode the task word whose bytes are `bs`, the rest of it zeros. -/
def decoding (bs : List Nat) (f : Engine → Engine := id) : State :=
  up fun d => Dev.setEng { d with mem := memAt 0x1000 (by8 bs) } 0
    (f { d.eng 0 with st := .running, run := some run0, pc := 0x1000 })

/-- That task word. -/
def wordOf (bs : List Nat) : Tw := BitVec.ofNat 256 (ofLe (by8 bs))

/-- Engine 0 of a device that is up, changed by `f`. -/
def engine (f : Engine → Engine) : State := up fun d => d.setEng 0 (f { d.eng 0 with st := .running, run := some run0, pc := 0x1000 })

/-- Areas of one row, and of two. -/
def area0 : Area := { aid := 0, cplx := false, ashift := 0, nvec := 1, base := 0, nrows := 1 }
def area1 : Area := { aid := 1, cplx := false, ashift := 0, nvec := 2, base := 0, nrows := 2 }

/-- Tile slot 0 of engine 0. -/
def slot0 (f : Slot → Slot) : State := engine fun x => x.setSlot 0 (f { st := .idle })

/-- Physical tile 0. -/
def tile (f : PTile → PTile) : State := up fun d => d.modPt 0 f

/-- A READ and a WRITE of two elements of 64 bytes. -/
def readDesc : Desc := { esize := 64, resv := 1, counts := [2], strides := [64], bufsz := 128, prog := 128 }
def writeDesc : Desc := { readDesc with kind := 1 }

/-- The bytes of a READ descriptor of one element of 64 bytes. -/
def descNums : List Nat :=
  [0, 0, 64, 0, 0, 1, 0, 0] ++ List.replicate 8 0 ++ [1] ++ List.replicate 43 0 ++ [64, 0, 0, 0, 64]
def desc0 : List Byte := by8 descNums

/-- A command's work under way. -/
def job (op : Nat) (payload : List Nat) : Job :=
  { opcode := op, mbx := 0, v1 := false, seq := 7, hostts := 0, held := false, payload := by8 payload }

/-- Stream context 0. -/
def ctx0 (c : Ctx) (f : Dev → Dev := id) : State := up fun d => f (d.setCtx 0 c)

/-- Stack 0. -/
def stack (f : StackSt → StackSt) : State := up fun d => d.setStk 0 (f (d.stk 0))

/-- Region 0. -/
def region (f : Region → Region) (g : Dev → Dev := id) : State := up fun d => g (d.setRgn 0 (f (d.rgn 0)))

def idleSlots : Tbl Slot := (upTo 4).map (fun t => (t, { st := .idle }))
def litStack : StackSt := { combA := { st := .inUse, powered := true }, combB := { st := .aligned, powered := true } }
/-- Region 0 with its conditions met. -/
def regionUp (d : Dev) : Dev :=
  { ((d.setReg .MADC_C_CFG 1 0 0).setReg .MADC_C_CFG 1 0 1).setStk 0 litStack with
    engs := (upTo 4).map (fun e => (e, { slots := idleSlots })), ptiles := [(128, { lock := .locked })] }
/-- The spare of region 0, which serves no logical tile. -/
def spare (f : PTile → PTile) : State := up fun d => d.modPt 128 f
def fhPort (x : FhPort) (f : Dev → Dev := id) : State := up fun d => f (d.setFh 7 x)

/-- Fronthaul port 7 runs. -/
def fhOn (d : Dev) : Dev := d.setFh 7 { en := true, st := .up, link := true }

/-- A peer frame's header. -/
def hd (typ dst : Nat) (addr : Nat := 0) (len : Nat := 0) : PHdr :=
  { typ, src := 1, dst, poison := false, tag := 5, len, addr, ts := 0, req := 0, members := 1, status := 0, retry := 0 }

/-! ### Ill-formed commands -/

/-- No command of the list is well formed. -/
def allIllFormed (l : List Instr) : Bool := l.all (fun i => !i.wellFormed)

theorem test_ill_formed_parts : allIllFormed [.nop 32, .tileRateChange 0 4, .tileCfgRateWrite 128 0, .captureEnd 136,
    .regionReady 8, .lossDetector 4, .patchSample 0 64 0 none, .patchDeadlineMiss 0 128, .vecComplete 0 2, .throttleEscalate 13,
    .thermalSample 0 [], .auxSampleInstant 0 9, .madcRoundStart 0 2, .madcTrigger 0 0 5, .madcEntryComplete 0 2 [] 0,
    .madcEntryComplete 0 0 [4096] 0, .lineMonitorRound 0 []] = true := by decide
theorem test_ill_formed_streams : allIllFormed [.milestoneFiring 4096 0, .quotaWindowEnd 54, .tollgateGrant 0 [0x14A] 0,
    .streamPassEnd 288, .peerFork 0 (hd 5 0) [(288, none)] false [], .fhOutPassRead 32, .dramReadComplete 0x6000000000 0 0 false,
    .dramReadComplete 0 0x14A 0 false, .scrubRead 9 false, .vec 0 (some 0x800000)] = true := by decide
theorem test_ill_formed_ports : allIllFormed [.linkUp 8, .peerMbx 4 (hd 7 0) [], .linkDown true 4 0, .linkDown false 0 256,
    .moduleInsertion 0 (some (256, [])), .moduleRemoval 8, .forkFlush 0 4, .peerTrainingDone 0 0 (some 4) 0, .peerRetry 65536,
    .peerTimeComparison 0 (2 ^ 64) 0 0 0 false, .esmcReceive 0 256] = true := by decide
theorem test_ill_formed_host : allIllFormed [.pwrgdRising 16, .cpWatchdogExpiry (2 ^ 32), .railLoss 10, .clockAbsent 5 true,
    .vfFlr 4, .doorbellRing 5 0 1, .doorbellRing 1 2 1, .doorbellRing 0 8 1, .rcRead 0 0x2000000, .rcRead 1 0x2000, .rcRead 0 2,
    .hostBar2Read 0 0x8000000000 4 none none, .hostBar2Read 0 0 0 none none, .hostBar2Read 0 0 4097 none none,
    .hostAtomic 0 4 false 0 0, .hostAtomic 0 0 false (2 ^ 64) 0, .hostLinkTrained 3 16, .hostLinkTrained 64 2,
    .smbusOffsetSet 2 true, .smbusWindowWrite 0 [] true, .safePointReached 3 0, .safePointReached 2 0x18] = true := by decide

/-! ### Witnesses: the machine -/

theorem witness_EmptyQueueLetsOneCyclePass :
    (∃ s : State, s.pending = [] ∧ s.dev.cp.powered = false) ∧
    (∃ s : State, s.pending = [] ∧ s.dev.cp.powered = true ∧ s.dev.tl.slew = 0 ∧ s.dev.tl.trimPpb = 0 ∧
      s.dev.tl.frac < tickUnit) :=
  ⟨⟨st fun d => { d with cp := { d.cp with powered := false } }, by decide +kernel⟩, ⟨State.reset, by decide +kernel⟩⟩

theorem witness_WellFormedCommandsComplete :
    (∃ i : Instr, i.wellFormed = true) ∧ (∃ i : Instr, i.wellFormed = false) := ⟨⟨.nop 31, rfl⟩, ⟨.nop 32, rfl⟩⟩

theorem witness_MemoryStaysCanonical : ∃ s t : State, Memory.wf s.dev.mem = true ∧ s.dev.mem ≠ [] ∧ s.dev.wr = [] ∧
    s.pending ≠ [] ∧ Sys2Proof.Machine.step s = .next t :=
  ⟨{ st (fun d => { d with mem := memAt 0x1000 (by8 [1, 0, 2]) }) with pending := [.nop 0] }, _, by decide +kernel,
    by decide +kernel, rfl, by decide +kernel, rfl⟩

theorem witness_PinsFollowTheirCauses : ∃ s t : State, Sys2Proof.Machine.step s = .next t := ⟨State.reset, _, rfl⟩

theorem witness_CalmFinishKeepsReports : ∃ d0 d : Dev, d.calm ∧ d.wr = [] ∧ Memory.wf d0.mem = true :=
  ⟨State.reset.dev, State.reset.dev, ⟨fun _ _ _ _ _ _ _ _ _ _ => nofun, rfl⟩, rfl, rfl⟩

/-! ### Witnesses: the host port -/

theorem witness_FunctionResetsAndLink :
    (∃ (s : State) (v : Nat), s.on ∧ v < 4) ∧ (∃ s : State, s.on) ∧
    (∃ (s : State) (rate width : Nat), s.on ∧ okRate rate = true ∧ okWidth width = true ∧ s.dev.cp.perst = false ∧
      bit s.dev.cp.clocks 1 = true ∧ rate = 64 ∧ width = 16 ∧ bit s.dev.cp.straps 2 = false) ∧
    (∃ (s : State) (rate width : Nat), s.on ∧ okRate rate = true ∧ okWidth width = true ∧ s.dev.cp.perst = false ∧
      bit s.dev.cp.clocks 1 = true ∧ rate < 64) :=
  ⟨⟨State.reset, 3, by decide +kernel⟩, ⟨State.reset, rfl⟩, ⟨State.reset, 64, 16, by decide +kernel⟩,
    ⟨State.reset, 2, 1, by decide +kernel⟩⟩

theorem witness_Bar2ReachesMemory :
    (∃ (s : State) (off n : Nat), s.on ∧ s.dev.cp.dramReady = true ∧ s.dev.wr = [] ∧ 1 ≤ n ∧ n ≤ 4096 ∧ off + n ≤ 0x6000000000) ∧
    (∃ (s : State) (off : Nat) (data : List Byte), s.on ∧ s.dev.cp.dramReady = true ∧ s.dev.wr = [] ∧ 1 ≤ data.length ∧
      data.length ≤ 4096 ∧ off + data.length ≤ 0x6000000000) ∧
    (∃ (s : State) (off val cmp : Nat), s.on ∧ s.dev.cp.dramReady = true ∧ s.dev.wr = [] ∧ val < 2 ^ 64 ∧ cmp < 2 ^ 64 ∧
      off % 8 = 0 ∧ off + 8 ≤ 0x6000000000 ∧ s.dev.poisoned off 8 = false) :=
  ⟨⟨up, 0x6000000000 - 4096, 4096, by decide +kernel⟩, ⟨up, 0, by8 [1, 2], by decide +kernel⟩,
    ⟨up, 0x5FFFFFFFF8, 2 ^ 64 - 1, 0, by decide +kernel⟩⟩

theorem witness_HalvesOfPairs :
    (∃ (s : State) (fn off : Nat) (n h : RegName) (is js : List Nat), s.on ∧ s.dev.cp.ready = true ∧ okReg fn off = true ∧
      s.dev.fnOn fn = true ∧ regAt (bar0 fn off) = some (n, is) ∧ n.row.half = 1 ∧ regAt (bar0 fn off + 4) = some (h, js)) ∧
    (∃ (s : State) (fn off : Nat) (n : RegName) (is : List Nat), s.on ∧ s.dev.cp.ready = true ∧ okReg fn off = true ∧
      s.dev.fnOn fn = true ∧ regAt (bar0 fn off) = some (n, is) ∧ n.row.half = 2) ∧
    (∃ (s : State) (fn off v : Nat) (n : RegName) (is : List Nat), s.on ∧ okReg fn off = true ∧ v < 2 ^ 32 ∧ s.dev.fnOn fn = true ∧
      s.dev.reaches fn (bar0 fn off) = true ∧ regAt (bar0 fn off) = some (n, is) ∧ n.row.half = 1 ∧ n.row.rw ≠ 0) ∧
    (∃ (s : State) (lo v : Nat), s.on ∧ v < 2 ^ 32 ∧ lo < 2 ^ 32 ∧ s.dev.reaches 0 0x8000C = true ∧
      heldHalf s.dev.holdW 0 0x8000C = some lo ∧ s.dev.armedCtxs = []) ∧
    (∃ (s : State) (lo v : Nat), s.on ∧ v < 2 ^ 32 ∧ lo < 2 ^ 32 ∧ s.dev.reaches 0 0x8000C = true ∧
      heldHalf s.dev.holdW 0 0x8000C = some lo ∧ s.dev.armedCtxs ≠ []) :=
  ⟨⟨up, 0, RegName.TILE_CNT_CONV_LO.off 31 3, .TILE_CNT_CONV_LO, .TILE_CNT_CONV_HI, [31, 3], [31, 3], by decide +kernel⟩,
    ⟨up, 0, RegName.TILE_CNT_CONV_HI.off 0 0, .TILE_CNT_CONV_HI, [0, 0], by decide +kernel⟩,
    ⟨up, 0, 0x80008, 2 ^ 32 - 1, .STRM_SPILL_LO, [], by decide +kernel⟩,
    ⟨up fun d => { d with holdW := [(0, 0x8000C, 7)] }, 7, 0, by decide +kernel⟩,
    ⟨up fun d => Dev.setCtx { d with holdW := [(0, 0x8000C, 7)] } 0 { st := .active }, 7, 0, by decide +kernel⟩⟩

theorem witness_PlainRegisterAccesses :
    (∃ (s : State) (e : Nat), s.on ∧ s.dev.cp.ready = true ∧ e < 32) ∧ (∃ (s : State) (v : Nat), s.on ∧ v < 2 ^ 32) ∧
    (∃ (s : State) (e v : Nat), s.on ∧ e < 32 ∧ v < 2 ^ 32 ∧ s.dev.reaches 0 (RegName.DEV_SKIPTHR.off e) = true) ∧
    (∃ (s : State) (fn off v : Nat), s.on ∧ okReg fn off = true ∧ v < 2 ^ 32 ∧ s.dev.fnOn fn = true ∧
      s.dev.reaches fn (bar0 fn off) = false) ∧
    (∃ (s : State) (fn off : Nat), s.on ∧ okBar0 fn off = true ∧ s.dev.fnOn fn = true) :=
  ⟨⟨up, 31, by decide +kernel⟩, ⟨up, 1, by decide +kernel⟩, ⟨up, 31, 5, by decide +kernel⟩,
    ⟨up fun d => { d with cp := { d.cp with lcState := 2 } }, 0, RegName.DEV_SKIPTHR.off 0, 5, by decide +kernel⟩,
    ⟨up, 0, 3, by decide +kernel⟩⟩

theorem witness_MailboxRegisters :
    (∃ (s : State) (fn m v : Nat), s.on ∧ okFnMbx fn m = true ∧ v < 2 ^ 32 ∧ v % 2 = 1 ∧ s.dev.fnOn fn = true ∧
      s.dev.reaches fn (RegName.MBX_DOORBELL.off m) = true ∧ s.dev.cp.ready = true ∧ s.dev.resetOrdered = false ∧
      (s.dev.mb m).state ≠ .busy) ∧
    (∃ (s : State) (fn m v : Nat), s.on ∧ okFnMbx fn m = true ∧ v < 2 ^ 32 ∧ v % 2 = 1 ∧ s.dev.fnOn fn = true ∧
      s.dev.reaches fn (RegName.MBX_DOORBELL.off m) = true ∧ (s.dev.mb m).state = .busy) ∧
    (∃ (s : State) (fn m n v : Nat), s.on ∧ okFnMbx fn m = true ∧ s.dev.fnOn fn = true ∧
      s.dev.reaches fn (RegName.MBX_EVQ_CONS.off m) = true ∧ n ≤ (s.dev.mb m).evq.length ∧ n < 2 ^ 31 ∧
      (s.dev.mb m).cons < 2 ^ 32 ∧ v = ((s.dev.mb m).cons + n) % 2 ^ 32 ∧ 0 < n) ∧
    (∃ (s : State) (fn m v : Nat), s.on ∧ okFnMbx fn m = true ∧ v < 2 ^ 32 ∧ s.dev.fnOn fn = true ∧
      s.dev.reaches fn (RegName.MBX_CFG.off m) = true ∧ (s.dev.mb m).state ≠ .busy ∧ v % 4 = 1) ∧
    (∃ (s : State) (fn m v : Nat), s.on ∧ okFnMbx fn m = true ∧ v < 2 ^ 32 ∧ s.dev.fnOn fn = true ∧
      s.dev.reaches fn (RegName.MBX_CFG.off m) = true ∧ (s.dev.mb m).state = .busy) :=
  ⟨⟨up, 0, 5, 1, by decide +kernel⟩, ⟨up fun d => d.setMb 0 { d.mb 0 with state := .busy }, 0, 0, 1, by decide +kernel⟩,
    ⟨up fun d => d.setMb 0 { d.mb 0 with evq := [{}, {}], cons := 2 ^ 32 - 1 }, 0, 0, 1, 0, by decide +kernel⟩,
    ⟨up, 0, 0, 1, by decide +kernel⟩, ⟨up fun d => d.setMb 0 { d.mb 0 with state := .busy }, 0, 0, 2, by decide +kernel⟩⟩

theorem witness_CommandIsTaken :
    (∃ (s : State) (m : Nat) (r : CmdRow), s.on ∧ s.dev.cp.ready = true ∧ s.dev.cp.cur = none ∧ s.dev.resetOrdered = false ∧
      s.dev.cp.recovery = false ∧ s.dev.cp.standalone = false ∧ s.dev.nextMbx = some m ∧
      cmdRow (s.dev.cmdIn m).v1 (s.dev.cmdIn m).opcode = some r ∧ (s.dev.lenIn m).1 ≤ (s.dev.lenIn m).2 ∧
      (s.dev.lenIn m).1 = layLen 0 (r.lay (s.dev.cmdIn m).payload) ∧
      (∀ o ∈ layGaps 0 (r.lay (s.dev.cmdIn m).payload), (s.dev.cmdIn m).f o 1 = 0) ∧
      s.dev.permits m (classOfCmd (s.dev.cmdIn m) r) = true ∧ (r.mfpv = true → s.dev.cp.lcState ≤ 1) ∧
      ((s.dev.cmdIn m).v1 = false → (s.dev.cmdIn m).opcode = 0x0106 → s.dev.cp.lcState = 0)) ∧
    (∃ d : Dev, (d.mb 7).rung = true) :=
  ⟨⟨up fun d => d.setMb 0 { d.mb 0 with rung := true, state := .busy, cmd := [(0, 0x100#32)] }, 0, .of .q [], rfl, rfl, rfl, rfl,
      rfl, rfl, by decide +kernel, rfl, by decide +kernel, by decide +kernel, by decide +kernel, by decide +kernel, by decide +kernel,
      by decide +kernel⟩,
    ⟨State.reset.dev.setMb 7 { rung := true }, by decide +kernel⟩⟩

theorem witness_TileLockAndFreezeWrites :
    (∃ (s : State) (lt v : Nat), s.on ∧ lt < 128 ∧ v < 2 ^ 32 ∧
      s.dev.reaches 0 (RegName.TILE_CFG.off (lt / 4) (lt % 4)) = true) ∧
    (∃ (s : State) (lt v : Nat), s.on ∧ lt < 128 ∧ v < 2 ^ 32 ∧
      s.dev.reaches 0 (RegName.LOCK_CFG.off (lt / 4) (lt % 4)) = true ∧ v % 4 < 2 ∧ s.dev.phys lt ≠ 0xFF) ∧
    (∃ (s : State) (lt v : Nat), s.on ∧ lt < 128 ∧ v < 2 ^ 32 ∧
      s.dev.reaches 0 (RegName.LOCK_CFG.off (lt / 4) (lt % 4)) = true ∧ 2 ≤ v % 4) ∧
    (∃ (s : State) (n v : Nat), s.on ∧ n < 54 ∧ v < 2 ^ 32 ∧ s.dev.reaches 0 (RegName.TG_CTRL.off n) = true) :=
  ⟨⟨up, 127, 2 ^ 32 - 1, by decide +kernel⟩, ⟨up, 127, 1, by decide +kernel⟩, ⟨up, 0, 2, by decide +kernel⟩,
    ⟨up, 53, 1, by decide +kernel⟩⟩

theorem witness_ConverterRegisters :
    (∃ (s : State) (rg ch v : Nat), s.on ∧ rg < 8 ∧ ch < 8 ∧ v < 2 ^ 32 ∧
      s.dev.reaches 0 (RegName.DAC_AUX_CFG.off rg ch) = true ∧ s.dev.auxRun rg ch = false ∧ bit v 16 = true ∧
      auxValid (fld v 0 3) (fld v 4 2) (s.dev.rf .DAC_AUX_LIM 0 16 rg ch) (s.dev.rf .DAC_AUX_LIM 16 16 rg ch)
        (s.dev.rf .DAC_AUX_STEP 0 16 rg ch) = true) ∧
    (∃ (s : State) (rg ch v : Nat), s.on ∧ rg < 8 ∧ ch < 8 ∧ v < 2 ^ 32 ∧
      s.dev.reaches 0 (RegName.DAC_AUX_CFG.off rg ch) = true ∧ s.dev.auxRun rg ch = true ∧ bit v 16 = false ∧
      fld v 0 3 = s.dev.rf .DAC_AUX_CFG 0 3 rg ch ∧ fld v 4 2 = s.dev.rf .DAC_AUX_CFG 4 2 rg ch) ∧
    (∃ (s : State) (rg ch v : Nat), s.on ∧ rg < 8 ∧ ch < 9 ∧ v < 2 ^ 32 ∧
      s.dev.reaches 0 (RegName.DAC_AUX_QDATA.off rg ch) = true ∧ (s.dev.aux rg ch).queue.length < 64) ∧
    (∃ (s : State) (rg ch v : Nat), s.on ∧ rg < 8 ∧ ch < 9 ∧ v < 2 ^ 32 ∧
      s.dev.reaches 0 (RegName.DAC_AUX_QDATA.off rg ch) = true ∧ 64 ≤ (s.dev.aux rg ch).queue.length) ∧
    (∃ (s : State) (rg c v : Nat), s.on ∧ rg < 8 ∧ c < 2 ∧ v < 2 ^ 32 ∧ s.dev.reaches 0 (RegName.MADC_C_CFG.off rg c) = true ∧
      v % 2 = 1 ∧ s.dev.rf .MADC_C_CFG 0 1 rg c = 0 ∧ (s.dev.madc rg c).st = 0) ∧
    (∃ (s : State) (rg c v : Nat), s.on ∧ rg < 8 ∧ c < 2 ∧ v < 2 ^ 32 ∧ s.dev.reaches 0 (RegName.MADC_C_CFG.off rg c) = true ∧
      v % 2 = 0 ∧ s.dev.rf .MADC_C_CFG 0 1 rg c = 1 ∧ (s.dev.madc rg c).st = 1) :=
  ⟨⟨up, 7, 7, 0x10020, by decide +kernel⟩, ⟨up fun d => d.setReg .DAC_AUX_CFG 0x10021 0 6, 0, 6, 0x21, by decide +kernel⟩,
    ⟨up, 7, 8, 5, by decide +kernel⟩, ⟨up fun d => d.setAux 0 6 { queue := List.replicate 64 0 }, 0, 6, 1, by decide +kernel⟩,
    ⟨up, 7, 1, 1, by decide +kernel⟩,
    ⟨up fun d => (d.setReg .MADC_C_CFG 1 0 0).setMadc 0 0 { st := 1 }, 0, 0, 0, by decide +kernel⟩⟩

/-! ### Witnesses: time -/

/-- Milestone 0 is `m` and CT 0 runs. -/
def msDev (m : MsEntry) (t : Nat) : State := up fun d =>
  { d.setReg .TL_CT_CFG 1 0 with time := t, ms := { d.ms with active := [(0, m)] } }

/-- The timeline changed by `f` under `TL_CFG`. -/
def tlDev (cfg : Nat) (f : Timeline → Timeline) : State := up fun d => { d.setReg .TL_CFG cfg with tl := f d.tl }
/-- An entry that takes a SNAPSHOT, and one that places an EVENT in MBX0 and MBX7, at offset 0 of every slot. -/
def snapMs : MsEntry := BitVec.ofNat 256 (1 + 0x20 * 2 ^ 96)
def eventMs : MsEntry := BitVec.ofNat 256 (1 + 0x40 * 2 ^ 96 + 0x81 * 2 ^ 112)

/-- The slave clock listens on port 7. -/
def ptpDev (p : Ptp) : State := up fun d =>
  { (d.setReg .TL_CFG 0x71).setFh 7 { link := true } with tl := { d.tl with ptp := p } }
/-- A commit at 4 whose copy of entry 5 waits for 9. -/
def copied5 : Commit := { ct := 0, b := 4, mbx := 0, copied := true, deferred := [(5, 9)] }

theorem witness_MilestonesAndCommits :
    (∃ (s : State) (n late : Nat) (m : MsEntry), s.on ∧ n < 4096 ∧ s.dev.mayFire n late ∧ late ≤ 24 ∧
      s.dev.entryAt n (s.dev.time - late) = m ∧ MsEntry.actions m = 0x20) ∧
    (∃ (s : State) (n late : Nat) (m : MsEntry), s.on ∧ n < 4096 ∧ s.dev.mayFire n late ∧ late ≤ 24 ∧
      s.dev.entryAt n (s.dev.time - late) = m ∧ MsEntry.actions m = 0x40 ∧ (∀ b, b < 8 → (s.dev.mb b).evq.length < 256)) ∧
    (∃ (s : State) (n late : Nat), s.on ∧ n < 4096 ∧ s.dev.ms.commit = none ∧
      (s.dev.isFiring (s.dev.entryAt n (s.dev.time - late)) (s.dev.time - late) = false ∨ s.dev.overtaken n (s.dev.time - late)
      = true ∨ s.dev.slotFree = false)) ∧
    (∃ (s : State) (n late : Nat), s.on ∧ n < 4096 ∧ s.dev.ms.commit = none ∧
      (s.dev.isFiring (s.dev.entryAt n (s.dev.time - late)) (s.dev.time - late) = false ∨ s.dev.overtaken n (s.dev.time - late)
      = true ∨ s.dev.slotFree = false)) ∧
    (∃ (s : State) (n late : Nat) (m : MsEntry), s.on ∧ n < 4096 ∧ s.dev.mayFire n late ∧ 24 < late ∧
      s.dev.entryAt n (s.dev.time - late) = m ∧ MsEntry.actions m = 0x20) ∧
    (∃ (s : State) (c : Commit), s.on ∧ s.dev.ms.commit = some c ∧ c.copied = false ∧ c.b ≤ s.dev.time ∧ c.deferred = [] ∧
      (∀ n ∈ s.dev.changedEntries c.mbx, s.dev.deferTo c.ct c.b n = none)) ∧
    (∃ s : State, s.on ∧ (∀ c, s.dev.ms.commit = some c → s.dev.time < c.b)) ∧
    (∃ (s : State) (c : Commit), s.on ∧ s.dev.ms.commit = some c ∧ c.copied = true ∧ (∀ p ∈ c.deferred, p.2 ≤ s.dev.time)) :=
  ⟨⟨msDev snapMs 24, 0, 24, snapMs, by decide +kernel⟩,
    ⟨msDev eventMs 0, 0, 0, eventMs, by decide +kernel⟩,
    ⟨up, 4095, 0, by decide +kernel⟩,
    ⟨st fun d => { (msDev snapMs 24).dev with ms := { (msDev snapMs 24).dev.ms with last := some (0, 0) } }, 0, 24,
      by decide +kernel⟩,
    ⟨msDev snapMs 25, 0, 25, snapMs, by decide +kernel⟩,
    ⟨up fun d => { d with time := 9, ms := { d.ms with commit := some { ct := 0, b := 9, mbx := 0 }, shadow := [(5, 1#256)] } },
      { ct := 0, b := 9, mbx := 0 }, by decide +kernel⟩,
    ⟨up fun d => { d with ms := { d.ms with commit := some { ct := 0, b := 9, mbx := 0 } } }, ⟨rfl, fun _ h =>
      by cases h; decide⟩⟩,
    ⟨up fun d => { d with time := 9, ms := { d.ms with commit := some copied5, shadow := [(5, 1#256)] } }, copied5,
      by decide +kernel⟩⟩

theorem witness_TimeKeeping :
    (∃ (s : State) (x : Nat × Nat × Nat × Nat) (sub off : Int), s.on ∧ -8 ≤ sub ∧ sub < 8 ∧ s.dev.tlSrc = 1 ∧
      s.dev.tl.srcPresent = true ∧ s.dev.tl.ptp.exchange = some x ∧ off = exchangeOffset x + sub ∧ -1572 ≤ off ∧ off ≤ 1572 ∧
      s.dev.tl.everLocked = true ∧ s.dev.tl.state = .acquiring ∧ 7 ≤ s.dev.tl.good) ∧
    (∃ (s : State) (x : Nat × Nat × Nat × Nat) (sub off : Int), s.on ∧ -8 ≤ sub ∧ sub < 8 ∧ s.dev.tlSrc = 1 ∧
      s.dev.tl.srcPresent = true ∧ s.dev.tl.ptp.exchange = some x ∧ off = exchangeOffset x + sub ∧ s.dev.tl.state = .locked ∧
      s.dev.tl.everLocked = true ∧ s.dev.rf .TL_CFG 12 1 = 0) ∧
    (∃ s : State, s.on ∧ (s.dev.tlSrc = 1 ∨ s.dev.tlSrc = 2) ∧ s.dev.tl.state = .locked) ∧
    (∃ s : State, s.on ∧ (s.dev.tlSrc = 1 ∨ s.dev.tlSrc = 2) ∧ s.dev.tl.state = .holdover ∧ s.dev.tl.everLocked = true) ∧
    (∃ s : State, s.on ∧ s.dev.tl.state = .holdover ∧ s.dev.rf .TL_CFG 24 8 ≠ 0 ∧
      s.dev.tl.holdFrom + s.dev.rf .TL_CFG 24 8 * tcPerSec ≤ s.dev.aon) ∧
    (∃ (s : State) (p kind domain lag src seq time : Nat) (two : Bool) (data : List Byte), s.on ∧
      Instr.wellFormed (.ptpMessage p kind domain lag src seq two time data) = true ∧ s.dev.tlSrc = 1 ∧
      p = s.dev.rf .TL_CFG 4 3 ∧ domain = s.dev.tl.ptpDomain ∧ ptpTaken kind = true ∧ (s.dev.fh p).link = true) ∧
    (∃ (s : State) (p kind domain lag src seq time : Nat) (two : Bool) (data : List Byte), s.on ∧
      Instr.wellFormed (.ptpMessage p kind domain lag src seq two time data) = true ∧ s.dev.tlSrc = 1 ∧
      p = s.dev.rf .TL_CFG 4 3 ∧ domain = s.dev.tl.ptpDomain ∧ ptpTaken kind = true ∧ (s.dev.fh p).link = true) ∧
    (∃ (s : State) (p ql : Nat), s.on ∧ p < 8 ∧ ql < 256 ∧ s.dev.rf .TL_CFG 7 1 = 1 ∧ p = s.dev.rf .TL_CFG 4 3 ∧
      (s.dev.fh p).link = true) ∧
    (∃ s : State, s.on) ∧
    (∃ (s : State) (lag : Nat), s.on ∧ Instr.wellFormed (.ppsInEdge lag) = true ∧ s.dev.tlSrc = 2 ∧ s.dev.tl.ppsLast = none) ∧
    (∃ s : State, s.on ∧ s.dev.rf .TL_CFG 13 1 = 1 ∧ s.dev.timeLocked = true ∧
      (s.dev.time + s.dev.rf .PRT_TIMING_CFG 16 16 + 2) % tcPerSec ≤ 4) ∧
    (∃ s : State, s.on) :=
  ⟨⟨tlDev 1 (fun t => { t with everLocked := true, state := .acquiring, good := 7, ptp := { exchange := some (0, 197, 0,
      0) } }), (0, 197, 0, 0), 4, -1572, by decide +kernel⟩,
    ⟨tlDev 1 (fun t => { t with everLocked := true, state := .locked, good := 7, ptp := { exchange := some (10000000, 0, 0,
      0) } }), (10000000, 0, 0, 0), -8, 79999992, by decide +kernel⟩,
    ⟨tlDev 2 (fun t => { t with state := .locked }), by decide +kernel⟩,
    ⟨tlDev 1 (fun t => { t with everLocked := true, state := .holdover, srcPresent := false }), by decide +kernel⟩,
    ⟨st fun _ => { (tlDev 0x01000001 (fun t => { t with state := .holdover })).dev with aon := tcPerSec }, by decide +kernel⟩,
    ⟨ptpDev {}, 7, 0, 0, 0, 5, 6, 0, false, [], by decide +kernel⟩,
    ⟨ptpDev { master := some 5, sync := some (1, 200, some 100), request := some (6, 300) }, 7, 9, 0, 0, 5, 6, 400, false, [],
      by decide +kernel⟩,
    ⟨up fun d => (d.setReg .TL_CFG 0xF1).setFh 7 { link := true }, 7, 255, by decide +kernel⟩,
    ⟨up fun d => d.setFh 7 { link := true }, by decide +kernel⟩,
    ⟨tlDev 2 id, 0, by decide +kernel⟩,
    ⟨st fun _ => { (tlDev 0x2001 (fun t => { t with everLocked := true, state := .locked })).dev with time := tcPerSec + 2 },
      by decide +kernel⟩,
    ⟨up fun d => { d with cp := { d.cp with clocks := 16 }, tl := { d.tl with ppsInAt := some 5, ppsGap := some tcPerSec } },
      by decide +kernel⟩⟩

/-! ### Witnesses: heat -/

/-- Supervisor changed by `f`. -/
def heat (f : Thermal → Thermal) (g : Cp → Cp := id) (aon : Nat := 0) : State :=
  up fun d => { d with th := f d.th, cp := g d.cp, aon }

theorem witness_ThermalManagement :
    (∃ (s : State) (g : Nat) (readings : List Int), g < 13 ∧ readings.length = groupSize g ∧ (∀ n ∈ groupSensors g,
      s.dev.sensor n = {}) ∧ (∀ r ∈ readings, coldClr < r ∧ ∀ c, c < 4 → r < s.dev.warnSet c ∧ r < s.dev.throtSet c ∧
      r < shutSet c)) ∧
    (∃ (s : State) (g : Nat) (readings : List Int) (n : Nat) (r : Int), g < 13 ∧ readings.length = groupSize g ∧ (n,
      r) ∈ (groupSensors g).zip readings ∧ (s.dev.sensor n).fault = false ∧ (s.dev.sensor n).shut = false ∧
      (s.dev.sensor n).shutN = 1 ∧ r ≠ (s.dev.sensor n).temp ∧ shutSet (sensorClass n) ≤ r ∧ r ≤ 2400) ∧
    (∃ (s : State) (t : Nat), s.dev.th.tripped = some t ∧ t + 19661 ≤ s.dev.aon) ∧
    (∃ (s : State) (straps t : Nat), straps < 16 ∧ s.dev.th.tripped = some t ∧ t + 10 * tcPerSec ≤ s.dev.aon ∧
      s.dev.cp.powered = false ∧ s.dev.th.latched = false ∧ s.dev.cp.pwrgd = true ∧ (∀ n,
      n < 96 → (s.dev.sensor n).fault = true ∨ (s.dev.sensor n).temp < restartBelow (sensorClass n))) ∧
    (∃ (s : State) (g : Nat), s.on ∧ g < 13 ∧ (∃ n ∈ groupSensors g, (s.dev.sensor n).throt = true ∧
      n ∉ (tget s.dev.th.srcs g {}).below ∧ (s.dev.sensor n).fault = false ∧
      s.dev.throtSet (sensorClass n) ≤ (s.dev.sensor n).temp) ∧ (∀ p ∈ (groupSensors g).zip (tget s.dev.th.srcs g {}).readings,
      p.2 - (s.dev.sensor p.1).temp < 8) ∧ (tget s.dev.th.srcs g {}).readings.length = (groupSensors g).length ∧
      tget s.dev.th.steps g 0 < 8 ∧ (tget s.dev.th.srcs g {}).from_ + max 1 (fld s.dev.th.intervals 8 8) * subframeTc ≤
      s.dev.aon) ∧
    (∃ (s : State) (g : Nat), s.on ∧ g < 13 ∧ (∀ n ∈ groupSensors g, (s.dev.sensor n).throt = false) ∧
      0 < tget s.dev.th.steps g 0 ∧ s.dev.classLost g = false ∧
      (tget s.dev.th.srcs g {}).from_ + max 1 (fld s.dev.th.intervals 0 8) * subframeTc ≤ s.dev.aon) :=
  ⟨⟨up, 12, List.replicate 8 673, by decide +kernel⟩,
    ⟨heat (fun t => { t with sensors := [(0, { temp := 0x72F, shutN := 1 })] }), 0, 0x730 :: List.replicate 7 700, 0, 0x730,
      by decide +kernel⟩,
    ⟨heat (fun t => { t with tripped := some 5 }) (aon := 19666), 5, by decide +kernel⟩,
    ⟨heat (fun t => { t with tripped := some 5 }) (fun c => { c with powered := false, pwrgd := true }) (10 * tcPerSec + 5), 15,
      5, by decide +kernel⟩,
    ⟨heat (fun t => { t with sensors := [(32, { temp := 2000, throt := true })], srcs := [(4,
      { readings := 2007 :: List.replicate 15 0 })], steps := [(4, 7)] }) (aon := 256 * subframeTc), 4, by decide +kernel⟩,
    ⟨heat (fun t => { t with steps := [(12, 8)] }) (aon := 256 * subframeTc), 12, by decide +kernel⟩⟩

theorem witness_ChipsAndQuietPeriods :
    (∃ s : State, s.on ∧ s.dev.th.chip ≠ some (s.dev.time / chipTc)) ∧
    (∃ (s : State) (p q : Nat), s.on ∧ p < 136 ∧ (s.dev.pt p).quietFrom = some q ∧ q + 2 * subframeTc ≤ s.dev.time) :=
  ⟨⟨up fun d => (d.modPt 0 fun x => { x with lock := .locked, quietAsk := true }).modPt 135 fun x =>
      { x with quietStop := true, quietFrom := some 0 }, by decide +kernel⟩,
    ⟨up fun d => Dev.modPt { d with time := 2 * subframeTc } 0 fun x => { x with quietFrom := some 0 }, 0, 0,
      by decide +kernel⟩⟩

/-! ### Witnesses: the ring lock -/

/-- Physical tile `p`, changed by `f`, in the chip that is the slot of patch `q`. -/
def inSlot (p q : Nat) (f : PTile → PTile) : State := up fun d => { d.modPt p f with time := (q + 1) * chipTc }
/-- Tile 0 in its first sweep, of ring 5 towards code 100. -/
def sweeping (f : Acq → Acq) : PTile → PTile := fun x => { x with lock := .sweep, acq := f { rings := [5], goal := [(5, 100)] } }

theorem witness_LockWindows :
    (∃ (s : State) (p : Nat), s.on ∧ p < 136 ∧ (s.dev.pt p).lock ≠ .off ∧ (s.dev.pt p).lock ≠ .faulted ∧
      windowTc ≤ s.dev.time) ∧
    (∃ (s : State) (p w1 : Nat) (es : Tbl Int) (dk : List Nat), s.on ∧ p < 136 ∧ (s.dev.pt p).est = some (w1, es, dk) ∧
      (s.dev.pt p).lock ≠ .locked ∧ (s.dev.pt p).lock ≠ .relock ∧ (s.dev.pt p).lock ≠ .legacy ∧ (s.dev.pt p).sweepFull = false ∧
      (s.dev.pt p).sweepLocal = false) ∧
    (∃ (s : State) (p : Nat), s.on ∧ p < 136 ∧
      (s.dev.sensor (8 * (regionOfP p / 2) + 4 + 2 * (regionOfP p % 2))).fault = false) ∧
    (∃ (s : State) (p : Nat), s.on ∧ p < 136 ∧
      (s.dev.sensor (8 * (regionOfP p / 2) + 4 + 2 * (regionOfP p % 2))).fault = true) :=
  ⟨⟨up fun d => { d.modPt 135 fun x => { x with lock := .ramp } with time := 98304 }, 135, by decide +kernel⟩,
    ⟨tile (fun x => { x with lock := .ramp, est := some (98304, [(0, 5)], []) }), 0, 98304, [(0, 5)], [], by decide +kernel⟩,
    ⟨up, 135, by decide +kernel⟩,
    ⟨up fun d => { d with th := { d.th with sensors := [(30, { fault := true })] } }, 135, by decide +kernel⟩⟩

theorem witness_PatchSamples :
    (∃ (s : State) (p q ce c : Nat), s.on ∧ p < 136 ∧ q < 64 ∧ ce ≤ 1 ∧ s.dev.freeSlot p q = some c ∧ (s.dev.pt p).loop = true ∧
      (s.dev.pt p).parking = false ∧ ((s.dev.pt p).sampleErr q c).isSome = true) ∧
    (∃ (s : State) (p q c : Nat), s.on ∧ p < 136 ∧ q < 64 ∧ s.dev.freeSlot p q = some c ∧ (s.dev.pt p).lock = .sweep ∧
      (s.dev.pt p).acq.phase = 0 ∧ (s.dev.pt p).parking = false) ∧
    (∃ (s : State) (p q c : Nat), s.on ∧ p < 136 ∧ q < 64 ∧ s.dev.freeSlot p q = some c ∧ (s.dev.pt p).lock = .faulted) ∧
    (∃ (s : State) (p q c : Nat), s.on ∧ p < 136 ∧ q < 128 ∧ s.dev.freeSlot p q = some c ∧ (s.dev.pt p).loop = true ∧
      (tget (s.dev.pt p).miss q 0 < 3 ∨ (s.dev.pt p).lock ≠ .locked) ∧
      (q = 0 → ((s.dev.pt p).sampleErr 0 c).isSome = true ∨ (s.dev.pt p).lock ≠ .locked)) ∧
    (∃ (s : State) (p q c : Nat), s.on ∧ p < 136 ∧ q < 128 ∧ s.dev.freeSlot p q = some c ∧ (s.dev.pt p).loop = true ∧
      (tget (s.dev.pt p).miss q 0 < 3 ∨ (s.dev.pt p).lock ≠ .locked) ∧
      (q = 0 → ((s.dev.pt p).sampleErr 0 c).isSome = true ∨ (s.dev.pt p).lock ≠ .locked)) ∧
    (∃ (s : State) (p q c : Nat), s.on ∧ p < 136 ∧ q < 64 ∧ s.dev.freeSlot p q = some c ∧ (s.dev.pt p).lock = .locked ∧
      tget (s.dev.pt p).miss q 0 = 3 ∧ (q = 0 → ((s.dev.pt p).sampleErr 0 c).isSome = true) ∧ (s.dev.pt p).losses = [] ∧
      (s.dev.pt p).quietFrom = none ∧ s.dev.logicalOf p = none ∧ (s.dev.rgn (regionOfP p)).swap = none) ∧
    (∃ (s : State) (p q c : Nat), s.on ∧ p < 136 ∧ q < 64 ∧ s.dev.freeSlot p q = some c ∧ (s.dev.pt p).lock = .locked ∧
      tget (s.dev.pt p).miss q 0 = 3 ∧ (q = 0 → ((s.dev.pt p).sampleErr 0 c).isSome = true) ∧ (s.dev.pt p).losses = [] ∧
      (s.dev.pt p).quietFrom = none ∧ s.dev.logicalOf p = none ∧ (s.dev.rgn (regionOfP p)).swap = none) ∧
    (∃ (s : State) (p w : Nat), s.on ∧ p < 136 ∧ (s.dev.pt p).coefBad = some w) :=
  ⟨⟨inSlot 0 63 (fun x => { x with lock := .locked, miss := [(63, 2)], err := [(4095, 5)] }), 0, 63, 1, 64, by decide +kernel⟩,
    ⟨inSlot 0 0 (sweeping id), 0, 0, 1, by decide +kernel⟩,
    ⟨inSlot 0 0 (fun x => { x with lock := .faulted, htr := [(0, 5)] }), 0, 0, 1, by decide +kernel⟩,
    ⟨inSlot 0 0 (fun x => { x with lock := .locked, miss := [(127, 2)] }), 0, 127, 1, by decide +kernel⟩,
    ⟨inSlot 0 0 (fun x => { x with lock := .relock, miss := [(0, 3)] }), 0, 0, 1, by decide +kernel⟩,
    ⟨inSlot 128 62 (fun x => { x with lock := .locked, miss := [(62, 3)] }), 128, 62, 63, by decide +kernel⟩,
    ⟨inSlot 128 0 (fun x => { x with lock := .locked, miss := [(0, 3)] }), 128, 0, 1, by decide +kernel⟩,
    ⟨tile (fun x => { x with coefBad := some 9 }), 0, 9, by decide +kernel⟩⟩

theorem witness_AcquisitionSteps :
    (∃ (s : State) (p : Nat), s.on ∧ p < 136 ∧ (s.dev.pt p).lock = .ramp ∧ (s.dev.pt p).h0 = []) ∧
    (∃ (s : State) (p : Nat), s.on ∧ p < 136 ∧ (s.dev.pt p).lock = .settle ∧ (s.dev.pt p).since + settleTc ≤ s.dev.time) ∧
    (∃ (s : State) (p : Nat) (code : Nat → Nat), s.on ∧ p < 136 ∧ (s.dev.pt p).lock = .sweep ∧ (s.dev.pt p).acq.phase = 0 ∧
      (s.dev.pt p).arrived = true ∧ (∀ r ∈ (s.dev.pt p).acq.rings,
      nearestFound (s.dev.pt p).acq.found r (s.dev.park p r) = some (code r))) ∧
    (∃ (s : State) (p : Nat), s.on ∧ p < 136 ∧ (s.dev.pt p).lock = .capture ∧ (s.dev.pt p).acq.again = false ∧
      (s.dev.pt p).acq.todo = [] ∧ (s.dev.pt p).acq.from_ + captureTc ≤ s.dev.time) ∧
    (∃ (s : State) (p : Nat), s.on ∧ p < 136 ∧ (s.dev.pt p).lock = .identity ∧ (s.dev.pt p).legacy = false ∧
      (s.dev.pt p).acq.moving = [] ∧ 64 ≤ (s.dev.pt p).acq.wins ∧ (∀ t ∈ (s.dev.pt p).acq.todo, t.2.1 ≤ 1 ∧
      foundLine (tget (s.dev.pt p).acq.corr t.1 (0, 0, 0)) = some 0) ∧ s.dev.logicalOf p = none ∧ s.dev.cp.jobs = []) :=
  ⟨⟨tile (fun x => { x with lock := .ramp }), 0, by decide +kernel⟩,
    ⟨up fun d => { d.modPt 0 fun x => { x with lock := .settle } with time := settleTc }, 0, by decide +kernel⟩,
    ⟨tile (sweeping fun a => { a with goal := [], found := [(5, 77), (6, 80)] }), 0, fun _ => 77, by decide +kernel⟩,
    ⟨up fun d => { d.modPt 0 fun x => { x with lock := .capture } with time := captureTc }, 0, by decide +kernel⟩,
    ⟨spare (fun x => { x with lock := .identity, acq := { todo := [(5, (1, 1))], wins := 64, corr := [(5, (0, 4, 1))] } }), 128,
      by decide +kernel⟩⟩

theorem witness_RescueAndLegacyMode :
    (∃ (s : State) (p : Nat), s.on ∧ p < 136 ∧ (s.dev.pt p).acq.moving ≠ [] ∧ (s.dev.pt p).arrived = true) ∧
    (∃ (s : State) (p : Nat) (code : Nat → Nat), s.on ∧ p < 136 ∧ (s.dev.pt p).lock = .sweep ∧ (s.dev.pt p).acq.phase = 1 ∧
      (s.dev.pt p).arrived = true ∧ (∀ r ∈ (s.dev.pt p).acq.rings,
      nearestFound (s.dev.pt p).acq.found r (s.dev.park p r) = some (code r))) ∧
    (∃ (s : State) (p : Nat) (t : Int), s.on ∧ p < 136 ∧ (s.dev.pt p).temp = some t ∧ (s.dev.pt p).legacy = true ∧
      (s.dev.pt p).lock = .legacy ∧ (s.dev.pt p).h0 = []) ∧
    (∃ (s : State) (p : Nat), s.on ∧ p < 136 ∧ (s.dev.pt p).legacy = true ∧ (s.dev.pt p).lock = .legacy ∧
      (s.dev.pt p).burst = none ∧ (s.dev.pt p).burstAt + max 1 ((s.dev.pt p).cf 0 2 6) * tcPerSec ≤ s.dev.time) :=
  ⟨⟨tile (fun x => { x with lock := .relock, htr := [(5, 300)], acq := { moving := [(5, 1)], goal := [(5, 300)] } }), 0,
      by decide +kernel⟩,
    ⟨tile (sweeping fun a => { a with phase := 1, goal := [], found := [(5, 500)] }), 0, fun _ => 500, by decide +kernel⟩,
    ⟨tile (fun x => { x with temp := some 640, legacy := true, lock := .legacy }), 0, 640, by decide +kernel⟩,
    ⟨up fun d => { d.modPt 0 fun x => { x with legacy := true, lock := .legacy } with time := 64 * tcPerSec }, 0,
      by decide +kernel⟩⟩

/-! ### Witnesses: tiles, the MAC array, deliveries, the vector pipes -/

/-- An MVM of one segment and one vector of ±15 inputs on slot 0, into area 0. -/
def mvmWord : Tw := wordOf [2, 0, 0, 0, 1, 0, 0, 0, 0, 0, 0, 0, 0, 0, 0, 0, 32, 0, 0, 0, 1]
def mvmOp : TileOp := { num := 1, word := mvmWord, op := 2, slot := 0 }
def waitingOp : TileOp := { mvmOp with waitFrom := some (.acquiring, 0) }
def begunOp : TileOp := { mvmOp with begun := true }
def freeOf1 : Delivery := ⟨2, 1, 0, wordOf [6, 0, 0, 0, 3, 0, 0, 0, 0, 0, 0, 0, 0, 0, 0, 0, 0, 0, 0, 0, 0, 2], 0⟩
def win0 : Win := { cid := 3, reading := 0, kind := .rerun, lo := 0, n := 1, klog := 0, round := 0, cols := [5], gains := [] }
def conv0 : Conv :=
  { cid := 3, num := 1, word := mvmWord, aid := 1, sparse := none, cfg := 0, p := 0, q := 0, comp := 0, v := 0
    klog := 0, arr := false
    segs := [], w := [], ts := 0, ptile := 0, quiet := false, readings := [(0, { openWins := 1 })] }
def macJob (kind : Nat) (piece : Piece) (started : Option Nat) : State :=
  engine fun x => { x with macq := [{ num := 2, kind, piece, started }] }

/-- Engine 0 whose slot 0 has a product about to open its first window. -/
def opening : State := up fun d =>
  Dev.setEng { d.setReg .TILE_CFG 2 0 0 with mem := memAt (sramBase 0) (by8 (List.replicate 32 0xFF)) } 0
    { (d.eng 0).setSlot 0 { st := .idle, rate := 2 } with run := some run0, issueq := [begunOp], areas := [(0, area0)] }
/-- What the engine has before it opens the window: its product, and the conversion it finds. -/
def opening1 : Dev := opening.dev.kick 0 0
def opOf (d : Dev) : TileOp := ((d.eng 0).current 0).getD mvmOp
def opening2 : Dev := (opening1.setEng 0 ((opening1.eng 0).setOp (opOf opening1))).kick 0 0
def sought : Option NextConv × TileOp × Nat :=
  opening2.seek 0 ((((opening2.eng 0).workOf 1).bad).getD []) (heldFor (opening2.slot 0 0) (opOf opening2)) (seekFuel mvmWord)
    (opOf opening2) 0
def next0 : NextConv := { comp := 0, p := 0, q := 0, v := 0, segs := [List.replicate 64 (-1)] }

theorem witness_TilesConvert :
    (∃ (s : State) (e t : Nat), s.on ∧ e < 32 ∧ t < 4 ∧ (s.dev.eng e).issueq = [] ∧ (s.dev.slot e t).state = .idle ∧
      (s.dev.slot e t).stale = false) ∧
    (∃ (s : State) (e t : Nat) (r : Reload), s.on ∧ e < 32 ∧ t < 4 ∧ (s.dev.eng e).issueq = [] ∧
      (s.dev.slot e t).reload = some r ∧ r.kind = .ret ∧ reloadDue r.rows.length r.t0 s.dev.aon = true ∧
      (s.dev.slot e t).stale = false ∧ (s.dev.eng e).promo = none) ∧
    (∃ (s : State) (e t f w : Nat) (st : TileState) (o : TileOp), s.on ∧ e < 32 ∧ t < 4 ∧ (s.dev.eng e).current t = some o ∧
      o.waitFrom = some (st, f) ∧ (s.dev.slot e t).st = st ∧ (st ≠ .idle ∨ s.dev.inForced (e / 8) (detourTc + 1) = true) ∧
      s.dev.tileWait e = some w ∧ f + w ≤ s.dev.time ∧ (∀ q ∈ (s.dev.eng e).issueq, q.op = 1 → o.num < q.num)) ∧
    (∃ (s : State) (e t lag : Nat) (o o2 o3 : TileOp) (n : NextConv) (k : Nat) (d1 d2 : Dev), s.on ∧ e < 32 ∧ t < 4 ∧ lag < 4 ∧
      d1 = s.dev.kick e t ∧ (d1.eng e).current t = some o ∧ o.begun = true ∧ 2 ≤ o.op ∧ mvQuiet o.word = false ∧
      (d1.slot e t).st = .idle ∧ (d1.slot e t).reload = none ∧ holds (d1.slot e t) o = true ∧
      (o.opened = true ∨ (d1.slot e t).rate = d1.rf .TILE_CFG 0 2 e t) ∧
      (d1.eng e).uncheckedLoad (mvTmask o.word) o.num = false ∧ d2 = (d1.setEng e ((d1.eng e).setOp o)).kick e t ∧
      (d2.eng e).current t = some o2 ∧ o2.num = o.num ∧
      d2.seek e ((((d2.eng e).workOf o2.num).bad).getD []) (heldFor (d2.slot e t) o2) (seekFuel o2.word) o2 0 = (some n, o3,
      k) ∧ holds (d2.slot e t) o3 = true ∧ (d2.slot e t).reload = none ∧
      (n.comp ≠ 2 ∨ ((d2.eng e).setOp o3).pairBehind o3 n.p = false) ∧
      (((d2.eng e).workOf o3.num).rateOk = true ∨ d2.rateOk e o3 = true) ∧
      (d2.mayOpen e t (if mvArr o3.word then 2 ^ mvKlog o3.word else n.segs.length)).1 = true) ∧
    (∃ (s : State) (e t : Nat) (errs : List Int) (w : Win) (ws : List Win) (c : Conv), s.on ∧ e < 32 ∧ t < 4 ∧
      (s.dev.slot e t).wins = w :: ws ∧ tfind (s.dev.slot e t).convs w.cid = some c ∧ w.reading = 0 ∧ c.readings = [(0,
      { openWins := 1 })] ∧ c.want = 1 ∧ c.mac = none ∧ mvThrM c.word = 0 ∧ (∀ i,
      i < 64 → (codeOf (256 * c.chargeOf i w.lo w.n + s.dev.ditherCharge c w + errs.getD i 0 - s.dev.zeroShift c.ptile (tget
      w.gains i 0) i) (tget w.gains i 0)).2 = none)) ∧
    (∃ (s : State) (e t : Nat) (w : Win) (ws : List Win), s.on ∧ e < 32 ∧ t < 4 ∧ (s.dev.slot e t).reruns = w :: ws ∧
      (s.dev.mayOpen e t w.n true).1 = true) ∧
    (∃ (s : State) (e t : Nat) (w : Win) (ws : List Win), s.on ∧ e < 32 ∧ t < 4 ∧ (s.dev.slot e t).rereads = w :: ws ∧
      (s.dev.mayOpen e t w.n true).1 = true) :=
  ⟨⟨slot0 id, 0, 0, by decide +kernel⟩,
    ⟨up fun d => Dev.setEng { d with aon := 1000 } 0 ((d.eng 0).setSlot 0
      { reload := some { kind := .ret, rows := [(63, [1])] } }), 0, 0, { kind := .ret, rows := [(63, [1])] },
      by decide +kernel⟩,
    ⟨up fun d => Dev.setEng { d with time := 300 * 1966080 } 0
      { (d.eng 0).setSlot 0 { st := .acquiring } with issueq := [waitingOp] }, 0, 0, 0, 39322, .acquiring, waitingOp,
      by decide +kernel⟩,
    ⟨opening, 0, 0, 0, opOf opening1, opOf opening2, sought.2.1, next0, sought.2.2, opening1, opening2, by decide +kernel⟩,
    ⟨slot0 (fun t => { t with wins := [win0], convs := [(3, conv0)] }), 0, 0, [], win0, [], conv0, by decide +kernel⟩,
    ⟨slot0 (fun t => { t with reruns := [win0] }), 0, 0, win0, [], by decide +kernel⟩,
    ⟨slot0 (fun t => { t with rereads := [win0] }), 0, 0, win0, [], by decide +kernel⟩⟩

theorem witness_MacArrayJobs :
    (∃ (s : State) (e : Nat), s.on ∧ e < 32 ∧ inPause (s.dev.throttle (e / 8)) (chipPos s.dev.time 0) = false ∧
      (∃ j ∈ (s.dev.eng e).macq, (s.dev.eng e).macReady j = true)) ∧
    (∃ (s : State) (e : Nat), s.on ∧ e < 32 ∧ (∃ j ∈ (s.dev.eng e).macq, j.started.isSome = true ∧ j.kind = 1) ∧
      (∀ o ∈ (s.dev.eng e).issueq, o.op = 1 → ((s.dev.eng e).workOf o.num).formed = true)) ∧
    (∃ (s : State) (e : Nat), s.on ∧ e < 32 ∧ (∃ j ∈ (s.dev.eng e).macq, j.started.isSome = true ∧ j.kind ≠ 1) ∧
      (∀ o ∈ (s.dev.eng e).issueq, o.op = 1 → ((s.dev.eng e).workOf o.num).formed = true)) :=
  ⟨⟨macJob 4 (.dmm 0 0 0) none, 0, by decide +kernel⟩,
    ⟨macJob 1 (.split 0 0 0 0 1 0) (some 0), 0, by decide +kernel⟩,
    ⟨macJob 4 (.dmm 0 0 0) (some 0), 0, by decide +kernel⟩⟩

theorem witness_DeliveriesAndVectors :
    (∃ (s : State) (e : Nat) (q : Delivery) (qs : List Delivery) (k : Nat) (a : Area), s.on ∧ e < 32 ∧
      (s.dev.eng e).delq = q :: qs ∧ (s.dev.eng e).areaBusy q.aid q.num = false ∧ (s.dev.eng e).areaOf q.aid = some (k, a)) ∧
    (∃ (s : State) (e i : Nat) (j : VecJob), s.on ∧ e < 32 ∧ i < 2 ∧ (s.dev.eng e).vecq[i]? = some j ∧
      (∀ k ∈ (s.dev.eng e).vecq.take (i + 1), k.kind = .vec)) :=
  ⟨⟨engine (fun x => { x with delq := [freeOf1], areas := [(0, area1)] }), 0, freeOf1, [], 0, area1, by decide +kernel⟩,
    ⟨engine (fun x => { x with vecq := [⟨1, .vec, wordOf [5]⟩, ⟨2, .vec, wordOf [5]⟩] }), 0, 1, ⟨2, .vec, wordOf [5]⟩,
      by decide +kernel⟩⟩

/-! ### Witnesses: task words -/

/-- The run that has seen Milestone 5. -/
def run5 : Run := { run0 with released := [5] }
def set0 : WSet := { num := 1, complex := false, dw := 1, spread := false, tmask := 1, planes := none, sparse := none }
def withArea (x : Engine) : Engine := { x.setSlot 0 { st := .idle, wset := some set0 } with areas := [(0, area1)] }
def armWord : List Nat := [9, 0, 0, 0, 7, 0, 0, 0, 0, 0x20]
def arming : State := up fun d =>
  Dev.setEng { d with mem := Memory.writeBytes (memAt 0x1000 (by8 armWord)) 0x2000 desc0 } 0
    { d.eng 0 with st := .running, run := some run0, pc := 0x1000 }
def routeWord : List Nat := [7, 0, 0, 0, 1, 0, 1, 0, 1, 0, 5]
def exitWord : List Nat := [8, 0, 0, 0, 0, 0, 1, 0, 0, 0, 0, 0, 0, 0, 0x80, 0x3F]
def routeJob : VecJob := ⟨1, .route, wordOf routeWord⟩
def exitJob : VecJob := ⟨1, .exit, wordOf exitWord⟩
/-- A join stands behind the ROUTE that is evaluated. -/
def joining : State := up fun d =>
  Dev.setEng { d with mem := memAt 0x1020 (by8 [0, 1, 5]) } 0
    { d.eng 0 with st := .running, run := some run0, pc := 0x1000, hold := .routeEval, vecq := [routeJob], mask := 0xF0#256 }
def holding (h : Hold) : State := engine fun x => { x with hold := h }
/-- The same 1 µs on. -/
def heldLong (h : Hold) : State := st fun _ => { (holding h).dev with time := usTc 1 }
/-- Engine 0 has fetched the LOCKSEQ it is about to decode. -/
def locking (bs : List Nat) (f : Dev → Dev := id) : State :=
  st fun _ => f (decoding bs (fun x => { x with fetched := [wordOf bs] })).dev
def sig0 : SigEntry := ⟨1, wordOf [11], 0x5FFFFFFFF8, 0⟩
def plc0 : Placement := { run0.plc with anchor := some 4 }
def dueRun : Run := { run0 with plc := { run0.plc with deadline := some 0, dhit := some 0 } }

theorem witness_TaskWordsQueueWork :
    (∃ (s : State) (e : Nat) (r : Run) (w : Tw), s.on ∧ e < 32 ∧ s.dev.wordReady e r w ∧ twOp w = 0) ∧
    (∃ (s : State) (e : Nat) (r : Run) (w : Tw), s.on ∧ e < 32 ∧ s.dev.wordReady e r w ∧ twOp w = 1 ∧
      (s.dev.decoded e w).unboundErr e (tilesOf (ldTmask w) (ldDw w) (ldSpread w)) = false) ∧
    (∃ (i : Instr) (s : State) (e : Nat) (r : Run) (w : Tw) (a : Area), s.on ∧ e < 32 ∧ s.dev.wordReady e r w ∧ ((i = .mvm e ∧
      twOp w = 2) ∨ (i = .mvmc e ∧ twOp w = 3)) ∧ tfind (s.dev.eng e).areas (mvArea w) = some a ∧
      (mvSens w = true → (s.dev.eng e).macJobs < 8) ∧
      (mvSens w = false → (s.dev.decoded e w).unboundErr e (tilesOf (mvTmask w) (mvDw w) (mvSpread w && twOp w = 2)) = false)) ∧
    (∃ (s : State) (e : Nat) (r : Run) (w : Tw), s.on ∧ e < 32 ∧ s.dev.wordReady e r w ∧ twOp w = 4 ∧ dmDest w = true ∧
      (s.dev.eng e).macJobs < 8) ∧
    (∃ (s : State) (e : Nat) (r : Run) (w : Tw) (a : Area), s.on ∧ e < 32 ∧ s.dev.wordReady e r w ∧ twOp w = 4 ∧
      dmDest w = false ∧ tfind (s.dev.eng e).areas (dmArea w) = some a ∧ (s.dev.eng e).macJobs < 8) ∧
    (∃ (s : State) (e : Nat) (r : Run) (w : Tw), s.on ∧ e < 32 ∧ s.dev.wordReady e r w ∧ twOp w = 5 ∧
      (s.dev.eng e).vecq.length < 8) ∧
    (∃ (s : State) (e : Nat) (r : Run) (w : Tw) (b : Nat), s.on ∧ e < 32 ∧ s.dev.wordReady e r w ∧ twOp w = 6 ∧ acAct w = 0 ∧
      (s.dev.eng e).findRows (acRows w) = some b ∧ tfind (s.dev.eng e).areas (acArea w) = none ∧
      (s.dev.eng e).areas.length < 16) ∧
    (∃ (s : State) (e : Nat) (r : Run) (w : Tw) (a : Area), s.on ∧ e < 32 ∧ s.dev.wordReady e r w ∧ twOp w = 6 ∧
      (acAct w = 1 ∨ acAct w = 3) ∧ tfind (s.dev.eng e).areas (acArea w) = some a ∧ (s.dev.eng e).delq.length < 4) ∧
    (∃ (s : State) (e : Nat) (r : Run) (w : Tw) (a : Area), s.on ∧ e < 32 ∧ s.dev.wordReady e r w ∧ twOp w = 6 ∧ acAct w = 2 ∧
      tfind (s.dev.eng e).areas (acArea w) = some a ∧ (∀ q ∈ (s.dev.eng e).delq, q.aid ≠ a.aid)) ∧
    (∃ (s : State) (e : Nat) (r : Run) (w : Tw), s.on ∧ e < 32 ∧ s.dev.wordReady e r w .queueFull ∧ twOp w = 5 ∧
      (s.dev.eng e).vecq.length < 8) ∧
    (∃ (s : State) (e : Nat) (r : Run) (w : Tw) (b : Nat), s.on ∧ e < 32 ∧ s.dev.wordReady e r w .areaWait ∧ twOp w = 6 ∧
      acAct w = 0 ∧ (s.dev.eng e).findRows (acRows w) = some b ∧ tfind (s.dev.eng e).areas (acArea w) = none ∧
      (s.dev.eng e).areas.length < 16) :=
  ⟨⟨decoding [], 0, run0, wordOf [], by decide +kernel⟩,
    ⟨decoding [1, 0, 0, 0, 15, 0, 0, 63], 0, run0, wordOf [1, 0, 0, 0, 15, 0, 0, 63], by decide +kernel⟩,
    ⟨.mvm 0, decoding [2, 0, 0, 0, 1, 0, 0, 0, 0, 0, 0, 0, 0, 0, 0, 0, 32, 0, 0, 0, 2] withArea, 0, run0, wordOf [2, 0, 0, 0, 1,
      0, 0, 0, 0, 0, 0, 0, 0, 0, 0, 0, 32, 0, 0, 0, 2], area1, by decide +kernel⟩,
    ⟨decoding [4, 0, 0, 0, 0, 1, 1, 0, 1, 0, 1], 0, run0, wordOf [4, 0, 0, 0, 0, 1, 1, 0, 1, 0, 1], by decide +kernel⟩,
    ⟨decoding [4, 0, 0, 0, 0, 0, 1, 0, 1, 0, 1] withArea, 0, run0, wordOf [4, 0, 0, 0, 0, 0, 1, 0, 1, 0, 1], area1,
      by decide +kernel⟩,
    ⟨decoding [5], 0, run0, wordOf [5], by decide +kernel⟩,
    ⟨decoding [6, 0, 0, 0, 0, 0, 0, 0, 1], 0, run0, wordOf [6, 0, 0, 0, 0, 0, 0, 0, 1], 0, by decide +kernel⟩,
    ⟨decoding [6, 0, 0, 0, 3, 0, 0, 0, 0, 0, 0, 0, 0, 0, 0, 0, 0, 0, 0, 0, 0, 2] withArea, 0, run0, wordOf [6, 0, 0, 0, 3, 0, 0,
      0, 0, 0, 0, 0, 0, 0, 0, 0, 0, 0, 0, 0, 0, 2], area1, by decide +kernel⟩,
    ⟨decoding [6, 0, 0, 0, 2] withArea, 0, run0, wordOf [6, 0, 0, 0, 2], area1, by decide +kernel⟩,
    ⟨decoding [5] (fun x => { x with hold := .queueFull }), 0, run0, wordOf [5], by decide +kernel⟩,
    ⟨decoding [6, 0, 0, 0, 0, 0, 0, 0, 1] (fun x => { x with hold := .areaWait }), 0, run0, wordOf [6, 0, 0, 0, 0, 0, 0, 0, 1],
      0, by decide +kernel⟩⟩

theorem witness_BarrierTaskWords :
    (∃ (i : Instr) (s : State) (e : Nat) (r : Run) (w : Tw), s.on ∧ e < 32 ∧ s.dev.wordReady e r w ∧ ((i = .route e ∧
      twOp w = 7) ∨ (i = .exit e ∧ twOp w = 8)) ∧ (s.dev.eng e).vecq.length < 8) ∧
    (∃ (i : Instr) (s : State) (e : Nat) (r : Run) (w : Tw), s.on ∧ e < 32 ∧ s.dev.wordReady e r w ∧ ((i = .route e ∧
      twOp w = 7) ∨ (i = .exit e ∧ twOp w = 8)) ∧ (s.dev.eng e).vecq.length < 8) ∧
    (∃ (s : State) (e : Nat) (r : Run) (w : Tw), s.on ∧ e < 32 ∧ s.dev.wordReady e r w ∧ twOp w = 9 ∧ arRearm w = false ∧
      usableRange (s.dev.localAddr (biased w r.plc.bias)) 96 = true) ∧
    (∃ (s : State) (e : Nat) (r : Run) (w : Tw), s.on ∧ e < 32 ∧ s.dev.wordReady e r w ∧ twOp w = 10 ∧
      (wmMode w && r.released.contains (wmMsid w)) = false) ∧
    (∃ (s : State) (e : Nat) (r : Run) (w : Tw), s.on ∧ e < 32 ∧ s.dev.wordReady e r w ∧ twOp w = 10 ∧ wmMode w = true ∧
      wmMsid w ∈ r.released) ∧
    (∃ (s : State) (e : Nat) (r : Run) (w : Tw), s.on ∧ e < 32 ∧ s.dev.wordReady e r w ∧ twOp w = 11 ∧
      (s.dev.eng e).sigq.length < 4) ∧
    (∃ (s : State) (e : Nat) (r : Run) (w : Tw), s.on ∧ e < 32 ∧ s.dev.wordReady e r w ∧ twOp w = 12 ∧
      (fnPoll w || (s.dev.decoded e w).fenceBusy e (s.dev.eng e).nextNum (fnScope w)) = true) ∧
    (∃ (s : State) (e : Nat) (r : Run) (w : Tw), s.on ∧ e < 32 ∧ s.dev.wordReady e r w ∧ twOp w = 13 ∧ lkClose w = false) ∧
    (∃ (s : State) (e : Nat) (r : Run) (w : Tw) (l : TLock), s.on ∧ e < 32 ∧ s.dev.wordReady e r w ∧ twOp w = 13 ∧
      lkClose w = true ∧ (s.dev.tg (lkTg w)).lock = some l) ∧
    (∃ (s : State) (e : Nat) (r : Run) (q : VecJob) (qs : List VecJob), s.on ∧ e < 32 ∧ (s.dev.eng e).run = some r ∧
      (s.dev.eng e).hold = .routeEval ∧ (s.dev.eng e).vecq = q :: qs ∧ q.kind = .route ∧ twEnd q.word = false ∧
      (s.dev.eng e).pc + 64 ≤ r.plc.list + 32 * maxWords ∧ (∀ i, i < rtNitem q.word → (s.dev.eng e).mask.getLsbD i = false) ∧
      usableRange ((s.dev.eng e).pc + 32) 32 = true ∧ twLbl (s.dev.twAt ((s.dev.eng e).pc + 32)) = true ∧
      twLabel (s.dev.twAt ((s.dev.eng e).pc + 32)) = rtJoin q.word) ∧
    (∃ (s : State) (e : Nat) (r : Run) (q : VecJob) (qs : List VecJob), s.on ∧ e < 32 ∧ (s.dev.eng e).run = some r ∧
      (s.dev.eng e).hold = .exitEval ∧ (s.dev.eng e).vecq = q :: qs ∧ q.kind = .exit ∧ twEnd (s.dev.eng e).cur = false ∧
      twRet (s.dev.eng e).cur = false ∧ exNitem q.word ≤ 256 ∧ (∃ i, i < exNitem q.word ∧ (s.dev.eng e).mask.getLsbD i = true ∧
      fp32Ge (tget (s.dev.eng e).conf i 0) (exThr q.word) = false)) ∧
    (∃ (s : State) (e n sc a v t i : Nat), s.on ∧ e < 32 ∧ (s.dev.eng e).hold = .fence n sc true a v t i false ∧
      s.dev.isLocal a = true ∧ usableRange (globalLocal a) 8 = true ∧ s.dev.poisoned (globalLocal a) 8 = false) ∧
    (∃ (i : Instr) (s : State) (e op : Nat) (r : Run), s.on ∧ e < 32 ∧ (s.dev.eng e).run = some r ∧ r.fail = none ∧ ((∃ m t f,
      i = .waitmTimeout e ∧ op = 0x0A ∧ (s.dev.eng e).hold = .waitm m t f ∧ t ≠ 0 ∧ f + usTc t ≤ s.dev.time) ∨ (∃ n sc a v t f,
      i = .fenceTimeout e ∧ op = 0x0C ∧ (s.dev.eng e).hold = .fence n sc true a v t f false ∧ t ≠ 0 ∧
      f + usTc t ≤ s.dev.time) ∨ (∃ c n t f, i = .lockseqTimeout e ∧ op = 0x0D ∧ (s.dev.eng e).hold = .lock c n t f ∧ t ≠ 0 ∧
      f + usTc t ≤ s.dev.time))) ∧
    (∃ (i : Instr) (s : State) (e op : Nat) (r : Run), s.on ∧ e < 32 ∧ (s.dev.eng e).run = some r ∧ r.fail = none ∧ ((∃ m t f,
      i = .waitmTimeout e ∧ op = 0x0A ∧ (s.dev.eng e).hold = .waitm m t f ∧ t ≠ 0 ∧ f + usTc t ≤ s.dev.time) ∨ (∃ n sc a v t f,
      i = .fenceTimeout e ∧ op = 0x0C ∧ (s.dev.eng e).hold = .fence n sc true a v t f false ∧ t ≠ 0 ∧
      f + usTc t ≤ s.dev.time) ∨ (∃ c n t f, i = .lockseqTimeout e ∧ op = 0x0D ∧ (s.dev.eng e).hold = .lock c n t f ∧ t ≠ 0 ∧
      f + usTc t ≤ s.dev.time))) ∧
    (∃ (i : Instr) (s : State) (e op : Nat) (r : Run), s.on ∧ e < 32 ∧ (s.dev.eng e).run = some r ∧ r.fail = none ∧ ((∃ m t f,
      i = .waitmTimeout e ∧ op = 0x0A ∧ (s.dev.eng e).hold = .waitm m t f ∧ t ≠ 0 ∧ f + usTc t ≤ s.dev.time) ∨ (∃ n sc a v t f,
      i = .fenceTimeout e ∧ op = 0x0C ∧ (s.dev.eng e).hold = .fence n sc true a v t f false ∧ t ≠ 0 ∧
      f + usTc t ≤ s.dev.time) ∨ (∃ c n t f, i = .lockseqTimeout e ∧ op = 0x0D ∧ (s.dev.eng e).hold = .lock c n t f ∧ t ≠ 0 ∧
      f + usTc t ≤ s.dev.time))) ∧
    (∃ (s : State) (e : Nat) (q : SigEntry) (qs : List SigEntry), s.on ∧ e < 32 ∧ (s.dev.eng e).sigq = q :: qs ∧
      (∀ p ∈ (s.dev.eng e).live, q.num ≤ p.1) ∧ (∀ x ∈ s.dev.peers.xfers, x.for_ ≠ .signal e q.num) ∧ sgKind q.word = 0 ∧
      s.dev.isLocal q.addr = true ∧ globalLocal q.addr + 8 ≤ 0x6000000000) :=
  ⟨⟨.route 0, decoding routeWord, 0, run0, wordOf routeWord, by decide +kernel⟩,
    ⟨.exit 0, decoding exitWord, 0, run0, wordOf exitWord, by decide +kernel⟩,
    ⟨arming, 0, run0, wordOf armWord, by decide +kernel⟩,
    ⟨decoding [10], 0, run0, wordOf [10], by decide +kernel⟩,
    ⟨decoding [10, 0, 0, 0, 5, 16] (fun x => { x with run := some run5 }), 0, run5, wordOf [10, 0, 0, 0, 5, 16],
      by decide +kernel⟩,
    ⟨decoding [11, 0, 0, 0, 0, 0, 0, 0, 0, 0x20], 0, run0, wordOf [11, 0, 0, 0, 0, 0, 0, 0, 0, 0x20], by decide +kernel⟩,
    ⟨decoding [12, 0, 0, 0, 16], 0, run0, wordOf [12, 0, 0, 0, 16], by decide +kernel⟩,
    ⟨locking [13, 0, 0, 0, 14, 53], 0, run0, wordOf [13, 0, 0, 0, 14, 53], by decide +kernel⟩,
    ⟨locking [13, 0, 0, 0, 1] (fun d => d.setTg 0 { lock := some ⟨0, 0, 0, false⟩ }), 0, run0, wordOf [13, 0, 0, 0, 1], ⟨0, 0,
      0, false⟩, by decide +kernel⟩,
    ⟨joining, 0, run0, routeJob, [], by decide +kernel⟩,
    ⟨engine (fun x => { x with hold := .exitEval, vecq := [exitJob], cur := wordOf exitWord }), 0, run0, exitJob, [],
      by decide +kernel⟩,
    ⟨holding (.fence 1 0 true 0x2000 5 0 0 false), 0, 1, 0, 0x2000, 5, 0, 0, by decide +kernel⟩,
    ⟨.waitmTimeout 0, heldLong (.waitm 3 1 0), 0, 0x0A, run0, ⟨rfl, by decide, rfl, rfl, .inl ⟨3, 1, 0, rfl, rfl, rfl,
      by decide, by decide⟩⟩⟩,
    ⟨.fenceTimeout 0, heldLong (.fence 1 0 true 0x2000 5 1 0 false), 0, 0x0C, run0, ⟨rfl, by decide, rfl, rfl, .inr (.inl ⟨1, 0,
      0x2000, 5, 1, 0, rfl, rfl, rfl, by decide, by decide⟩)⟩⟩,
    ⟨.lockseqTimeout 0, heldLong (.lock 7 53 1 0), 0, 0x0D, run0, ⟨rfl, by decide, rfl, rfl, .inr (.inr ⟨7, 53, 1, 0, rfl, rfl,
      rfl, by decide, by decide⟩)⟩⟩,
    ⟨engine (fun x => { x with sigq := [sig0] }), 0, sig0, [], by decide +kernel⟩⟩

theorem witness_Lists :
    (∃ (s : State) (e : Nat) (p : Placement) (ps : List Placement) (a : Nat), s.on ∧ e < 32 ∧ (s.dev.eng e).run = none ∧
      (s.dev.eng e).promo = none ∧ (s.dev.eng e).st = .idle ∧ (s.dev.eng e).placed = p :: ps ∧ p.anchor = some a) ∧
    (∃ (s : State) (e : Nat) (r : Run), s.on ∧ e < 32 ∧ (s.dev.eng e).run = some r ∧ r.ended = true ∧ r.fail = none ∧
      (s.dev.eng e).hold = .none ∧ (s.dev.eng e).live = [] ∧ (s.dev.eng e).st = .running ∧ (s.dev.eng e).rdwkSeen = false ∧
      r.plc.mbx < 8 ∧ (s.dev.mb r.plc.mbx).evq.length ≤ 254) ∧
    (∃ (s : State) (e : Nat) (r : Run) (t : Nat), s.on ∧ e < 32 ∧ (s.dev.eng e).run = some r ∧ s.dev.deadlineOf r.plc = some t ∧
      t ≤ s.dev.time + usTc (s.dev.rf .TG_CLSCFG 0 16)) :=
  ⟨⟨engine (fun x => { x with run := none, st := .idle, placed := [plc0] }), 0, plc0, [], 4, by decide +kernel⟩,
    ⟨engine (fun x => { x with run := some { run0 with ended := true } }), 0, { run0 with ended := true }, by decide +kernel⟩,
    ⟨engine (fun x => { x with run := some dueRun }), 0, dueRun, 0, by decide +kernel⟩⟩

/-! ### Witnesses: Tollgates, memory and streams -/

def batch0 : Batch := { mask := 1, data := [9], first := 0 }
def lagDesc : Desc := { readDesc with forkn := 1, slack := 1, members := [(0, 4)] }
def elem0 : Elem := { no := 0, ts := 0, addr := 0, len := 64, data := List.replicate 64 1 }
def joined0 : Member := { joined := true }
/-- A context that waits with more than its reserve, the watchdog running. -/
def spilling : State := ctx0 { st := .waitPool, desc := readDesc, pool := 8192 } fun d =>
  { d.setReg .STRM_SPILL_LO 0x100 with time := usTc 100, str := { d.str with wdogFrom := some 0 } }
def fhIn : Ctx := { st := .active, desc := { readDesc with kind := 3 }, pass := some (-1), frontier := 64, prog := 1 }
def tg53 (f : Tollgate → Tollgate) : State := up fun d => d.setTg 53 (f (d.tg 53))

theorem witness_TollgatesAndDram :
    (∃ (s : State) (n w : Nat), s.on ∧ 16 ≤ n ∧ n < 54 ∧ w < 0x14A ∧ (s.dev.tg n).lock = none ∧ (s.dev.tg n).parked = [] ∧
      (s.dev.tg n).presented = [] ∧ (s.dev.tg n).held.length < (tgPort n).2 ∧ s.dev.tgFrozen n = false ∧
      w ∉ (s.dev.tg n).masked ∧ (w = 0x149 → ∀ r ∈ s.dev.rgs, r.2.records = [])) ∧
    (∃ (s : State) (n : Nat), s.on ∧ n < 54 ∧ (s.dev.tg n).cycle % s.dev.tgWindow n = 0) ∧
    (∃ (s : State) (n : Nat) (l : TLock) (r : Run), s.on ∧ n < 54 ∧ (s.dev.tg n).lock = some l ∧
      l.opened + s.dev.tgWd n ≤ (s.dev.tg n).cycle ∧ (s.dev.eng (l.owner / 8)).run = some r ∧ r.fail = none) ∧
    (∃ (s : State) (k : Nat), s.on ∧ k ≤ 8 ∧ s.dev.rf .STRM_SCRUB 31 1 = 1 ∧ s.dev.cp.dramReady = true ∧
      s.dev.str.scrubReq = 2 ∧ s.dev.str.scrubNext + 1 < scrubBlocks) ∧
    (∃ (s : State) (a who : Nat), s.on ∧ a < 0x6000000000 ∧ who < 0x14A) ∧
    (∃ (s : State) (a who k : Nat), s.on ∧ a < 0x6000000000 ∧ who < 0x14A ∧ 0 < k ∧ k ≤ 8 ∧ s.dev.str.writeBack.length < 64) :=
  ⟨⟨tg53 (fun t => { t with held := [1, 2, 3] }), 53, 0x149, by decide +kernel⟩,
    ⟨tg53 (fun t => { t with masked := [3], cycle := 4096 }), 53, by decide +kernel⟩,
    ⟨up (fun d => (d.setTg 0 { lock := some ⟨255, 0, 64, false⟩, cycle := 0x100000 }).setEng 31
      { st := .running, run := some run0 }), 0, ⟨255, 0, 64, false⟩, run0, by decide +kernel⟩,
    ⟨up (fun d => { d.setReg .STRM_SCRUB 0x80000000 with str := { d.str with scrubReq := 2 } }), 8, by decide +kernel⟩,
    ⟨up, 0x5FFFFFFFFF, 0x149, by decide +kernel⟩,
    ⟨up, 0, 0, 8, by decide +kernel⟩⟩

theorem witness_StreamsMove :
    (∃ (s : State) (n : Nat), s.on ∧ n < 288 ∧ (s.dev.ctx n).moves = true ∧ (s.dev.ctx n).desc.kind = 0 ∧
      (s.dev.ctx n).issued < (s.dev.ctx n).desc.total ∧ s.dev.readWait n = .active ∧
      s.dev.isLocal ((s.dev.ctx n).desc.addr (s.dev.ctx n).issued) = true) ∧
    (∃ (s : State) (n : Nat), s.on ∧ n < 288 ∧ (s.dev.ctx n).moves = true ∧ (s.dev.ctx n).desc.kind = 0 ∧
      (s.dev.ctx n).issued < (s.dev.ctx n).desc.total ∧ (s.dev.readWait n = .waitGate ∨ s.dev.readWait n = .waitPool)) ∧
    (∃ (s : State) (n : Nat), s.on ∧ n < 288 ∧ (s.dev.ctx n).moves = true ∧ (s.dev.ctx n).desc.kind = 0 ∧
      (s.dev.ctx n).issued < (s.dev.ctx n).desc.total ∧ (s.dev.readWait n = .waitGate ∨ s.dev.readWait n = .waitPool)) ∧
    (∃ (s : State) (n : Nat), s.on ∧ n < 256 ∧ (s.dev.ctx n).moves = true ∧ (s.dev.ctx n).desc.kind = 0 ∧
      (s.dev.ctx n).issueTs ≠ [] ∧ (s.dev.ctx n).members = [] ∧
      s.dev.isLocal ((s.dev.ctx n).desc.addr (s.dev.ctx n).prog) = true ∧
      globalLocal ((s.dev.ctx n).desc.addr (s.dev.ctx n).prog) + (s.dev.ctx n).desc.esize ≤ 0x6000000000 ∧
      s.dev.poisoned (globalLocal ((s.dev.ctx n).desc.addr (s.dev.ctx n).prog)) (s.dev.ctx n).desc.esize = false) ∧
    (∃ (s : State) (n ready : Nat), s.on ∧ n < 256 ∧ (s.dev.ctx n).moves = true ∧ (s.dev.ctx n).desc.kind = 1 ∧
      s.dev.isLocal ((s.dev.ctx n).desc.addr (s.dev.ctx n).prog) = true ∧ (s.dev.ctx n).prog < (s.dev.ctx n).desc.total ∧
      globalLocal ((s.dev.ctx n).desc.addr (s.dev.ctx n).prog) + (s.dev.ctx n).desc.esize ≤ 0x6000000000 ∧
      s.dev.space n = some ready ∧ (s.dev.ctx n).desc.esize ≤ ready ∧ s.dev.writeRoom n (s.dev.ctx n).desc.esize = true) ∧
    (∃ (s : State) (n ready : Nat), s.on ∧ n < 288 ∧ (s.dev.ctx n).st = .waitSpace ∧ (s.dev.ctx n).desc.kind = 1 ∧
      s.dev.space n = some ready ∧ (s.dev.ctx n).desc.esize ≤ ready ∧ s.dev.writeRoom n (s.dev.ctx n).desc.esize = true) :=
  ⟨⟨ctx0 { st := .active, desc := readDesc }, 0, by decide +kernel⟩,
    ⟨ctx0 { st := .active, desc := { readDesc with gateEn := true } }, 0, by decide +kernel⟩,
    ⟨ctx0 { st := .active, desc := readDesc, pool := 4096 } (fun d =>
      d.setCtx 1 { st := .active, desc := readDesc, pool := 2 ^ 24 }), 0, by decide +kernel⟩,
    ⟨ctx0 { st := .waitSpace, desc := readDesc, issued := 1, issueTs := [0], pool := 64 }, 0, by decide +kernel⟩,
    ⟨ctx0 { st := .active, desc := writeDesc }, 0, 128, by decide +kernel⟩,
    ⟨ctx0 { st := .waitSpace, desc := writeDesc }, 0, 128, by decide +kernel⟩⟩

theorem witness_StreamPassesAndForks :
    (∃ (s : State) (n : Nat), s.on ∧ n < 256 ∧ (s.dev.ctx n).moves = true ∧ s.dev.passDone n = true) ∧
    (∃ (s : State) (n : Nat), s.on ∧ n < 256 ∧ (s.dev.ctx n).moves = true ∧ s.dev.passDone n = true) ∧
    (∃ (s : State) (n b : Nat), s.on ∧ n < 288 ∧ (s.dev.ctx n).st = .passEnd ∧ (s.dev.ctx n).rearm = some b ∧
      (256 ≤ n ∨ (s.dev.ctx n).members = [])) ∧
    (∃ (s : State) (n t : Nat), s.on ∧ s.dev.str.wdogFrom = some t ∧ s.dev.rf .STRM_CFG 0 16 ≠ 0 ∧
      t + usTc (s.dev.rf .STRM_CFG 0 16) ≤ s.dev.time ∧ s.dev.spillVictim = some n ∧
      (Dev.spillElems { s.dev with str := { s.dev.str with wdogFrom := some s.dev.time } } n).isSome = true) ∧
    (∃ (s : State) (n : Nat), s.on ∧ n < 288 ∧ (s.dev.ctx n).st = .spilled ∧ (s.dev.ctx n).arrived = [] ∧
      (∀ t ∈ s.dev.peers.xfers, ∀ a, t.spill = some a → s.dev.poisoned a t.len = false) ∧ (s.dev.spilledOf n).foldl (fun k x =>
      k + x.2) 0 ≤ s.dev.sharedFree + ((s.dev.ctx n).desc.resv * 4096 - (s.dev.ctx n).pool)) ∧
    (∃ (s : State) (f : Nat) (q : Int), s.on ∧ f < 32 ∧ (s.dev.ctx (256 + f)).st = .active ∧
      (s.dev.ctx (256 + f)).desc.kind = 3 ∧ (∀ m ∈ (s.dev.ctx (256 + f)).desc.members, m.2 < 256) ∧
      (s.dev.ctx (256 + f)).pass = some q ∧ q < s.dev.slotNumber (s.dev.ctx (256 + f)).desc.ct s.dev.time) ∧
    (∃ (s : State) (n c : Nat) (x : Member), s.on ∧ n < 288 ∧ (s.dev.ctx n).members = [x] ∧ s.dev.lagCause n 0 none = some c) ∧
    (∃ (s : State) (n dev p : Nat) (b : Batch), s.on ∧ n < 288 ∧ dev < 4 ∧ tfind (s.dev.ctx n).batches dev = some b ∧
      b.first * 10000 + max 1 (s.dev.rf .PRT_PEER_CFG 0 16) * 1966080 ≤ s.dev.time * 10000 ∧ s.dev.portTo dev = some p) :=
  ⟨⟨ctx0 { st := .active, desc := readDesc, prog := 2, issued := 2 }, 0, by decide +kernel⟩,
    ⟨ctx0 { st := .active, desc := { readDesc with persist := true }, prog := 2, issued := 2 }, 0, by decide +kernel⟩,
    ⟨ctx0 { st := .passEnd, desc := { readDesc with persist := true }, rearm := some 4096, prog := 2 }, 0, 4096,
      by decide +kernel⟩,
    ⟨spilling, 0, 0, by decide +kernel⟩,
    ⟨ctx0 { st := .spilled, spillSt := .waitPool, desc := readDesc, pool := 64, elems := [{ elem0 with spill := some 0 }] }, 0,
      by decide +kernel⟩,
    ⟨up (fun d => d.setCtx 287 fhIn), 31, -1, by decide +kernel⟩,
    ⟨ctx0 { st := .active, desc := lagDesc, members := [joined0], elems := [elem0] } (fun d => { d with time := 2000000 }), 0,
      0, joined0, by decide +kernel⟩,
    ⟨ctx0 { st := .active, desc := lagDesc, batches := [(1, batch0)] } (fun d =>
      { d.setPeer 3 { st := .up, pdev := some 1 } with time := 10 ^ 9 }), 0, 1, 3, batch0, by decide +kernel⟩⟩

/-! ### Witnesses: ports and peers -/

/-- A frame with one eCPRI message of four bytes, and the flow entry that gives port 0's messages of type 0 to context 256. -/
def frame0 : List Byte := by8 (List.replicate 12 0 ++ [0xAE, 0xFE, 0x10, 0, 0, 4, 1, 2, 3, 4])
def msg0 : Ecpri := { typ := 0, data := by8 [1, 2, 3, 4], concat := false }
def fhDesc (kind : Nat) : Desc := { kind, esize := 64, resv := 1, counts := [4], strides := [4096] }
def receiving : State := up fun d =>
  ((({ d with ports := { d.ports with flows := [(0, 8)] } } : Dev).setFh 0 { st := .up, link := true }).setCtx 256
    { st := .active, desc := fhDesc 3, pass := some 0, frontier := 4032 }) 
/-- A record of 60 bytes in the pass buffer of pass 2. -/
def sending : State := up fun d =>
  ({ d with mem := memAt 8192 (by8 (List.replicate 8 0 ++ [60, 0, 7, 1, 0, 0, 0, 0] ++ List.replicate 60 5))
            tl := { d.tl with everLocked := true, state := .locked } } : Dev).setCtx 287
    { st := .active, desc := fhDesc 4, pass := some 0 }
def frameOut : OutFrame := { ctx := 287, send := 0, port := 7, dropLate := true, data := List.replicate 60 5 }
def granted0 : OutFrame := { frameOut with granted := true }
def leaving : State := fhPort { st := .up, link := true } fun d => { d with ports := { d.ports with outq := [granted0] } }
def module7 (x : ModBus) : State := up fun d => d.setMod 7 x
def peer3 (x : Peer) (f : Dev → Dev := id) : State := up fun d => f { d.setPeer 3 x with devnum := some 2 }
def upPeer : Peer := { st := .up, pdev := some 1 }
def lagRemote : Desc := { readDesc with forkn := 1, slack := 1, members := [(1, 4)] }
def forkRx : Desc := { readDesc with kind := 2, persist := true, counts := [], strides := [] }
/-- A transfer of port 3. -/
def xfer (typ : Nat) (f : XferFor) : Xfer := { tag := 5, port := 3, req := 0, dev := 1, typ, addr := 0x8000000000, len := 8, data := [], for_ := f }
def waits (x : Xfer) (f : Dev → Dev := id) : State :=
  peer3 upPeer fun d => f { d with peers := { d.peers with xfers := [x] } }
def refused (x : Xfer) : Xfer := { x with since := some 0, retryAt := some 0 }

theorem witness_FronthaulPorts :
    (∃ (s : State) (p i w n : Nat) (frame : List Byte) (m : Ecpri) (k : Int), s.on ∧ p < 8 ∧ (s.dev.fh p).st = .up ∧
      frame.length ≤ 9212 ∧ (ethOf frame).typ = 0xAEFE ∧
      ecpriSplit 4096 (frame.drop (ethOf frame).off) (frame.length ≤ 60 || ((ethOf frame).vid.isSome && frame.length ≤ 64))
      true = some [m] ∧ s.dev.flowMatch p (ethOf frame) m = some (i, w) ∧ s.dev.flowCtx w = some n ∧
      (s.dev.ctx n).members = [] ∧ 16 + m.data.length ≤ (s.dev.ctx n).desc.esize ∧ (s.dev.ctx n).pass = some k ∧
      (s.dev.ctx n).frontier + alignUp (16 + m.data.length) 64 ≤ (s.dev.ctx n).desc.passBytes ∧
      s.dev.isLocal (((s.dev.ctx n).desc.passBase k + (s.dev.ctx n).frontier) % 2 ^ 64) = true ∧
      globalLocal (((s.dev.ctx n).desc.passBase k + (s.dev.ctx n).frontier) % 2 ^ 64) + alignUp (16 + m.data.length) 64 ≤
      0x6000000000) ∧
    (∃ (s : State) (f base size : Nat) (q : Int) (fs : List OutFrame), s.on ∧ f < 32 ∧ (s.dev.ctx (256 + f)).st = .active ∧
      (s.dev.ctx (256 + f)).desc.kind = 4 ∧ (s.dev.ctx (256 + f)).pass = some q ∧ (s.dev.ctx (256 + f)).issued = 0 ∧
      q < s.dev.slotNumber (s.dev.ctx (256 + f)).desc.ct s.dev.time + 2 ∧ s.dev.timeLocked = true ∧
      base = (s.dev.ctx (256 + f)).desc.passBase (s.dev.slotNumber (s.dev.ctx (256 + f)).desc.ct s.dev.time + 2) ∧
      size = (s.dev.ctx (256 + f)).desc.passBytes ∧ s.dev.isLocal base = true ∧ globalLocal base + size ≤ 0x6000000000 ∧
      readRecords (256 + f) size (s.dev.rdBytes (globalLocal base) size) (fun off len =>
      s.dev.poisoned (globalLocal base + off) len) (size / 64 + 1) 0 [] = (fs, none)) ∧
    (∃ (s : State) (p : Nat) (f : OutFrame), s.on ∧ p < 8 ∧ s.dev.nextOut p = some f ∧ (s.dev.fh p).st = .up ∧
      (s.dev.fh p).busyTo ≤ s.dev.time ∧ f.granted = true ∧ f.send ≤ s.dev.time + 8 ∧
      (f.send = 0 ∨ s.dev.time ≤ f.send + 1966)) ∧
    (∃ (s : State) (p : Nat), s.on ∧ p < 8 ∧ (s.dev.fh p).st = .training ∧ (s.dev.fhRate p).isSome = true ∧
      (s.dev.mod (s.dev.busOf p)).st ≠ 4 ∧ bit s.dev.cp.clocks 2 = true) ∧
    (∃ (s : State) (p r : Nat), s.on ∧ p < 8 ∧ r < 256 ∧ (s.dev.fh p).link = true ∧ (s.dev.fh p).st = .up) ∧
    (∃ (s : State) (p r : Nat), s.on ∧ p < 4 ∧ r < 256 ∧ (s.dev.peer p).st = .up) :=
  ⟨⟨receiving, 0, 0, 8, 256, frame0, msg0, 0, by decide +kernel⟩,
    ⟨sending, 31, 8192, 4096, 0, [frameOut], by decide +kernel⟩,
    ⟨leaving, 7, granted0, by decide +kernel⟩,
    ⟨fhPort { st := .training } (fun d => (d.setReg .PRT_FH_QCFG 5 3)), 7, by decide +kernel⟩,
    ⟨fhPort { st := .up, link := true }, 7, 255, by decide +kernel⟩,
    ⟨peer3 upPeer, 3, 255, by decide +kernel⟩⟩

theorem witness_ModulesAndBoard :
    (∃ (s : State) (m : Nat) (found : Option (Nat × List Nat)), s.on ∧ m < 8 ∧ okModule found = true ∧ (s.dev.mod m).st = 0) ∧
    (∃ (s : State) (m : Nat), s.on ∧ m < 8 ∧ (s.dev.mod m).st = 1) ∧
    (∃ (s : State) (m ident : Nat) (rates : List Nat), s.on ∧ m < 8 ∧ okModule (some (ident, rates)) = true ∧
      (s.dev.mod m).st = 1) ∧
    (∃ (s : State) (m ident : Nat) (rates : List Nat), s.on ∧ m < 8 ∧ okModule (some (ident, rates)) = true ∧
      (s.dev.mod m).st = 1) ∧
    (∃ (s : State) (m : Nat), s.on ∧ m < 8 ∧ (s.dev.mod m).st ≠ 0) ∧
    (∃ (s : State) (m b g : Nat), s.on ∧ m < 8 ∧ b < 256 ∧ g < 256 ∧ (s.dev.mod m).st ≠ 0) ∧
    (∃ (s : State) (m b g : Nat), s.on ∧ m < 8 ∧ b < 256 ∧ g < 256 ∧ (s.dev.mod m).st ≠ 0 ∧ (s.dev.mod m).cdbTo = none) ∧
    (∃ (s : State) (data : List Byte), s.on ∧ data.length = 4) ∧
    (∃ (s : State) (o : Nat), s.on ∧ o < 0x2000 ∧ o % 4 = 0) ∧
    (∃ (s : State) (n : RegName) (is : List Nat), s.on ∧ s.dev.cp.smbusOfs < 0x2000 ∧
      regAt (0x1E000 + s.dev.cp.smbusOfs) = some (n, is) ∧ n.row.half = 0) :=
  ⟨⟨up, 7, some (24, []), by decide +kernel⟩,
    ⟨module7 { st := 1, resetN := false, lpMode := true }, 7, by decide +kernel⟩,
    ⟨module7 { st := 1 }, 7, 24, [100], by decide +kernel⟩,
    ⟨(module7 { st := 1 } |> fun s => { s with dev := (s.dev.setReg .PRT_FH_QCFG 5 3) }), 7, 24, [10], by decide +kernel⟩,
    ⟨module7 { st := 2 }, 7, by decide +kernel⟩,
    ⟨module7 { st := 3 }, 7, 255, 255, by decide +kernel⟩,
    ⟨module7 { st := 2 }, 7, 255, 255, by decide +kernel⟩,
    ⟨up, by8 [0xFF, 0, 0, 0], by decide +kernel⟩,
    ⟨up, 0x1FFC, by decide +kernel⟩,
    ⟨up (fun d => { d with cp := { d.cp with smbusOfs := RegName.MBX_INT_EN.off 7 - 0x1E000 } }), .MBX_INT_EN, [7],
      by decide +kernel⟩⟩

theorem witness_PeerLinks :
    (∃ (s : State) (p pport puid : Nat) (pdev : Option Nat), s.on ∧ p < 4 ∧ pport < 4 ∧ (∀ k, pdev = some k → k < 4) ∧
      puid < 2 ^ 64 ∧ (s.dev.peer p).st = .training ∧ bit s.dev.cp.clocks 3 = true ∧ (∀ k,
      pdev = some k → s.dev.devnum ≠ some k) ∧ (∀ q, q < 4 → q ≠ p → s.dev.peerLive q = false)) ∧
    (∃ (s : State) (p dev : Nat), s.on ∧ p < 4 ∧ dev < 4 ∧ (s.dev.peer p).st = .up ∧ s.dev.devnum ≠ some dev ∧ (∀ q,
      q < 4 → q ≠ p → s.dev.peerLive q = false)) ∧
    (∃ (s : State) (p k : Nat), s.on ∧ p < 4 ∧ k < 8 ∧ (s.dev.peer p).st = .up) ∧
    (∃ (s : State) (p k : Nat), s.on ∧ p < 4 ∧ 8 ≤ k ∧ (s.dev.peer p).st = .up) ∧
    (∃ (s : State) (p : Nat) (h : PHdr), s.on ∧ p < 4 ∧ s.dev.peerTakes p 8 h) ∧
    (∃ (s : State) (p t1 t2 t3 t4 : Nat), s.on ∧ p < 4 ∧ t1 < 2 ^ 64 ∧ t2 < 2 ^ 64 ∧ t3 < 2 ^ 64 ∧ t4 < 2 ^ 64 ∧
      (s.dev.peer p).st = .up ∧ (s.dev.peer p).timeSent = some t1 ∧ t1 ≤ t4 ∧ t4 ≤ s.dev.time) :=
  ⟨⟨peer3 { st := .training }, 3, 3, 2 ^ 64 - 1, some 3, ⟨rfl, by decide, by decide, fun k h => by cases h; decide, by decide,
      by decide +kernel, by decide +kernel, fun k h => by cases h; decide +kernel, by decide +kernel⟩⟩,
    ⟨peer3 upPeer, 3, 3, by decide +kernel⟩,
    ⟨peer3 upPeer, 3, 7, by decide +kernel⟩,
    ⟨peer3 upPeer, 3, 8, by decide +kernel⟩,
    ⟨peer3 upPeer, 3, hd 8 2, by decide +kernel⟩,
    ⟨peer3 { upPeer with timeSent := some 10 } (fun d => { d with time := 100 }), 3, 10, 12, 2 ^ 64 - 1, 100,
      by decide +kernel⟩⟩

theorem witness_PeerTransfers :
    (∃ (s : State) (p : Nat) (h : PHdr) (data : List Byte), s.on ∧ p < 4 ∧ s.dev.peerTakes p 0 h ∧ s.dev.cp.dramReady = true ∧
      h.poison = false ∧ globalLocal h.addr + data.length ≤ 0x6000000000) ∧
    (∃ (s : State) (p : Nat) (h : PHdr), s.on ∧ p < 4 ∧ s.dev.peerTakes p 1 h ∧ s.dev.cp.dramReady = true ∧
      globalLocal h.addr + h.len ≤ 0x6000000000) ∧
    (∃ (s : State) (p : Nat) (h : PHdr), s.on ∧ p < 4 ∧ s.dev.peerTakes p 3 h ∧ s.dev.cp.dramReady = true ∧
      globalLocal h.addr + 8 ≤ 0x6000000000 ∧ s.dev.poisoned (globalLocal h.addr) 8 = false) ∧
    (∃ (s : State) (p k free : Nat) (h : PHdr) (data : List Byte), s.on ∧ p < 4 ∧ k < 256 ∧ s.dev.peerTakes p 5 h ∧
      h.poison = false ∧ (s.dev.ctx k).desc.kind = 2 ∧ (s.dev.ctx k).desc.persist = true ∧ (s.dev.ctx k).st = .active ∧
      s.dev.space k = some free ∧ (s.dev.ctx k).desc.esize ≤ free ∧ forkSize h.req (s.dev.ctx k).desc.esize data = data.length ∧
      0 < data.length) ∧
    (∃ (s : State) (p k cause first last missed : Nat) (h : PHdr), s.on ∧ p < 4 ∧ k < 256 ∧ s.dev.peerTakes p 5 h ∧
      cause < 256 ∧ first < 2 ^ 64 ∧ last < 2 ^ 64 ∧ missed < 2 ^ 32 ∧ (s.dev.ctx k).desc.kind = 2 ∧
      (s.dev.ctx k).desc.persist = true ∧ (s.dev.ctx k).st = .active) ∧
    (∃ (s : State) (p n : Nat) (h : PHdr) (x : Member), s.on ∧ p < 4 ∧ s.dev.peerTakes p 6 h ∧ (s.dev.ctx n).members = [x] ∧
      ((s.dev.ctx n).desc.members.getD 0 (0, 0)).1 = h.src ∧ (s.dev.ctx n).elems = []) ∧
    (∃ (s : State) (p : Nat) (h : PHdr) (msg : List Byte), s.on ∧ p < 4 ∧ s.dev.peerTakes p 7 h ∧ (s.dev.mb 6).state ≠ .busy ∧
      ((s.dev.mb 6).ver = 1 ∨ bit (byteAt msg 2) 0 = false)) ∧
    (∃ (s : State) (p e num sc a v t i : Nat) (h : PHdr) (x : Xfer), s.on ∧ p < 4 ∧ e < 32 ∧ s.dev.peerTakes p 2 h ∧
      h.poison = false ∧ s.dev.xferOf p h.tag [1] = some x ∧ x.for_ = .fence e num ∧
      (s.dev.eng e).hold = .fence num sc true a v t i false) ∧
    (∃ (s : State) (p n k : Nat) (h : PHdr) (x : Xfer), s.on ∧ p < 4 ∧ n < 256 ∧ s.dev.peerTakes p 4 h ∧ h.status = 0 ∧
      s.dev.xferOf p h.tag [0, 3] = some x ∧ x.for_ = .stream n (s.dev.ctx n).armed (s.dev.ctx n).prog k ∧
      (s.dev.ctx n).moves = true ∧ (s.dev.ctx n).fin = []) ∧
    (∃ (s : State) (p : Nat) (h : PHdr), s.on ∧ p < 4 ∧ s.dev.peerTakes p 9 h) ∧
    (∃ (s : State) (tag : Nat) (x : Xfer), s.on ∧ tag < 65536 ∧ s.dev.peers.xfers.find? (fun t =>
      t.tag = tag && t.retryAt.any (· ≤ s.dev.time)) = some x ∧ (s.dev.peer x.port).st = .up ∧ s.dev.behind x = false) ∧
    (∃ (s : State) (tag n i k : Nat) (x : Xfer), s.on ∧ tag < 65536 ∧ s.dev.peers.xfers.find? (fun t =>
      t.tag = tag && t.since.any (· + subframeTc ≤ s.dev.time)) = some x ∧ x.for_ = .stream n (s.dev.ctx n).armed i k ∧
      (s.dev.ctx n).moves = true) :=
  ⟨⟨peer3 upPeer, 3, hd 0 2 (2 ^ 40 + 0x5FFFFFFFF8) 8, by8 [1, 2, 3, 4, 5, 6, 7, 8], by decide +kernel⟩,
    ⟨peer3 upPeer, 3, hd 1 2 (2 ^ 40) 4096, by decide +kernel⟩,
    ⟨peer3 upPeer, 3, hd 3 2 (2 ^ 40) 8, by decide +kernel⟩,
    ⟨peer3 upPeer (fun d => d.setCtx 0 { st := .active, desc := forkRx }), 3, 0, 128, hd 5 2, List.replicate 64 7,
      by decide +kernel⟩,
    ⟨peer3 upPeer (fun d => d.setCtx 255 { st := .active, desc := { forkRx with gaprec := 64 } }), 3, 255, 255, 5, 6, 7, hd 5 2,
      by decide +kernel⟩,
    ⟨peer3 upPeer (fun d => d.setCtx 0 { st := .active, desc := lagRemote, members := [{}] }), 3, 0, hd 6 2, {},
      by decide +kernel⟩,
    ⟨peer3 upPeer, 3, hd 7 2, by8 [0, 1], by decide +kernel⟩,
    ⟨waits (xfer 1 (.fence 0 1)) (fun d => d.setEng 0 { hold := .fence 1 0 true 0x8000000000 5 0 0 false }), 3, 0, 1, 0,
      0x8000000000, 5, 0, 0, hd 2 2, xfer 1 (.fence 0 1), by decide +kernel⟩,
    ⟨waits (xfer 0 (.stream 0 0 0 1)) (fun d => d.setCtx 0 { st := .active, desc := writeDesc }), 3, 0, 1, hd 4 2,
      xfer 0 (.stream 0 0 0 1), by decide +kernel⟩,
    ⟨waits (xfer 0 (.stream 0 0 0 1)), 3, hd 9 2, by decide +kernel⟩,
    ⟨waits (refused (xfer 0 (.stream 0 0 0 1))), 5, refused (xfer 0 (.stream 0 0 0 1)), by decide +kernel⟩,
    ⟨waits (refused (xfer 0 (.stream 0 0 0 1))) (fun d =>
      Dev.setCtx { d with time := subframeTc } 0 { st := .active, desc := writeDesc }), 5, 0, 0, 1,
      refused (xfer 0 (.stream 0 0 0 1)), by decide +kernel⟩⟩

/-! ### Witnesses: power and resets -/

/-- The CP's state changed by `f`. -/
def cpDev (f : Cp → Cp) : State := up fun d => { d with cp := f d.cp, mem := memAt 0x10 (by8 [1]) }
def lcJob : Job := job 0x0105 [1]
def fwJob : Job := job 0x0107 [1, 0, 0, 0, 16, 0, 0, 0, 16]

theorem witness_Resets :
    (∃ (s : State) (straps : Nat), straps < 16 ∧ s.dev.th.tripped = none) ∧
    (∃ s : State, s.on ∧ s.dev.cp.pwrgd = true) ∧
    (∃ (s : State) (straps : Nat), straps < 16 ∧ s.dev.cp.pwrgd = true ∧ s.dev.th.latched = false ∧
      (s.dev.cp.perst = false ∨ s.dev.cp.powered = false)) ∧
    (∃ (s : State) (straps : Nat), straps < 16 ∧ s.dev.cp.pwrgd = true ∧ s.dev.th.latched = false ∧
      (s.dev.cp.perst = false ∨ s.dev.cp.powered = false)) ∧
    (∃ (s : State) (straps : Nat), s.on ∧ straps < 16 ∧ s.dev.cp.pwrgd = true ∧ s.dev.th.latched = false ∧
      s.dev.cp.perst = true) ∧
    (∃ (s : State) (t : Nat), s.on ∧ s.dev.cp.resetAt = some (t, .warm) ∧ t ≤ s.dev.time) ∧
    (∃ (s : State) (t straps : Nat), s.on ∧ straps < 16 ∧ s.dev.cp.resetAt = some (t, .lifeCycle) ∧ t ≤ s.dev.time) ∧
    (∃ (s : State) (w : Nat), s.on ∧ w < 2 ^ 32) :=
  ⟨⟨st (fun d => { d with cp := { d.cp with powered := false, pwrgd := false } }), 15, by decide +kernel⟩,
    ⟨cpDev id, by decide +kernel⟩,
    ⟨cpDev id, 15, by decide +kernel⟩,
    ⟨cpDev (fun c => { c with perst := true, powered := false }), 15, by decide +kernel⟩,
    ⟨cpDev (fun c => { c with perst := true }), 15, by decide +kernel⟩,
    ⟨cpDev (fun c => { c with resetAt := some (0, .warm), warms := 255 }), 0, by decide +kernel⟩,
    ⟨cpDev (fun c => { c with resetAt := some (0, .lifeCycle) }), 0, 15, by decide +kernel⟩,
    ⟨cpDev id, 2 ^ 32 - 1, by decide +kernel⟩⟩

theorem witness_LossOfPowerAndClocks :
    (∃ (s : State) (r : Nat), r < 10 ∧ s.dev.cp.pwrgd = true) ∧
    (∃ k : Nat, k < 5) :=
  ⟨⟨cpDev id, 9, by decide +kernel⟩,
    ⟨4, by decide +kernel⟩⟩

theorem witness_BringUp :
    (∃ s : State, s.on ∧ s.dev.cp.ready = false ∧ s.dev.cp.perst = false) ∧
    (∃ s : State, s.on) ∧
    (∃ (s : State) (rg : Nat), s.on ∧ rg < 8 ∧ s.dev.cp.ready = true ∧ s.dev.cp.recovery = false ∧ s.dev.lit (rg / 2) = true) ∧
    (∃ (s : State) (rg : Nat), s.on ∧ rg < 8 ∧ bit s.dev.cp.regions rg = false ∧ s.dev.regionConditions rg = true ∧
      (s.dev.rgn rg).up = false) ∧
    (∃ s : State, s.on ∧ s.dev.cp.ready = true ∧ s.dev.cp.recovery = false ∧ s.dev.cp.device = false ∧ (∀ rg,
      rg < 8 → bit s.dev.cp.regions rg = true ∨ (s.dev.stk (rg / 2)).dark = true) ∧ bit s.dev.cp.straps 1 = false) :=
  ⟨⟨cpDev (fun c => { c with ready := false }), by decide +kernel⟩,
    ⟨cpDev (fun c => { c with dramReady := false }), by decide +kernel⟩,
    ⟨up (fun d => d.setStk 3 litStack), 7, by decide +kernel⟩,
    ⟨up (fun d => { regionUp d with cp := { d.cp with regions := 0 } }), 0, by decide +kernel⟩,
    ⟨cpDev (fun c => { c with device := false, tgTest := 2 ^ 53 }), by decide +kernel⟩⟩

theorem witness_FlashAndLifeCycle :
    (∃ (s : State) (j : Job), s.on ∧ s.dev.cp.jobs.find? (fun j => j.opcode = 0x0107 && !j.v1) = some j) ∧
    (∃ (s : State) (j : Job), s.on ∧ s.dev.cp.jobs.find? (fun j => j.opcode = 0x0105 && !j.v1) = some j) ∧
    (∃ s : State, s.on ∧ s.dev.cp.jobs.find? (fun j => j.opcode = 0x0107 && !j.v1) = none) ∧
    (∃ s : State, s.on ∧ s.dev.cp.jobs.find? (fun j => j.opcode = 0x0105 && !j.v1) = none) :=
  ⟨⟨cpDev (fun c => { c with jobs := [fwJob] }), fwJob, by decide +kernel⟩,
    ⟨cpDev (fun c => { c with jobs := [lcJob] }), lcJob, by decide +kernel⟩,
    ⟨cpDev (fun c => { c with jobs := [lcJob] }), by decide +kernel⟩,
    ⟨cpDev (fun c => { c with jobs := [fwJob] }), by decide +kernel⟩⟩

/-! ### Witnesses: converters, light and roadworks -/

def late (d : Dev) : Dev := { d with time := 0x100000000, aon := 0x100000000 }
def madc00 (cfg : Nat) (x : Madc) : State := up fun d => late ((d.setReg .MADC_C_CFG cfg 0 0).setMadc 0 0 x)
def combs (a b : CombState) (f : StackSt → StackSt := id) : State :=
  stack fun x => f { x with combA := { st := a, powered := true }, combB := { st := b, powered := true } }
def gap0 : Gap := { t0 := 0, forced := false, close := none, switched := true }
def gapV : Gap := { gap0 with close := some 4000, verified := true }
def swap0 : Swap := { lt := 15, old := 15, new := 128, takeover := false, inst := 0, began := 0 }
def swapUpdated : Swap := { swap0 with loading := true, updated := true }
def swapOf (w : Swap) (f : Dev → Dev := id) : State := region (fun r => { r with swap := some w }) f

theorem witness_ConvertersRun :
    (∃ (s : State) (rg n c : Nat) (q : List Nat), s.on ∧ rg < 8 ∧ n < 8 ∧ s.dev.auxRun rg n = true ∧ s.dev.auxMode rg n = 1 ∧
      (s.dev.aux rg n).due s.dev.time = true ∧ (s.dev.aux rg n).queue = c :: q ∧ c < 65536) ∧
    (∃ (s : State) (rg n : Nat), s.on ∧ rg < 8 ∧ n < 8 ∧ s.dev.auxRun rg n = true ∧ s.dev.auxMode rg n = 3 ∧
      (s.dev.aux rg n).due s.dev.time = true ∧ (s.dev.aux rg n).begun = true) ∧
    (∃ (s : State) (rg c w tile : Nat) (raws : List Nat), s.on ∧ rg < 8 ∧ c < 2 ∧ (s.dev.madc rg c).st = 1 ∧
      (s.dev.madc rg c).waiting = false ∧ (s.dev.madc rg c).entry < s.dev.rf .MADC_C_CFG 8 5 rg c ∧
      w = s.dev.reg .MADC_C_REG rg c (s.dev.madc rg c).entry ∧ fld w 12 3 = 0 ∧ fld w 0 6 ≠ 63 ∧
      (s.dev.madcSignal rg (s.dev.madc rg c) (fld w 0 6)).tile.all (· = tile) = true ∧
      (s.dev.madc rg c).start + entryTime w ≤ 100 * s.dev.time ∧ okRaws raws = true) ∧
    (∃ (s : State) (rg c per : Nat), s.on ∧ rg < 8 ∧ c < 2 ∧ per = s.dev.roundPeriod rg c ∧ per ≠ 0 ∧
      s.dev.time / per ≠ (s.dev.madc rg c).round ∧ (s.dev.madc rg c).st = 1 ∧ (s.dev.madc rg c).waiting = true) ∧
    (∃ (s : State) (rg c b : Nat), s.on ∧ rg < 8 ∧ c < 2 ∧ b < 5 ∧ bit (s.dev.reg .MADC_C_CFG rg c) (24 + b) = true ∧
      bit (s.dev.reg .MADC_C_CFG rg c) 19 = true ∧ (s.dev.madc rg c).st = 1 ∧ (s.dev.madc rg c).waiting = false) :=
  ⟨⟨up (fun d => late ((d.setReg .DAC_AUX_CFG 0x10001 0 7).setAux 0 7 { queue := [65535, 2], empty := true })), 0, 7, 65535,
      [2], by decide +kernel⟩,
    ⟨up (fun d => late (((d.setReg .DAC_AUX_CFG 0x10003 0 0).setReg .DAC_AUX_STEP 60000 0 0).setAux 0 0 { begun := true })), 0,
      0, by decide +kernel⟩,
    ⟨madc00 0x101 { st := 1 }, 0, 0, 0, 5, [4095], by decide +kernel⟩,
    ⟨up (fun d => late ((d.setReg .MADC_C_RPER 5 0 0).setMadc 0 0 { st := 1, waiting := true })), 0, 0, 7680,
      by decide +kernel⟩,
    ⟨madc00 0x10080001 { st := 1, entry := 3 }, 0, 0, 4, by decide +kernel⟩⟩

theorem witness_LightCombs :
    (∃ (s : State) (k : Nat) (powers : List Int), s.on ∧ k < 4 ∧ powers.length = 64 ∧ (s.dev.stk k).dark = false ∧
      (s.dev.stk k).gap = none ∧ (s.dev.stk k).level = 0 ∧ lsaThrOk (s.dev.reg .LSA_THR (2 * k)) = true ∧ (∀ l,
      l < 64 → -(fld (s.dev.reg .LSA_THR (2 * k)) 0 10 : Int) < powers.getD l 0 ∧ powers.getD l 0 ≤ 32767)) ∧
    (∃ (s : State) (k : Nat) (powers : List Int), s.on ∧ k < 4 ∧ powers.length = 64 ∧ (s.dev.stk k).dark = false ∧
      (s.dev.stk k).gap = none ∧ (s.dev.stk k).level < 2 ∧ (s.dev.stk k).schedN = 1 ∧
      lsaThrOk (s.dev.reg .LSA_THR (2 * k)) = true ∧ (∃ l, l < 64 ∧
      powers.getD l 0 ≤ -(fld (s.dev.reg .LSA_THR (2 * k)) 10 10 : Int)) ∧ (∀ l,
      l < 64 → -(fld (s.dev.reg .LSA_THR (2 * k)) 20 10 : Int) < powers.getD l 0 ∧ powers.getD l 0 ≤ 32767)) ∧
    (∃ (s : State) (k : Nat), s.on ∧ k < 4 ∧ (s.dev.stk k).dark = false ∧ (s.dev.stk k).gap = none ∧ (s.dev.stk k).level < 3 ∧
      ((s.dev.stk k).comb (s.dev.stk k).spareComb).st = .aligned) ∧
    (∃ (s : State) (k : Nat), s.on ∧ k < 4 ∧ (s.dev.stk k).level = 2 ∧ (s.dev.stk k).disarmed = false ∧
      (s.dev.stk k).waited = false ∧ (s.dev.stk k).gap = none ∧ (s.dev.stk k).armedAt + tcPerSec ≤ s.dev.time) ∧
    (∃ (s : State) (k : Nat) (powers : List Int) (g : Gap), s.on ∧ k < 4 ∧ powers.length = 64 ∧ (s.dev.stk k).gap = some g ∧
      g.switched = true ∧ g.verified = false ∧ g.origin + verifyTc ≤ s.dev.time ∧ (∀ l, l < 64 → -50 ≤ powers.getD l 0 ∧
      powers.getD l 0 ≤ 50)) ∧
    (∃ (s : State) (k t : Nat) (g : Gap), s.on ∧ k < 4 ∧ (s.dev.stk k).gap = some g ∧ g.close = some t ∧ t ≤ s.dev.time ∧
      g.verified = true ∧ g.forced = false ∧ (s.dev.rgn (2 * k)).held = none ∧ (s.dev.rgn (2 * k + 1)).held = none) ∧
    (∃ (s : State) (k c : Nat), s.on ∧ k < 4 ∧ c < 2 ∧ ((s.dev.stk k).comb c).powered = true ∧
      ((s.dev.stk k).comb c).st = .off) ∧
    (∃ (s : State) (k c : Nat) (grid : Int × Int), s.on ∧ k < 4 ∧ c < 2 ∧ ((s.dev.stk k).comb c).st = .aligning ∧
      (s.dev.stk k).gridOk grid = true ∧ s.dev.readmitting k c = false ∧ (s.dev.stk k).dark = false ∧ (s.dev.stk k).gap = none ∧
      s.dev.laserHot k = false) ∧
    (∃ (s : State) (k c : Nat) (grid : Int × Int), s.on ∧ k < 4 ∧ c < 2 ∧ ((s.dev.stk k).comb c).st = .aligning ∧
      (s.dev.stk k).gridOk grid = false) ∧
    (∃ (s : State) (k : Nat) (grid : Int × Int), s.on ∧ k < 4 ∧ ((s.dev.stk k).comb (s.dev.stk k).spareComb).st = .aligned ∧
      (s.dev.stk k).gridOk grid = false) :=
  ⟨⟨stack id, 0, List.replicate 64 0, by decide +kernel⟩,
    ⟨stack (fun x => { x with schedN := 1, level := 1 }), 0, -160 :: List.replicate 63 0, by decide +kernel⟩,
    ⟨combs .inUse .aligned, 0, by decide +kernel⟩,
    ⟨up (fun d => late (d.setStk 0 { level := 2 })), 0, by decide +kernel⟩,
    ⟨up (fun d => late (d.setStk 0 { litStack with gap := some gap0, level := 2 })), 0, List.replicate 64 (-50), gap0,
      by decide +kernel⟩,
    ⟨up (fun d => late (d.setStk 0 { litStack with gap := some gapV })), 0, 4000, gapV, by decide +kernel⟩,
    ⟨combs .inUse .off, 0, 1, by decide +kernel⟩,
    ⟨combs .inUse .aligning, 0, 1, (100, -2), by decide +kernel⟩,
    ⟨combs .inUse .aligning, 0, 1, (-101, 0), by decide +kernel⟩,
    ⟨combs .inUse .aligned, 0, (0, 3), by decide +kernel⟩⟩

theorem witness_RoadworksSteps :
    (∃ (s : State) (rg lt t : Nat), s.on ∧ rg < 8 ∧
      s.dev.rdwkDue rg (max (s.dev.rgn rg).fired s.dev.tl.before) s.dev.time = some t ∧ s.dev.rdwkMode rg = 0 ∧
      s.dev.rf .DEV_RDWK_CFG 0 2 rg = 0 ∧ s.dev.cp.device = true ∧ bit s.dev.cp.regions rg = true ∧
      (s.dev.stk (rg / 2)).dark = false ∧ s.dev.inGap (rg / 2) = false ∧ s.dev.waitingTile rg = none ∧
      s.dev.nextTile rg = some lt ∧ s.dev.spare rg ≠ 0xFF ∧ (s.dev.rgn rg).cal = none ∧ (s.dev.rgn rg).swap = none ∧
      (s.dev.rgn rg).ready = true ∧ (s.dev.rgn rg).prep = some lt) ∧
    (∃ (s : State) (rg lt : Nat), s.on ∧ rg < 8 ∧ s.dev.spare rg ≠ 0xFF ∧ (s.dev.rgn rg).cal = none ∧
      (s.dev.rgn rg).swap = none ∧ (s.dev.pt (s.dev.spare rg)).up = true ∧ (s.dev.rgn rg).preparing = false ∧
      s.dev.roleTile rg = some lt ∧ s.dev.prepareDue rg = true) ∧
    (∃ (s : State) (rg : Nat) (w : Swap), s.on ∧ rg < 8 ∧ (s.dev.rgn rg).swap = some w ∧ w.loading = false ∧
      s.dev.inGap (rg / 2) = false ∧ (s.dev.ltSlot w.lt).quietAll = true) ∧
    (∃ (s : State) (rg : Nat) (w : Swap), s.on ∧ rg < 8 ∧ (s.dev.rgn rg).swap = some w ∧ w.loading = true ∧ w.updated = false ∧
      reloadDue 64 w.stepAt s.dev.aon = true) ∧
    (∃ (s : State) (rg : Nat) (w : Swap), s.on ∧ rg < 8 ∧ (s.dev.rgn rg).swap = some w ∧ w.updated = true ∧ w.takeover = false ∧
      7 * 30720 ≤ (s.dev.aon - w.stepAt) * 15625 ∧ s.dev.spare rg ≠ 0xFF ∧ (s.dev.ltSlot w.lt).st = .swapping ∧
      s.dev.phys w.lt = w.new ∧ (s.dev.pt w.new).up = true) ∧
    (∃ (s : State) (rg p : Nat), s.on ∧ rg < 8 ∧ (s.dev.rgn rg).cal = some p ∧ 2 ≤ (s.dev.rgn rg).step ∧
      (s.dev.rgn rg).step ≤ 6 ∧ s.dev.inGap (rg / 2) = false ∧ ((s.dev.rgn rg).step = 6 → (s.dev.pt p).acq.phase = 6)) ∧
    (∃ (s : State) (rg p : Nat), s.on ∧ rg < 8 ∧ (s.dev.rgn rg).cal = some p ∧ (s.dev.rgn rg).step = 7 ∧
      (s.dev.pt p).staged = [] ∧ (s.dev.pt p).modeNext = none ∧ s.dev.rdwkMode rg ≠ 2) :=
  ⟨⟨region (fun r => { r with ready := true, prep := some 0 }) (fun d =>
      regionUp { d with time := 1156517647, cp := { d.cp with regions := 255 } }), 0, 0, 1156517647, by decide +kernel⟩,
    ⟨region id (fun d => regionUp { d with time := 1156517647 - 1 }), 0, 0, by decide +kernel⟩,
    ⟨swapOf swap0 late, 0, swap0, by decide +kernel⟩,
    ⟨swapOf { swap0 with loading := true } late, 0, { swap0 with loading := true }, by decide +kernel⟩,
    ⟨swapOf swapUpdated (fun d => (({ late d with tmap := [(15, 128)] }).modPt 128 fun x =>
      { x with lock := .legacy }).setSlot 3 3 { st := .swapping }), 0, swapUpdated, by decide +kernel⟩,
    ⟨region (fun r => { r with cal := some 15, step := 6 }) (fun d => d.modPt 15 fun x =>
      { x with acq := { x.acq with phase := 6 } }), 0, 15, by decide +kernel⟩,
    ⟨region (fun r => { r with cal := some 128, step := 7 }), 0, 128, by decide +kernel⟩⟩

theorem witness_SafePoints :
    (∃ (s : State) (e : Nat), s.on ∧ e < 32 ∧ (s.dev.eng e).st = .shutdown ∧ (s.dev.eng e).run = none ∧
      (s.dev.eng e).issueq = [] ∧ (s.dev.eng e).macq = [] ∧ (s.dev.eng e).vecq = [] ∧ (s.dev.eng e).delq = [] ∧
      (s.dev.eng e).sigq = [] ∧ (∀ t, t < 4 → (s.dev.slot e t).st = .off) ∧ s.dev.cp.jobs = []) ∧
    (∃ (s : State) (p : Nat), s.on ∧ p < 136 ∧ (s.dev.pt p).parking = true ∧ (s.dev.pt p).arrived = true ∧
      s.dev.logicalOf p = none) ∧
    (∃ (s : State) (p : Nat), s.on ∧ p < 8 ∧ (s.dev.fh p).st = .shutdown ∧ s.dev.cp.jobs = []) :=
  ⟨⟨engine (fun x => { x with st := .shutdown, run := none }), 0, by decide +kernel⟩,
    ⟨spare (fun x => { x with parking := true }), 128, by decide +kernel⟩,
    ⟨fhPort { st := .shutdown }, 7, by decide +kernel⟩⟩

/-! ### Witnesses: device commands -/

/-- A record of a 48-byte key for slot 3, at 0x2000. -/
def keyRec (d : Dev) : Dev := { d with mem := memAt 0x2000 (by8 (3 :: List.replicate 7 0 ++ List.replicate 48 0xAB)) }

theorem witness_IdentityFirmwareAndGrants :
    (∃ (s : State) (c : Cmd) (i : Instr) (n : Nat), ((i = .getInfo ∧ n = 12 ∧ s.holds c 0x0100) ∨ (i = .info ∧ n = 8 ∧
      s.holds c 0x01 true))) ∧
    (∃ (s : State) (c : Cmd) (i : Instr) (n : Nat), ((i = .getInfo ∧ n = 12 ∧ s.holds c 0x0100) ∨ (i = .info ∧ n = 8 ∧
      s.holds c 0x01 true))) ∧
    (∃ (s : State) (c : Cmd), s.holds c 0x0101 ∧ c.f 0 1 ≤ 3 ∧ s.dev.devnum = none ∧ (∀ p,
      p < 4 → (s.dev.peer p).pdev ≠ some (c.f 0 1))) ∧
    (∃ (s : State) (c : Cmd) (n : Nat), s.holds c 0x0101 ∧ c.f 0 1 ≤ 3 ∧ s.dev.devnum = some n) ∧
    (∃ (s : State) (c : Cmd), s.holds c 0x0102 ∧ ((1 ≤ c.f 0 1 ∧ c.f 0 1 ≤ 4) ∨ c.f 0 1 = 6) ∧ (c.f 1 1 ≤ 6 ∨ c.f 1 1 = 0xFF) ∧
      c.f 2 2 + c.f 4 2 ≤ 4096 ∧ (∀ o ∈ [1, 2, 3, 4, 6],
      o ≠ c.f 0 1 → (c.f 2 2 + c.f 4 2 ≤ (s.dev.fnOf o).msFirst ∨ (s.dev.fnOf o).msFirst + (s.dev.fnOf o).msCount ≤ c.f 2 2) ∧
      c.f 8 4 &&& (s.dev.fnOf o).engmask = 0 ∧ c.f 12 4 &&& (s.dev.fnOf o).fhmask = 0) ∧
      (c.f 0 1 ≤ 4 → s.dev.ports.vfs = true → c.f 1 1 = (s.dev.fnOf (c.f 0 1)).bar2log ∧
      c.f 16 8 = (s.dev.fnOf (c.f 0 1)).dramBase)) ∧
    (∃ (s : State) (c : Cmd), s.holds c 0x0107 ∧ c.f 0 1 ≤ 1 ∧ (c.f 0 1 = s.dev.cp.slot → s.dev.cp.recovery = true) ∧
      512 ≤ c.f 4 4 ∧ c.f 4 4 ≤ slotSize (c.f 0 1) ∧ c.f 8 8 % 8 = 0 ∧ inDram (c.f 8 8) (c.f 4 4) = true ∧
      s.dev.lcChanging = false) ∧
    (∃ (s : State) (c : Cmd), s.holds c 0x0107 ∧ c.f 0 1 ≤ 1 ∧ (c.f 0 1 = s.dev.cp.slot → s.dev.cp.recovery = true) ∧
      512 ≤ c.f 4 4 ∧ c.f 4 4 ≤ slotSize (c.f 0 1) ∧ c.f 8 8 % 8 = 0 ∧ inDram (c.f 8 8) (c.f 4 4) = true ∧
      s.dev.lcChanging = false) ∧
    (∃ (s : State) (c : Cmd), s.holds c 0x0108 ∧ c.f 0 1 ≤ 1) ∧
    (∃ (s : State) (c : Cmd) (w : Nat), s.holds c 0x0109 ∧ c.f 0 4 % 4 = 0 ∧ c.f 4 4 % 4 = 0 ∧ 4 ≤ c.f 4 4 ∧ c.f 4 4 ≤ 4096 ∧
      (∀ k, k < c.f 4 4 / 4 → s.dev.grantable (c.f 0 4 + 4 * k) = true) ∧ s.dev.covered (c.f 0 4) (c.f 4 4) = false ∧ w < 8 ∧
      tfind s.dev.cp.windows w = none ∧ (∀ v, v < w → tfind s.dev.cp.windows v ≠ none)) ∧
    (∃ (s : State) (c : Cmd), s.holds c 0x010A ∧ tfind s.dev.cp.windows (c.f 0 1) ≠ none) :=
  ⟨⟨held (cmdOf 0x0100 (by8 [])), cmdOf 0x0100 (by8 []), .getInfo, 12, .inl (by decide +kernel)⟩,
    ⟨held (cmdOf 0x01 (by8 []) true), cmdOf 0x01 (by8 []) true, .info, 8, .inr (by decide +kernel)⟩,
    ⟨held (cmdOf 0x0101 (by8 [3])), cmdOf 0x0101 (by8 [3]), by decide +kernel⟩,
    ⟨held (cmdOf 0x0101 (by8 [3])) (fun d => { d with devnum := some 3 }), cmdOf 0x0101 (by8 [3]), 3, by decide +kernel⟩,
    ⟨held (cmdOf 0x0102 (by8 ([6, 0xFF, 0, 0, 0, 0x10] ++ List.replicate 10 0xFF))), cmdOf 0x0102 (by8 ([6, 0xFF, 0, 0, 0,
      0x10] ++ List.replicate 10 0xFF)), by decide +kernel⟩,
    ⟨held (cmdOf 0x0107 (by8 [1, 0, 0, 0, 0, 2])), cmdOf 0x0107 (by8 [1, 0, 0, 0, 0, 2]), by decide +kernel⟩,
    ⟨held (cmdOf 0x0107 (by8 [0, 0, 0, 0, 0, 2]) (async := true)) (fun d => { d with cp := { d.cp with recovery := true } }),
      cmdOf 0x0107 (by8 [0, 0, 0, 0, 0, 2]) (async := true), by decide +kernel⟩,
    ⟨held (cmdOf 0x0108 (by8 [1])), cmdOf 0x0108 (by8 [1]), by decide +kernel⟩,
    ⟨held (cmdOf 0x0109 (by8 [0xC4, 0x20, 0x20, 0, 4])), cmdOf 0x0109 (by8 [0xC4, 0x20, 0x20, 0, 4]), 0, by decide +kernel⟩,
    ⟨held (cmdOf 0x010A (by8 [7])) (fun d => { d with cp := { d.cp with windows := [(7, (0, 4))] } }), cmdOf 0x010A (by8 [7]),
      by decide +kernel⟩⟩

theorem witness_EnableStartsAndStops :
    (∃ (s : State) (c : Cmd) (p : Nat), s.holds c 0x0103 ∧ c.f 0 1 = 2 ∧ c.f 1 1 = 1 ∧ p < 8 ∧ c.f 2 2 = 0x10 + p ∧
      (s.dev.fh p).st = .off) ∧
    (∃ (s : State) (c : Cmd) (p : Nat), s.holds c 0x0103 ∧ c.f 0 1 = 2 ∧ c.f 1 1 = 1 ∧ p < 4 ∧ c.f 2 2 = 0x20 + p ∧
      bit s.dev.cp.straps 3 = false ∧ (s.dev.peer p).st = .down) ∧
    (∃ (s : State) (c : Cmd) (p : Nat), s.holds c 0x0103 ∧ c.f 0 1 = 2 ∧ c.f 1 1 = 0 ∧ p < 8 ∧ c.f 2 2 = 0x10 + p ∧
      (s.dev.fh p).st ≠ .off ∧ (s.dev.fh p).st ≠ .shutdownRestart) ∧
    (∃ (s : State) (c : Cmd) (e : Nat), s.holds c 0x0103 ∧ c.f 0 1 = 0 ∧ c.f 1 1 = 0 ∧ e < 32 ∧ c.f 2 2 = e ∧
      s.dev.mayEngine c.mbx e = true ∧ s.dev.regionUp (e / 4) = true ∧ (s.dev.eng e).st ≠ .off ∧ (s.dev.eng e).st ≠ .shutdown ∧
      (s.dev.eng e).st ≠ .shutdownRestart) ∧
    (∃ (s : State) (c : Cmd) (lt : Nat), s.holds c 0x0103 ∧ c.f 0 1 = 1 ∧ c.f 1 1 = 1 ∧ lt < 128 ∧ c.f 2 2 = lt ∧
      s.dev.mayEngine c.mbx (lt / 4) = true ∧ s.dev.regionUp (lt / 16) = true ∧ (s.dev.slot (lt / 4) (lt % 4)).st = .off ∧
      (s.dev.phys lt = 0xFF ∨ s.dev.logicalOf (s.dev.phys lt) = some lt)) :=
  ⟨⟨held (cmdOf 0x0103 (by8 [2, 1, 0x17])), cmdOf 0x0103 (by8 [2, 1, 0x17]), 7, by decide +kernel⟩,
    ⟨held (cmdOf 0x0103 (by8 [2, 1, 0x23])), cmdOf 0x0103 (by8 [2, 1, 0x23]), 3, by decide +kernel⟩,
    ⟨held (cmdOf 0x0103 (by8 [2, 0, 0x17])) fhOn, cmdOf 0x0103 (by8 [2, 0, 0x17]), 7, by decide +kernel⟩,
    ⟨held (cmdOf 0x0103 (by8 [0, 0, 31])) (fun d => d.setEng 31 { st := .running, run := some run0 }), cmdOf 0x0103 (by8 [0, 0,
      31]), 31, by decide +kernel⟩,
    ⟨held (cmdOf 0x0103 (by8 [1, 1, 127])), cmdOf 0x0103 (by8 [1, 1, 127]), 127, by decide +kernel⟩⟩

theorem witness_ResetAndLifeCycleCommands :
    (∃ (s : State) (c : Cmd) (i : Instr), ((i = .reset ∧ s.holds c 0x0104) ∨ (i = .v1Reset ∧ s.holds c 0x02 true)) ∧
      c.f 0 1 ≤ 1 ∧ s.dev.lcChanging = false) ∧
    (∃ (s : State) (c : Cmd), s.holds c 0x0105 ∧ lcAllowed s.dev.cp.lcState (c.f 0 1) = true ∧ s.dev.lcChanging = false ∧
      (c.f 0 1 = 1 → s.dev.keyIn 0 = true ∧ s.dev.keyIn 1 = true) ∧ (c.f 0 1 = 3 → s.dev.cp.returns < 7) ∧
      (s.dev.cp.lcState = 0 ∨ s.dev.authorised (c.f 8 8) (c.f 0 1) = true)) ∧
    (∃ (s : State) (c : Cmd), s.holds c 0x0106 ∧ c.f 0 1 ≤ 3 ∧ c.f 8 8 % 8 = 0 ∧ inDram (c.f 8 8) 56 = true ∧
      getLe (s.dev.rdBytes (c.f 8 8) 56) 0 1 = c.f 0 1 ∧ getLe (s.dev.rdBytes (c.f 8 8) 56) 1 7 = 0 ∧
      s.dev.keyIn (c.f 0 1) = false) ∧
    (∃ (s : State) (c : Cmd), s.holds c 0x0106 ∧ c.f 0 1 ≤ 3 ∧ c.f 8 8 % 8 = 0 ∧ inDram (c.f 8 8) 56 = true ∧
      getLe (s.dev.rdBytes (c.f 8 8) 56) 0 1 = c.f 0 1 ∧ getLe (s.dev.rdBytes (c.f 8 8) 56) 1 7 = 0 ∧
      s.dev.keyIn (c.f 0 1) = true) :=
  ⟨⟨held (cmdOf 0x0104 (by8 [1])), cmdOf 0x0104 (by8 [1]), .reset, by decide +kernel⟩,
    ⟨held (cmdOf 0x0105 (by8 [1])) (fun d => fhOn { d with cp := { d.cp with keys := [(0, []), (1, [])] } }),
      cmdOf 0x0105 (by8 [1]), by decide +kernel⟩,
    ⟨held (cmdOf 0x0106 (by8 [3, 0, 0, 0, 0, 0, 0, 0, 0, 0x20])) keyRec, cmdOf 0x0106 (by8 [3, 0, 0, 0, 0, 0, 0, 0, 0, 0x20]),
      by decide +kernel⟩,
    ⟨held (cmdOf 0x0106 (by8 [3, 0, 0, 0, 0, 0, 0, 0, 0, 0x20])) (fun d =>
      let d := keyRec d; { d with cp := { d.cp with keys := [(3, [])] } }), cmdOf 0x0106 (by8 [3, 0, 0, 0, 0, 0, 0, 0, 0,
      0x20]), by decide +kernel⟩⟩

/-! ### Witnesses: time and Milestone commands -/

def locked0 (t : Nat) (d : Dev) : Dev := { d with time := t, tl := { d.tl with everLocked := true, state := .locked } }
def timeSrc0 (n : Nat) (d : Dev) : Dev := d.setReg .TL_CFG n
/-- One engine holds a placement. -/
def placed0 (d : Dev) : Dev := d.setEng 0 { placed := [run0.plc] }

theorem witness_TimeAndMilestoneCommands :
    (∃ (s : State) (c : Cmd), s.holds c 0x0200 ∧ s.dev.tlSrc = 0 ∧
      (s.dev.tl.everLocked = true → s.dev.time ≤ c.f 0 8 ∨ s.dev.backAllowed = true)) ∧
    (∃ (s : State) (c : Cmd), s.holds c 0x0200 ∧ s.dev.tlSrc = 0 ∧ s.dev.tl.everLocked = true ∧ c.f 0 8 < s.dev.time ∧
      s.dev.backAllowed = false) ∧
    (∃ (s : State) (c : Cmd), s.holds c 0x0201) ∧
    (∃ (s : State) (c : Cmd), s.holds c 0x0202 ∧ -100000 ≤ sx 32 (c.f 0 4) ∧ sx 32 (c.f 0 4) ≤ 100000) ∧
    (∃ (s : State) (c : Cmd), s.holds c 0x0203 ∧ c.f 0 1 ≤ 2 ∧ c.f 1 1 ≤ 7 ∧ c.f 2 1 ≤ 1 ∧ c.f 3 1 ≤ 1 ∧ c.f 5 1 ≤ 1) ∧
    (∃ (s : State) (c : Cmd), s.holds c 0x0203 ∧ c.f 0 1 ≤ 2 ∧ c.f 1 1 ≤ 7 ∧ c.f 2 1 ≤ 1 ∧ c.f 3 1 ≤ 1 ∧ c.f 5 1 ≤ 1) ∧
    (∃ (s : State) (c : Cmd), s.holds c 0x0204 ∧ (c.f 0 1 = 4 ∨ c.f 0 1 = 6)) ∧
    (∃ (s : State) (c : Cmd), s.holds c 0x0205 ∧ c.f 0 8 < s.dev.time ∧ s.dev.backAllowed = true) ∧
    (∃ (s : State) (c : Cmd), s.holds c 0x0205 ∧ c.f 0 8 < s.dev.time ∧ s.dev.backAllowed = false) ∧
    (∃ (s : State) (c : Cmd), s.holds c 0x0206 ∧ c.f 0 1 ≤ 7 ∧ c.f 1 1 ≤ 6 ∧ c.f 2 1 ≤ 1 ∧ (c.f 2 1 = 1 → c.f 1 1 = 2) ∧
      c.f 3 1 ≤ 1 ∧ (s.dev.ctEn (c.f 0 1) = true → s.dev.numer (c.f 0 1) = { mu := c.f 1 1, ecp := decide (c.f 2 1 = 1) } ∧
      s.dev.ctOfs (c.f 0 1) = c.f 8 8 ∧ (c.f 3 1 = 0 → s.dev.ctInUse (c.f 0 1) = false)) ∧
      (s.dev.ctEn (c.f 0 1) = false → s.dev.fallsOut (c.f 0 1) { mu := c.f 1 1, ecp := decide (c.f 2 1 = 1) } = false)) ∧
    (∃ (s : State) (c : Cmd), s.holds c 0x0207) ∧
    (∃ (s : State) (c : Cmd), s.holds c 0x0300 ∧ c.f 0 2 ≤ 4095 ∧ 1 ≤ c.f 2 2 ∧ c.f 2 2 ≤ 127 ∧ c.f 0 2 + c.f 2 2 ≤ 4096 ∧ (∀ i,
      i < c.f 2 2 → s.dev.entryBad (c.entry32 i) = none ∧ s.dev.inDomain c.mbx (c.f 0 2 + i) = true ∧
      s.dev.mayMasks c.mbx (c.entry32 i) = true) ∧ s.dev.ms.commit = none) ∧
    (∃ (s : State) (c : Cmd), s.holds c 0x0301 ∧ c.f 0 2 ≤ 4095 ∧ 1 ≤ c.f 2 2 ∧ c.f 2 2 ≤ 127 ∧ c.f 0 2 + c.f 2 2 ≤ 4096 ∧
      c.f 4 1 ≤ 1) ∧
    (∃ (s : State) (c : Cmd), s.holds c 0x0302 ∧ c.f 0 1 ≤ 7 ∧ s.dev.ctEn (c.f 0 1) = true ∧ s.dev.ms.commit = none) ∧
    (∃ (s : State) (c : Cmd), s.holds c 0x0302 ∧ c.f 0 1 ≤ 7 ∧ s.dev.ctEn (c.f 0 1) = true ∧ s.dev.ms.commit ≠ none) :=
  ⟨⟨held (cmdOf 0x0200 (by8 [1])) (fun d => timeSrc0 0 (locked0 100 d)), cmdOf 0x0200 (by8 [1]), by decide +kernel⟩,
    ⟨held (cmdOf 0x0200 (by8 [1])) (fun d => timeSrc0 0 (locked0 100 (placed0 d))), cmdOf 0x0200 (by8 [1]), by decide +kernel⟩,
    ⟨held (cmdOf 0x0201 (by8 (List.replicate 8 0xFF))), cmdOf 0x0201 (by8 (List.replicate 8 0xFF)), by decide +kernel⟩,
    ⟨held (cmdOf 0x0202 (by8 [0x60, 0x79, 0xFE, 0xFF])), cmdOf 0x0202 (by8 [0x60, 0x79, 0xFE, 0xFF]), by decide +kernel⟩,
    ⟨held (cmdOf 0x0203 (by8 [0, 7, 1, 1, 255, 1, 255, 255])) (fun d => timeSrc0 0 (locked0 100 d)), cmdOf 0x0203 (by8 [0, 7, 1,
      1, 255, 1, 255, 255]), by decide +kernel⟩,
    ⟨held (cmdOf 0x0203 (by8 [2, 7, 1, 1, 255, 1, 255, 255])) (fun d => timeSrc0 0x2001 (locked0 100 d)), cmdOf 0x0203 (by8 [2,
      7, 1, 1, 255, 1, 255, 255]), by decide +kernel⟩,
    ⟨held (cmdOf 0x0204 (by8 [6])), cmdOf 0x0204 (by8 [6]), by decide +kernel⟩,
    ⟨held (cmdOf 0x0205 (by8 [99])) (locked0 100), cmdOf 0x0205 (by8 [99]), by decide +kernel⟩,
    ⟨held (cmdOf 0x0205 (by8 [99])) (fun d => placed0 (locked0 100 d)), cmdOf 0x0205 (by8 [99]), by decide +kernel⟩,
    ⟨held (cmdOf 0x0206 (by8 [7, 2, 1, 1, 0, 0, 0, 0, 0xFF])), cmdOf 0x0206 (by8 [7, 2, 1, 1, 0, 0, 0, 0, 0xFF]),
      by decide +kernel⟩,
    ⟨held (cmdOf 0x0207 (by8 [])) (locked0 100), cmdOf 0x0207 (by8 []), by decide +kernel⟩,
    ⟨held (cmdOf 0x0300 (by8 ([0xFF, 0x0F, 1] ++ List.replicate 5 0 ++ [0, 5]))), cmdOf 0x0300 (by8 ([0xFF, 0x0F,
      1] ++ List.replicate 5 0 ++ [0, 5])), by decide +kernel⟩,
    ⟨held (cmdOf 0x0301 (by8 [0x81, 0x0F, 127, 0, 1])) (fun d => { d with ms := { d.ms with active := [(4095, 1#256)] } }),
      cmdOf 0x0301 (by8 [0x81, 0x0F, 127, 0, 1]), by decide +kernel⟩,
    ⟨held (cmdOf 0x0302 (by8 [0])) (fun d => d.setReg .TL_CT_CFG 1 0), cmdOf 0x0302 (by8 [0]), by decide +kernel⟩,
    ⟨held (cmdOf 0x0302 (by8 [0])) (fun d =>
      { d.setReg .TL_CT_CFG 1 0 with ms := { d.ms with commit := some { ct := 0, b := 9, mbx := 0 } } }),
      cmdOf 0x0302 (by8 [0]), by decide +kernel⟩⟩

/-! ### Witnesses: stream, copy, list and residency commands -/

def persist0 (st : CtxState) (d : Dev) : Dev := d.setCtx 287 { st, desc := { writeDesc with persist := true } }
def copyJob (kind : Nat) : Job :=
  job 0x0403 ([kind, 0, 0, 0, 0, 0, 0, 0, 0, 0x20, 0, 0, 0, 0, 0, 0, 0, 0x30, 0, 0, 0, 0, 0, 0, 2])
def copying (kind : Nat) : State := up fun d =>
  { d with cp := { d.cp with jobs := [{ copyJob kind with held := true }] }, mem := memAt 0x2000 (by8 [7, 8]) }
/-- A COPY from the host to another device, under way. -/
def farJob : Job := { job 0x0403 (List.replicate 20 0 ++ [0x80, 0, 0, 0, 2]) with held := true }
def copyingFar (f : Dev → Dev) : State := up fun d => f { d with cp := { d.cp with jobs := [farJob] } }
def live31 (d : Dev) : Dev := d.setEng 31 { st := .idle }
/-- A residency entry's bytes, of slot 0 of engine 31 with one tile. -/
def resEntry : List Nat := [0xFF, 0, 0, 0, 9, 31, 1] ++ List.replicate 25 0

theorem witness_StreamAndCopyCommands :
    (∃ (s : State) (c : Cmd), s.holds c 0x0400 ∧ c.f 0 2 ≤ 287 ∧ s.dev.mayCtx c.mbx (c.f 0 2) = true ∧
      s.dev.mayName c.mbx (Desc.ofBytes (slice c.payload 8 96)) = true ∧ s.dev.ctxUp (c.f 0 2) = true ∧
      s.dev.cp.dramReady = true ∧ s.dev.descBad (c.f 0 2) (slice c.payload 8 96) = false ∧
      (s.dev.ctx (c.f 0 2)).takesArm = true ∧ s.dev.reserveShort (c.f 0 2) (Desc.ofBytes (slice c.payload 8 96)).resv = false) ∧
    (∃ (s : State) (c : Cmd), s.holds c 0x0401 ∧ c.f 0 2 ≤ 287 ∧ s.dev.mayCtx c.mbx (c.f 0 2) = true ∧
      ((s.dev.ctx (c.f 0 2)).desc.kind = 4 → c.f 8 8 % 8 = 0) ∧ s.dev.ctxUp (c.f 0 2) = true ∧
      (s.dev.ctx (c.f 0 2)).takesRearm = true) ∧
    (∃ (s : State) (c : Cmd), s.holds c 0x0401 ∧ c.f 0 2 ≤ 287 ∧ s.dev.mayCtx c.mbx (c.f 0 2) = true ∧
      ((s.dev.ctx (c.f 0 2)).desc.kind = 4 → c.f 8 8 % 8 = 0) ∧ s.dev.ctxUp (c.f 0 2) = true ∧
      (s.dev.ctx (c.f 0 2)).takesRearm = true) ∧
    (∃ (s : State) (c : Cmd), s.holds c 0x0401 ∧ c.f 0 2 ≤ 287 ∧ (s.dev.ctx (c.f 0 2)).desc.kind = 4 ∧ c.f 8 8 % 8 ≠ 0) ∧
    (∃ (s : State) (c : Cmd), s.holds c 0x0402 ∧ c.f 0 2 ≤ 287 ∧ s.dev.mayCtx c.mbx (c.f 0 2) = true ∧
      s.dev.ctxUp (c.f 0 2) = true) ∧
    (∃ (s : State) (c : Cmd), s.holds c 0x0402 ∧ c.f 0 2 ≤ 287 ∧ s.dev.mayCtx c.mbx (c.f 0 2) = true ∧
      s.dev.ctxUp (c.f 0 2) = true) ∧
    (∃ (s : State) (c : Cmd), s.holds c 0x0404 ∧ c.f 0 1 ≤ 1) ∧
    (∃ (s : State) (c : Cmd), s.holds c 0x0405 ∧ c.f 4 4 ≤ 4095 ∧ c.f 8 8 % 2 ^ 20 = 0 ∧
      inDram (c.f 8 8) (c.f 4 4 * 2 ^ 20) = true ∧ s.dev.armedCtxs = []) ∧
    (∃ (s : State) (c : Cmd), s.holds c 0x0403 ∧ c.f 0 1 ≤ 2 ∧ (c.f 0 1 ≠ 0 → c.f 8 8 < 2 ^ 41) ∧
      (c.f 0 1 ≠ 1 → c.f 16 8 < 2 ^ 41) ∧ 1 ≤ c.f 24 8 ∧ c.f 24 8 ≤ 2 ^ 30 ∧ s.dev.cp.dramReady = true) ∧
    (∃ (s : State) (j : Job), s.on ∧ s.dev.cp.jobs.find? (fun j => j.opcode = 0x0403 && !j.v1 && j.left = 0) = some j) ∧
    (∃ (s : State) (j : Job), s.on ∧ s.dev.cp.jobs.find? (fun j => j.opcode = 0x0403 && !j.v1 && j.left = 0) = some j) ∧
    (∃ (s : State) (j : Job), s.on ∧ s.dev.cp.jobs.find? (fun j => j.opcode = 0x0403 && !j.v1 && j.left = 0) = some j) ∧
    (∃ (s : State) (j : Job), s.on ∧ s.dev.cp.jobs.find? (fun j => j.opcode = 0x0403 && !j.v1 && j.left = 0) = some j) ∧
    (∃ (s : State) (j : Job), s.on ∧ s.dev.cp.jobs.find? (fun j => j.opcode = 0x0403 && !j.v1 && j.left = 0) = some j) ∧
    (∃ (s : State) (j : Job), s.on ∧ s.dev.cp.jobs.find? (fun j => j.opcode = 0x0403 && !j.v1 && j.left = 0) = some j) :=
  ⟨⟨held (cmdOf 0x0400 (by8 (List.replicate 8 0 ++ descNums))), cmdOf 0x0400 (by8 (List.replicate 8 0 ++ descNums)),
      by decide +kernel⟩,
    ⟨held (cmdOf 0x0401 (by8 [0x1F, 1, 0, 0, 0, 0, 0, 0, 64])) (persist0 .passEnd), cmdOf 0x0401 (by8 [0x1F, 1, 0, 0, 0, 0, 0,
      0, 64]), by decide +kernel⟩,
    ⟨held (cmdOf 0x0401 (by8 [0x1F, 1, 0, 0, 0, 0, 0, 0, 64])) (persist0 .active), cmdOf 0x0401 (by8 [0x1F, 1, 0, 0, 0, 0, 0, 0,
      64]), by decide +kernel⟩,
    ⟨held (cmdOf 0x0401 (by8 [0x1F, 1, 0, 0, 0, 0, 0, 0, 65])) (fun d => d.setCtx 287 { desc := { writeDesc with kind := 4 } }),
      cmdOf 0x0401 (by8 [0x1F, 1, 0, 0, 0, 0, 0, 0, 65]), by decide +kernel⟩,
    ⟨held (cmdOf 0x0402 (by8 [0x1F, 1])) (persist0 .active), cmdOf 0x0402 (by8 [0x1F, 1]), by decide +kernel⟩,
    ⟨held (cmdOf 0x0402 (by8 [0x1F, 1])), cmdOf 0x0402 (by8 [0x1F, 1]), by decide +kernel⟩,
    ⟨held (cmdOf 0x0404 (by8 [1, 0, 0xFF, 0xFF])), cmdOf 0x0404 (by8 [1, 0, 0xFF, 0xFF]), by decide +kernel⟩,
    ⟨held (cmdOf 0x0405 (by8 [16, 0, 5, 0, 0xFF, 15, 0, 0, 0, 0, 0x10])), cmdOf 0x0405 (by8 [16, 0, 5, 0, 0xFF, 15, 0, 0, 0, 0,
      0x10]), by decide +kernel⟩,
    ⟨held (cmdOf 0x0403 (by8 ([1] ++ List.replicate 23 0 ++ [0, 0, 0, 64])) (async := true)),
      cmdOf 0x0403 (by8 ([1] ++ List.replicate 23 0 ++ [0, 0, 0, 64])) (async := true), by decide +kernel⟩,
    ⟨copying 0, { copyJob 0 with held := true }, by decide +kernel⟩,
    ⟨copying 1, { copyJob 1 with held := true }, by decide +kernel⟩,
    ⟨copying 2, { copyJob 2 with held := true }, by decide +kernel⟩,
    ⟨copying 2, { copyJob 2 with held := true }, by decide +kernel⟩,
    ⟨copyingFar id, farJob, by decide +kernel⟩,
    ⟨copyingFar (fun d => d.setPeer 3 { st := .up, pdev := some 1 }), farJob, by decide +kernel⟩⟩

theorem witness_ListAndResidencyCommands :
    (∃ (s : State) (c : Cmd), s.holds c 0x0500 ∧ (c.f 12 2 ≤ 4095 ∨ c.f 12 2 = 0xFFFF) ∧ (c.f 14 2 ≤ 4095 ∨ c.f 14 2 = 0xFFFF) ∧
      (c.f 12 2 ≠ 0xFFFF → s.dev.mayEntry c.mbx (c.f 12 2) = true) ∧
      (c.f 14 2 ≠ 0xFFFF → s.dev.mayEntry c.mbx (c.f 14 2) = true) ∧ c.f 8 4 ≠ 0 ∧ (∀ e,
      e < 32 → bit (c.f 8 4) e = true → listAddrOk (c.f 0 8) e = true ∧ s.dev.mayEngine c.mbx e = true ∧
      s.dev.regionUp (e / 4) = true ∧ (s.dev.eng e).held < 8 ∧ (s.dev.eng e).st ≠ .off ∧ (s.dev.eng e).st ≠ .shutdown ∧
      (s.dev.eng e).st ≠ .shutdownRestart)) ∧
    (∃ (s : State) (c : Cmd), s.holds c 0x0500 ∧ (c.f 12 2 ≤ 4095 ∨ c.f 12 2 = 0xFFFF) ∧ (c.f 14 2 ≤ 4095 ∨ c.f 14 2 = 0xFFFF) ∧
      (c.f 12 2 ≠ 0xFFFF → s.dev.mayEntry c.mbx (c.f 12 2) = true) ∧
      (c.f 14 2 ≠ 0xFFFF → s.dev.mayEntry c.mbx (c.f 14 2) = true) ∧ c.f 8 4 ≠ 0 ∧ (∀ e,
      e < 32 → bit (c.f 8 4) e = true → listAddrOk (c.f 0 8) e = true ∧ s.dev.mayEngine c.mbx e = true ∧
      s.dev.regionUp (e / 4) = true ∧ (s.dev.eng e).held < 8 ∧ (s.dev.eng e).st ≠ .off ∧ (s.dev.eng e).st ≠ .shutdown ∧
      (s.dev.eng e).st ≠ .shutdownRestart)) ∧
    (∃ (s : State) (c : Cmd), s.holds c 0x05 true ∧ c.f 0 4 ≠ 0 ∧ (∀ e,
      e < 32 → bit (c.f 0 4) e = true → listAddrOk (c.f 8 8) e = true ∧ s.dev.mayEngine c.mbx e = true ∧
      s.dev.regionUp (e / 4) = true ∧ (s.dev.eng e).held < 8 ∧ (s.dev.eng e).st ≠ .off ∧ (s.dev.eng e).st ≠ .shutdown ∧
      (s.dev.eng e).st ≠ .shutdownRestart)) ∧
    (∃ (s : State) (c : Cmd), s.holds c 0x0501 ∧ c.f 0 4 ≠ 0 ∧ c.f 4 1 ≤ 1 ∧ (∀ e,
      e < 32 → bit (c.f 0 4) e = true → s.dev.mayEngine c.mbx e = true ∧ s.dev.regionUp (e / 4) = true)) ∧
    (∃ (s : State) (c : Cmd), s.holds c 0x0502 ∧ c.f 0 1 ≤ 31) ∧
    (∃ (s : State) (c : Cmd), s.holds c 0x0503 ∧ c.f 0 1 ≤ 31 ∧ strays (c.f 4 4) 0xFF01FF00 = false ∧
      s.dev.mayEngine c.mbx (c.f 0 1) = true ∧ s.dev.regionUp (c.f 0 1 / 4) = true) ∧
    (∃ (s : State) (c : Cmd), s.holds c 0x0600 ∧ c.f 0 1 ≤ 31 ∧ c.f 1 1 ≤ 3 ∧ c.f 2 1 ≤ 15 ∧
      (∀ r ∈ (s.dev.eng (c.f 0 1)).rslots, r.1 ≠ c.f 1 1 → r.2.tmask &&& c.f 2 1 = 0) ∧ 2 ≤ c.f 4 4 ∧ c.f 4 4 ≤ 100 ∧
      s.dev.mayEngine c.mbx (c.f 0 1) = true ∧ s.dev.regionUp (c.f 0 1 / 4) = true) ∧
    (∃ (s : State) (c : Cmd), s.holds c 0x0601 ∧ c.f 0 2 ≤ 4095 ∧ 1 ≤ c.f 2 2 ∧ c.f 2 2 ≤ 127 ∧ c.f 0 2 + c.f 2 2 ≤ 4096 ∧ (∀ i,
      i < c.f 2 2 → s.dev.resBad (c.entry32 i) = none ∧ s.dev.mayEngine c.mbx (fld (c.entry32 i).toNat 40 5) = true ∧
      s.dev.regionUp (fld (c.entry32 i).toNat 40 5 / 4) = true ∧
      (bit (tget s.dev.res (c.f 0 2 + i) 0#256).toNat 32 = true → s.dev.mayEngine c.mbx (fld (tget s.dev.res (c.f 0 2 + i)
      0#256).toNat 40 5) = true))) ∧
    (∃ (s : State) (c : Cmd), s.holds c 0x0602 ∧ c.f 0 2 ≤ 4095 ∧ 1 ≤ c.f 2 2 ∧ c.f 2 2 ≤ 127 ∧ c.f 0 2 + c.f 2 2 ≤ 4096) :=
  ⟨⟨held (cmdOf 0x0500 (by8 [0, 0x10, 0, 0, 0, 0, 0, 0, 0, 0, 0, 0x80, 0xFF, 0x0F, 0xFF, 0xFF, 7])) live31,
      cmdOf 0x0500 (by8 [0, 0x10, 0, 0, 0, 0, 0, 0, 0, 0, 0, 0x80, 0xFF, 0x0F, 0xFF, 0xFF, 7]), by decide +kernel⟩,
    ⟨held (cmdOf 0x0500 (by8 [0, 0, 0x80, 0x0F, 0x78, 0, 0, 0, 0, 0, 0, 0x80, 0xFF, 0xFF, 0xFF, 0x0F])) live31,
      cmdOf 0x0500 (by8 [0, 0, 0x80, 0x0F, 0x78, 0, 0, 0, 0, 0, 0, 0x80, 0xFF, 0xFF, 0xFF, 0x0F]), by decide +kernel⟩,
    ⟨held (cmdOf 0x05 (by8 [0, 0, 0, 0x80, 0, 0, 0, 0, 32]) true) live31, cmdOf 0x05 (by8 [0, 0, 0, 0x80, 0, 0, 0, 0, 32]) true,
      by decide +kernel⟩,
    ⟨held (cmdOf 0x0501 (by8 [0, 0, 0, 0x80, 1])) (fun d =>
      d.setEng 31 { st := .running, run := some run0, placed := [run0.plc] }), cmdOf 0x0501 (by8 [0, 0, 0, 0x80, 1]),
      by decide +kernel⟩,
    ⟨held (cmdOf 0x0502 (by8 [31])) live31, cmdOf 0x0502 (by8 [31]), by decide +kernel⟩,
    ⟨held (cmdOf 0x0503 (by8 [31, 0, 0xFF, 0xFF, 0, 0xFF, 1, 0xFF])), cmdOf 0x0503 (by8 [31, 0, 0xFF, 0xFF, 0, 0xFF, 1, 0xFF]),
      by decide +kernel⟩,
    ⟨held (cmdOf 0x0600 (by8 [31, 3, 12, 0, 100])) (fun d => d.setEng 31 { rslots := [(0, ⟨3, 2⟩), (3, ⟨15, 5⟩)] }),
      cmdOf 0x0600 (by8 [31, 3, 12, 0, 100]), by decide +kernel⟩,
    ⟨held (cmdOf 0x0601 (by8 ([0xFF, 0x0F, 1, 0, 0, 0, 0, 0] ++ resEntry))) (fun d => d.setEng 31 { rslots := [(0, ⟨1, 2⟩)] }),
      cmdOf 0x0601 (by8 ([0xFF, 0x0F, 1, 0, 0, 0, 0, 0] ++ resEntry)), by decide +kernel⟩,
    ⟨held (cmdOf 0x0602 (by8 [0x81, 0x0F, 127])) (fun d => { d with res := [(4095, 5#256)] }), cmdOf 0x0602 (by8 [0x81, 0x0F,
      127]), by decide +kernel⟩⟩

/-! ### Witnesses: tile, lock, calibration and laser commands -/

/-- A region's images of one tile: its curve image (R74) with two points. -/
def curveImg : List Nat := [2, 5, 2, 0, 0, 0, 0x4C, 0xE7, 0, 0, 0, 0, 0xC0, 3, 0xF0, 0xF]
/-- Memory holds the eight bytes at 0x2000. -/
def img8 (bs : List Nat) (d : Dev) : Dev := { d with mem := memAt 0x2000 (by8 bs) }
def gainCmd (p : Nat) : Cmd := cmdOf 0x0702 (by8 [p, 0, 0, 0, 0, 0, 0, 0, 0, 0x20])
def ltabCmd (p : Nat) (v1 : Bool) : Cmd := cmdOf (if v1 then 7 else 0x0707) (by8 [p, 0, 0, 0, 0, 0, 0, 0, 0, 0x20]) v1
def gainBytes : List Nat := [3, 0, 0, 0, 1, 0, 0xFC, 0xFF]
def ltabBytes : List Nat := [4, 0, 1, 0, 0, 0, 0xFB, 0xFF]
def gain8 : State := held (gainCmd 128) (img8 gainBytes)
def ltab8 (v1 : Bool) : State := held (ltabCmd 128 v1) (img8 ltabBytes)

/-- A field of bytes read from memory is those bytes of memory. -/
theorem slice_rdBytes (d : Dev) (a n o m : Nat) (h : o + m ≤ n) : slice (d.rdBytes a n) o m = d.rdBytes (a + o) m := by
  simp only [slice, padTo, Dev.rdBytes, upTo, zeros]
  apply List.ext_getElem
  · simp; omega
  · intro i h1 h2
    simp at h1 h2
    rw [List.getElem_take, List.getElem_append_left (by simp; omega)]
    simp [Nat.add_assoc]

theorem read_past (m : List Host.Cell) (a : Nat) (h : ∀ c ∈ m, c.1 < a) : Memory.read m a = 0#8 := by
  induction m with
  | nil => rfl
  | cons c m ih =>
    obtain ⟨k, b⟩ := c
    have h1 : k < a := h (k, b) (by simp)
    simp only [Memory.read]
    rw [if_neg (by omega), if_neg (by omega)]
    exact ih fun c hc => h c (by simp [hc])

theorem sum_head (g : Nat → Nat) (h : ∀ k, 4 ≤ k → g k = 0) (n : Nat) :
    (List.range (4 + n)).foldl (fun s k => s + g k) 0 = g 0 + g 1 + g 2 + g 3 := by
  induction n with
  | zero => simp [List.range, List.range.loop]
  | succ n ih =>
    rw [show 4 + (n + 1) = (4 + n) + 1 from rfl, List.range_succ, List.foldl_append, ih]
    simp [h (4 + n) (by omega)]

theorem foldl_same (f g : Nat → Nat) (l : List Nat) (h : ∀ k ∈ l, f k = g k) (s : Nat) :
    l.foldl (fun s k => s + f k) s = l.foldl (fun s k => s + g k) s := by
  induction l generalizing s with
  | nil => rfl
  | cons k l ih => simp only [List.foldl, h k (by simp)]; exact ih (fun k hk => h k (by simp [hk])) _

/-- An image whose bytes are zero from its ninth on has the sum of its first four halfwords. -/
theorem sum_image (d : Dev) (a n : Nat) (h : ∀ i, 8 ≤ i → d.rd (a + i) = 0#8) :
    sum16 (d.rdBytes a (2 * (4 + n))) (4 + n) =
      (d.rdLe a 2 + d.rdLe (a + 2) 2 + d.rdLe (a + 4) 2 + d.rdLe (a + 6) 2) % 65536 := by
  have e : ∀ k ∈ List.range (4 + n), getLe (d.rdBytes a (2 * (4 + n))) (2 * k) 2 = d.rdLe (a + 2 * k) 2 := by
    intro k hk
    have := List.mem_range.mp hk
    rw [getLe, slice_rdBytes _ _ _ _ _ (by omega)]
    rfl
  rw [sum16, upTo, foldl_same _ _ _ e, sum_head]
  · simp
  · intro k hk
    simp [Dev.rdLe, Dev.rdBytes, upTo, List.range, List.range.loop, ofLe, h _ (by omega : 8 ≤ 2 * k), Nat.add_assoc,
      h _ (by omega : 8 ≤ 2 * k + 1)]

/-- Memory that holds eight bytes at 0x2000 reads zero behind them. -/
theorem img8_zero (d : Dev) (m : List Host.Cell) (hw : d.wr = []) (hm : d.mem = m) (hl : ∀ c ∈ m, c.1 < 0x2008) (i : Nat)
    (h : 8 ≤ i) : d.rd (0x2000 + i) = 0#8 := by
  have : d.rd (0x2000 + i) = Memory.read d.mem (0x2000 + i) := by simp [Dev.rd, hw]
  rw [this, hm]
  exact read_past _ _ fun c hc => by have := hl c hc; omega

theorem rdLe_zero (d : Dev) (a : Nat) (z : ∀ i, 8 ≤ i → d.rd (a + i) = 0#8) (o : Nat) (h : 8 ≤ o) : d.rdLe (a + o) 2 = 0 := by
  simp [Dev.rdLe, Dev.rdBytes, upTo, List.range, List.range.loop, ofLe, z o h, Nat.add_assoc, z (o + 1) (by omega)]

theorem gain_ok : gainOk (gain8.dev.rdBytes 0x2000 19736) = true := by
  have z := img8_zero gain8.dev gain8.dev.mem (by decide +kernel) rfl (by decide +kernel)
  have s : sum16 (gain8.dev.rdBytes 0x2000 19736) 9868 = _ := sum_image gain8.dev 0x2000 9864 z
  have f (o m : Nat) (h : o + m ≤ 19736) : getLe (gain8.dev.rdBytes 0x2000 19736) o m = gain8.dev.rdLe (0x2000 + o) m := by
    rw [getLe, slice_rdBytes _ _ _ _ _ h]; rfl
  simp only [gainOk, Bool.and_eq_true, decide_eq_true_eq, List.all_eq_true]
  refine ⟨⟨⟨⟨⟨?_, ?_⟩, ?_⟩, ?_⟩, ?_⟩, fun k hk => ?_⟩
  · rw [f _ _ (by decide)]; decide +kernel
  · rw [f _ _ (by decide)]; decide +kernel
  · rw [f _ _ (by decide)]; decide +kernel
  · rw [f _ _ (by decide)]; decide +kernel
  · rw [s]; decide +kernel
  · have := List.mem_range.mp hk
    rw [f _ _ (by omega), rdLe_zero _ _ z _ (by omega)]
    decide

theorem ltab_ok (v1 : Bool) : ltabOk ((ltab8 v1).dev.rdBytes 0x2000 133128) = true := by
  have z := img8_zero (ltab8 v1).dev (ltab8 v1).dev.mem (by cases v1 <;> decide +kernel) rfl (by cases v1 <;> decide +kernel)
  have s : sum16 ((ltab8 v1).dev.rdBytes 0x2000 133128) 66564 = _ := sum_image (ltab8 v1).dev 0x2000 66560 z
  have f (o m : Nat) (h : o + m ≤ 133128) :
      getLe ((ltab8 v1).dev.rdBytes 0x2000 133128) o m = (ltab8 v1).dev.rdLe (0x2000 + o) m := by
    rw [getLe, slice_rdBytes _ _ _ _ _ h]; rfl
  simp only [ltabOk, Bool.and_eq_true, decide_eq_true_eq, List.all_eq_true]
  refine ⟨⟨⟨⟨?_, ?_⟩, ?_⟩, ?_⟩, fun k hk => ?_⟩
  · rw [f _ _ (by decide)]; cases v1 <;> decide +kernel
  · rw [f _ _ (by decide)]; cases v1 <;> decide +kernel
  · rw [f _ _ (by decide)]; cases v1 <;> decide +kernel
  · rw [s]; cases v1 <;> decide +kernel
  · have := List.mem_range.mp hk
    rw [f _ _ (by omega), rdLe_zero _ _ z _ (by omega)]
    decide

theorem witness_ImageCommands :
    (∃ (s : State) (c : Cmd), s.holds c 0x0700 ∧ c.f 0 1 ≤ 135 ∧ curveBad (slice c.payload 8 136) = none ∧
      s.dev.regionUp (regionOfP (c.f 0 1)) = true) ∧
    (∃ (s : State) (c : Cmd), s.holds c 0x0700 ∧ c.f 0 1 ≤ 135 ∧ curveBad (slice c.payload 8 136) = none ∧
      s.dev.regionUp (regionOfP (c.f 0 1)) = true) ∧
    (∃ (s : State) (c : Cmd), s.holds c 0x0702 ∧ c.f 0 1 ≤ 135 ∧ imageAt (c.f 8 8) 19736 = true ∧
      gainOk (s.dev.rdBytes (c.f 8 8) 19736) = true ∧ s.dev.regionUp (regionOfP (c.f 0 1)) = true) ∧
    (∃ (s : State) (c : Cmd) (i : Instr), ((i = .ltabWrite ∧ s.holds c 0x0707) ∨ (i = .ltwr ∧ s.holds c 0x07 true)) ∧
      c.f 0 2 ≤ 135 ∧ c.f 8 8 % 8 = 0 ∧ inDram (c.f 8 8) 133128 = true ∧ ltabOk (s.dev.rdBytes (c.f 8 8) 133128) = true ∧
      s.dev.regionUp (regionOfP (c.f 0 2)) = true) ∧
    (∃ (s : State) (c : Cmd) (i : Instr), ((i = .ltabWrite ∧ s.holds c 0x0707) ∨ (i = .ltwr ∧ s.holds c 0x07 true)) ∧
      c.f 0 2 ≤ 135 ∧ c.f 8 8 % 8 = 0 ∧ inDram (c.f 8 8) 133128 = true ∧ ltabOk (s.dev.rdBytes (c.f 8 8) 133128) = true ∧
      s.dev.regionUp (regionOfP (c.f 0 2)) = true) ∧
    (∃ (s : State) (c : Cmd), s.holds c 0x0701 ∧ c.f 0 1 ≤ 135 ∧ (c.f 1 1 = 1 ∨ c.f 1 1 = 2) ∧ c.f 2 1 ≤ 63 ∧
      (c.f 1 1 = 1 → c.f 2 1 = 0)) ∧
    (∃ (s : State) (c : Cmd) (i : Instr), ((i = .ltabRead ∧ s.holds c 0x0708) ∨ (i = .ltrd ∧ s.holds c 0x08 true)) ∧
      c.f 0 2 ≤ 135 ∧ c.f 8 8 % 8 = 0 ∧ inDram (c.f 8 8) 133128 = true) :=
  ⟨⟨held (cmdOf 0x0700 (by8 ([128, 0, 0, 0, 0, 0, 0, 0] ++ curveImg))), cmdOf 0x0700 (by8 ([128, 0, 0, 0, 0, 0, 0,
      0] ++ curveImg)), by decide +kernel⟩,
    ⟨held (cmdOf 0x0700 (by8 ([0, 0, 0, 0, 0, 0, 0, 0] ++ curveImg))), cmdOf 0x0700 (by8 ([0, 0, 0, 0, 0, 0, 0,
      0] ++ curveImg)), by decide +kernel⟩,
    ⟨gain8, gainCmd 128, ⟨by decide +kernel, by decide +kernel, by decide +kernel, gain_ok, by decide +kernel⟩⟩,
    ⟨ltab8 false, ltabCmd 128 false, .ltabWrite, ⟨.inl ⟨rfl, by decide +kernel⟩, by decide +kernel, by decide +kernel,
      by decide +kernel, ltab_ok false, by decide +kernel⟩⟩,
    ⟨ltab8 true, ltabCmd 128 true, .ltwr, ⟨.inr ⟨rfl, by decide +kernel⟩, by decide +kernel, by decide +kernel,
      by decide +kernel, ltab_ok true, by decide +kernel⟩⟩,
    ⟨held (cmdOf 0x0701 (by8 [0, 2, 63])), cmdOf 0x0701 (by8 [0, 2, 63]), by decide +kernel⟩,
    ⟨held (cmdOf 0x0708 (by8 [135, 0, 0, 0, 0, 0, 0, 0, 0, 0x20])), cmdOf 0x0708 (by8 [135, 0, 0, 0, 0, 0, 0, 0, 0, 0x20]),
      .ltabRead, ⟨.inl ⟨rfl, by decide +kernel⟩, by decide +kernel⟩⟩⟩

theorem witness_TileConfigurationCommands :
    (∃ (s : State) (c : Cmd), s.holds c 0x0703 ∧ c.f 0 2 < 128 ∧ c.f 4 4 % 4 < 2 ∧ (∀ k,
      k < 6 → strays (c.f (4 + 4 * k) 4) (lockRegs.getD k .LOCK_CFG).row.rw = false) ∧ s.dev.regionUp (c.f 0 2 / 16) = true) ∧
    (∃ (s : State) (c : Cmd) (rg : Nat), s.holds c 0x0703 ∧ rg < 8 ∧ c.f 0 2 = 0x100 + rg ∧ c.f 4 4 % 4 < 2 ∧ (∀ k,
      k < 6 → strays (c.f (4 + 4 * k) 4) (lockRegs.getD k .LOCK_CFG).row.rw = false) ∧ s.dev.regionUp rg = true) ∧
    (∃ (s : State) (c : Cmd) (i : Instr) (lo len : Nat), ((i = .recal ∧ lo = 2 ∧ len = 6 ∧ c.f 2 1 ≤ 63 ∧
      s.holds c 0x09 true) ∨ (i = .lmode ∧ lo = 0 ∧ len = 2 ∧ c.f 2 1 ≤ 1 ∧ s.holds c 0x0B true)) ∧ c.f 0 2 < 128 ∧
      s.dev.regionUp (c.f 0 2 / 16) = true) ∧
    (∃ (s : State) (c : Cmd) (i : Instr) (lo len : Nat), ((i = .recal ∧ lo = 2 ∧ len = 6 ∧ c.f 2 1 ≤ 63 ∧
      s.holds c 0x09 true) ∨ (i = .lmode ∧ lo = 0 ∧ len = 2 ∧ c.f 2 1 ≤ 1 ∧ s.holds c 0x0B true)) ∧ c.f 0 2 < 128 ∧
      s.dev.regionUp (c.f 0 2 / 16) = true) ∧
    (∃ (s : State) (c : Cmd), s.holds c 0x0705 ∧ c.f 0 2 ≤ 127 ∧ strays (c.f 4 4) 0xF0F33 = false ∧
      s.dev.mayEngine c.mbx (c.f 0 2 / 4) = true ∧ s.dev.regionUp (c.f 0 2 / 16) = true) ∧
    (∃ (s : State) (c : Cmd), s.holds c 0x0706 ∧ c.f 0 1 ≤ 7 ∧ c.f 1 1 ≤ 2 ∧ s.dev.regionUp (c.f 0 1) = true ∧
      s.dev.rdwkMode (c.f 0 1) ≠ 2) ∧
    (∃ (s : State) (c : Cmd), s.holds c 0x0706 ∧ c.f 0 1 ≤ 7 ∧ c.f 1 1 ≤ 2 ∧ s.dev.regionUp (c.f 0 1) = true ∧
      s.dev.rdwkMode (c.f 0 1) = 2 ∧ s.dev.spare (c.f 0 1) = 0xFF) :=
  ⟨⟨held (cmdOf 0x0703 (by8 [127, 0, 0, 0, 1])), cmdOf 0x0703 (by8 [127, 0, 0, 0, 1]), by decide +kernel⟩,
    ⟨held (cmdOf 0x0703 (by8 [7, 1, 0, 0, 1])), cmdOf 0x0703 (by8 [7, 1, 0, 0, 1]), 7, by decide +kernel⟩,
    ⟨held (cmdOf 0x09 (by8 [127, 0, 63]) true), cmdOf 0x09 (by8 [127, 0, 63]) true, .recal, 2, 6, ⟨.inl (by decide +kernel),
      by decide +kernel⟩⟩,
    ⟨held (cmdOf 0x0B (by8 [127, 0, 1]) true), cmdOf 0x0B (by8 [127, 0, 1]) true, .lmode, 0, 2, ⟨.inr (by decide +kernel),
      by decide +kernel⟩⟩,
    ⟨held (cmdOf 0x0705 (by8 [127, 0, 0, 0, 0x33, 0x0F, 0x0F])), cmdOf 0x0705 (by8 [127, 0, 0, 0, 0x33, 0x0F, 0x0F]),
      by decide +kernel⟩,
    ⟨held (cmdOf 0x0706 (by8 [7, 2, 9, 0, 5, 0, 6])), cmdOf 0x0706 (by8 [7, 2, 9, 0, 5, 0, 6]), by decide +kernel⟩,
    ⟨held (cmdOf 0x0706 (by8 [7, 1, 9, 0, 5, 0, 6])) (fun d =>
      { d.setRgn 7 { cfg := some (2, 0) } with spares := [(7, 0xFF)] }), cmdOf 0x0706 (by8 [7, 1, 9, 0, 5, 0, 6]),
      by decide +kernel⟩⟩

theorem witness_AcquireAndLaserCommands :
    (∃ (s : State) (c : Cmd), s.holds c 0x0704 ∧ c.f 0 1 ≤ 135 ∧ s.dev.logicalOf (c.f 0 1) = none ∧
      s.dev.regionUp (regionOfP (c.f 0 1)) = true ∧
      (s.dev.spare (regionOfP (c.f 0 1)) = 0xFF ∨ s.dev.spare (regionOfP (c.f 0 1)) = c.f 0 1) ∧
      (s.dev.rgn (regionOfP (c.f 0 1))).cal ≠ some (c.f 0 1) ∧ (∀ w,
      (s.dev.rgn (regionOfP (c.f 0 1))).swap = some w → w.new ≠ c.f 0 1 ∧ w.old ≠ c.f 0 1)) ∧
    (∃ (s : State) (c : Cmd), s.holds c 0x0800 ∧ c.f 0 1 ≤ 3 ∧ lsaThrOk (c.f 4 4) = true ∧ c.f 4 4 < 2 ^ 30) ∧
    (∃ (s : State) (c : Cmd), s.holds c 0x0801 ∧ c.f 0 1 ≤ 3 ∧ c.f 1 1 ≤ 1) ∧
    (∃ (s : State) (c : Cmd), s.holds c 0x0802 ∧ c.f 0 1 ≤ 3 ∧ c.f 1 1 ≤ 1 ∧
      ((s.dev.stk (c.f 0 1)).comb (c.f 1 1)).st.out = true ∧ s.dev.readmitting (c.f 0 1) (c.f 1 1) = false) ∧
    (∃ (s : State) (c : Cmd), s.holds c 0x0803 ∧ c.f 0 1 ≤ 3) :=
  ⟨⟨held (cmdOf 0x0704 (by8 [128])), cmdOf 0x0704 (by8 [128]), ⟨by decide +kernel, by decide +kernel, by decide +kernel,
      by decide +kernel, by decide +kernel, by decide +kernel, fun w h => nomatch h⟩⟩,
    ⟨held (cmdOf 0x0800 (by8 [3, 0, 0, 0, 0x50, 0x58, 0xC2, 0x12])), cmdOf 0x0800 (by8 [3, 0, 0, 0, 0x50, 0x58, 0xC2, 0x12]),
      by decide +kernel⟩,
    ⟨held (cmdOf 0x0801 (by8 ([3, 1] ++ List.replicate 128 0xFF))), cmdOf 0x0801 (by8 ([3, 1] ++ List.replicate 128 0xFF)),
      by decide +kernel⟩,
    ⟨held (cmdOf 0x0802 (by8 [0, 1])) (fun d => d.setStk 0 { combB := { st := .failed } }), cmdOf 0x0802 (by8 [0, 1]),
      by decide +kernel⟩,
    ⟨held (cmdOf 0x0803 (by8 [3])), cmdOf 0x0803 (by8 [3]), by decide +kernel⟩⟩


theorem witness_ConverterAndThermalCommands :
    (∃ (s : State) (c : Cmd), s.holds c 0x0900 ∧ c.f 0 1 ≤ 7 ∧ (c.f 1 1 = 6 ∨ c.f 1 1 = 7) ∧ restricted c.mbx = false ∧
      c.f 2 1 ≤ 4 ∧ c.f 3 1 ≤ 2 ∧ c.f 4 1 ≤ 63 ∧ c.f 5 1 ≤ 1 ∧ 49152 ≤ c.f 8 4 ∧ c.f 8 4 ≤ 49152000 ∧
      (c.f 5 1 = 1 → auxValid (c.f 2 1) (c.f 3 1) (c.f 12 2) (c.f 14 2) (c.f 16 2) = true) ∧ c.f 20 4 < 2 ^ 23 ∧
      s.dev.regionUp (c.f 0 1) = true ∧ (∀ r ∈ [RegName.DAC_AUX_CFG, .DAC_AUX_PERIOD, .DAC_AUX_LIM, .DAC_AUX_STEP,
      .DAC_AUX_SEED], s.dev.coveredReg r (c.f 0 1) (c.f 1 1) = false) ∧
      (s.dev.auxRun (c.f 0 1) (c.f 1 1) = true → s.dev.rf .DAC_AUX_CFG 0 3 (c.f 0 1) (c.f 1 1) = c.f 2 1 ∧
      s.dev.rf .DAC_AUX_CFG 4 2 (c.f 0 1) (c.f 1 1) = c.f 3 1)) ∧
    (∃ (s : State) (c : Cmd), s.holds c 0x0900 ∧ c.f 0 1 ≤ 7 ∧ (c.f 1 1 = 6 ∨ c.f 1 1 = 7) ∧ restricted c.mbx = false ∧
      c.f 2 1 ≤ 4 ∧ c.f 3 1 ≤ 2 ∧ c.f 4 1 ≤ 63 ∧ c.f 5 1 ≤ 1 ∧ 49152 ≤ c.f 8 4 ∧ c.f 8 4 ≤ 49152000 ∧
      (c.f 5 1 = 1 → auxValid (c.f 2 1) (c.f 3 1) (c.f 12 2) (c.f 14 2) (c.f 16 2) = true) ∧ c.f 20 4 < 2 ^ 23 ∧
      s.dev.regionUp (c.f 0 1) = true ∧ (∀ r ∈ [RegName.DAC_AUX_CFG, .DAC_AUX_PERIOD, .DAC_AUX_LIM, .DAC_AUX_STEP,
      .DAC_AUX_SEED], s.dev.coveredReg r (c.f 0 1) (c.f 1 1) = false) ∧
      (s.dev.auxRun (c.f 0 1) (c.f 1 1) = true → s.dev.rf .DAC_AUX_CFG 0 3 (c.f 0 1) (c.f 1 1) = c.f 2 1 ∧
      s.dev.rf .DAC_AUX_CFG 4 2 (c.f 0 1) (c.f 1 1) = c.f 3 1)) ∧
    (∃ (s : State) (c : Cmd), s.holds c 0x0901 ∧ c.f 0 1 ≤ 7 ∧ (c.f 1 1 = 6 ∨ c.f 1 1 = 7) ∧ restricted c.mbx = false ∧
      1 ≤ c.f 2 2 ∧ c.f 2 2 ≤ 64 ∧ s.dev.regionUp (c.f 0 1) = true ∧
      s.dev.coveredReg .DAC_AUX_CODE (c.f 0 1) (c.f 1 1) = false ∧
      s.dev.coveredReg .DAC_AUX_QDATA (c.f 0 1) (c.f 1 1) = false) ∧
    (∃ (s : State) (c : Cmd), s.holds c 0x0901 ∧ c.f 0 1 ≤ 7 ∧ (c.f 1 1 = 6 ∨ c.f 1 1 = 7) ∧ restricted c.mbx = false ∧
      1 ≤ c.f 2 2 ∧ c.f 2 2 ≤ 64 ∧ s.dev.regionUp (c.f 0 1) = true ∧
      s.dev.coveredReg .DAC_AUX_CODE (c.f 0 1) (c.f 1 1) = false ∧
      s.dev.coveredReg .DAC_AUX_QDATA (c.f 0 1) (c.f 1 1) = false) ∧
    (∃ (s : State) (c : Cmd), s.holds c 0x0902 ∧ c.f 0 1 ≤ 7 ∧ (c.f 1 1 = 6 ∨ c.f 1 1 = 7) ∧ c.f 2 1 ≤ 1 ∧ c.f 3 1 ≤ 2 ∧
      s.dev.regionUp (c.f 0 1) = true) ∧
    (∃ (s : State) (c : Cmd), s.holds c 0x0903 ∧ c.f 0 1 ≤ 7 ∧ c.f 1 1 ≤ 8 ∧ c.f 2 1 ≤ 8 ∧ (∀ k,
      k < 8 → madcEntryOk (c.f (8 + 4 * k) 4) = true ∧ madcEntryOk (c.f (40 + 4 * k) 4) = true) ∧ restricted c.mbx = false ∧
      s.dev.regionUp (c.f 0 1) = true ∧ (∀ k, k < 8 → s.dev.coveredReg .MADC_C_REG (c.f 0 1) 1 (24 + k) = false ∧
      s.dev.coveredReg .MADC_C_INJ (c.f 0 1) 1 k = false)) ∧
    (∃ (s : State) (c : Cmd), s.holds c 0x0904 ∧ restricted c.mbx = false ∧ (∀ rg,
      rg < 8 → bit (c.f 0 1) rg = true → s.dev.regionUp rg = true)) ∧
    (∃ (s : State) (c : Cmd), s.holds c 0x0905 ∧ c.f 0 1 ≤ 7 ∧ c.f 1 1 ≤ 15 ∧ c.f 2 1 ≤ 1 ∧ c.f 8 8 % 4096 = 0 ∧
      inDram (c.f 8 8) (2 ^ c.f 1 1 * 4096) = true ∧ s.dev.regionUp (c.f 0 1) = true) ∧
    (∃ (s : State) (c : Cmd) (i : Instr), ((i = .thmRead ∧ s.holds c 0x0A00) ∨ (i = .temp ∧ s.holds c 0x06 true))) ∧
    (∃ (s : State) (c : Cmd) (i : Instr), ((i = .thmRead ∧ s.holds c 0x0A00) ∨ (i = .temp ∧ s.holds c 0x06 true))) ∧
    (∃ (s : State) (c : Cmd), s.holds c 0x0A01 ∧ c.f 0 1 ≤ 3 ∧ thmOk (c.f 4 4) = true ∧ thmOk (c.f 8 4) = true) ∧
    (∃ (s : State) (c : Cmd), s.holds c 0x0A02 ∧ c.f 0 1 ≤ 7 ∧ s.dev.regionUp (c.f 0 1) = true ∧
      strays (c.f 4 4) 0x8000FFFF = false ∧ fld (c.f 4 4) 0 8 ≤ 100 ∧ fld (c.f 4 4) 8 8 ≤ 100) ∧
    (∃ (s : State) (c : Cmd), s.holds c 0x0A02 ∧ c.f 0 1 = 0xFF ∧ strays (c.f 4 4) 0xFFFF = false) :=
  ⟨⟨held (cmdOf 0x0900 (by8 [7, 7, 3, 2, 63, 1, 0, 0, 0, 0xC0, 0, 0, 0, 0, 0xFF, 0xFF, 1])), cmdOf 0x0900 (by8 [7, 7, 3, 2, 63,
      1, 0, 0, 0, 0xC0, 0, 0, 0, 0, 0xFF, 0xFF, 1]), by decide +kernel⟩,
    ⟨held (cmdOf 0x0900 (by8 [7, 7, 0, 0, 0, 0, 0, 0, 0, 0xC0])) (fun d => d.setReg .DAC_AUX_CFG 0x10000 7 7),
      cmdOf 0x0900 (by8 [7, 7, 0, 0, 0, 0, 0, 0, 0, 0xC0]), by decide +kernel⟩,
    ⟨held (cmdOf 0x0901 (by8 [7, 7, 1, 0, 0xFF, 0xFF])), cmdOf 0x0901 (by8 [7, 7, 1, 0, 0xFF, 0xFF]), by decide +kernel⟩,
    ⟨held (cmdOf 0x0901 (by8 [7, 7, 64, 0, 5])) (fun d => (d.setReg .DAC_AUX_CFG 1 7 7).setAux 7 7 { queue := [4] }),
      cmdOf 0x0901 (by8 [7, 7, 64, 0, 5]), by decide +kernel⟩,
    ⟨held (cmdOf 0x0902 (by8 [7, 7, 1, 2, 5])), cmdOf 0x0902 (by8 [7, 7, 1, 2, 5]), by decide +kernel⟩,
    ⟨held (cmdOf 0x0903 (by8 [7, 8, 8, 0, 0xFF, 0xFF])), cmdOf 0x0903 (by8 [7, 8, 8, 0, 0xFF, 0xFF]), by decide +kernel⟩,
    ⟨held (cmdOf 0x0904 (by8 [1])) (fun d => d.setReg .MADC_C_CFG 0x08080000 0 1), cmdOf 0x0904 (by8 [1]), by decide +kernel⟩,
    ⟨held (cmdOf 0x0905 (by8 [7, 15, 1, 0, 0, 0, 0, 0, 0, 0, 0, 0, 0x5F])), cmdOf 0x0905 (by8 [7, 15, 1, 0, 0, 0, 0, 0, 0, 0, 0,
      0, 0x5F]), by decide +kernel⟩,
    ⟨held (cmdOf 0x0A00 (by8 [])), cmdOf 0x0A00 (by8 []), .thmRead, .inl (by decide +kernel)⟩,
    ⟨held (cmdOf 0x06 (by8 []) true), cmdOf 0x06 (by8 []) true, .temp, .inr (by decide +kernel)⟩,
    ⟨held (cmdOf 0x0A01 (by8 [3, 0, 0, 0, 0, 4, 0, 5, 0, 4, 0, 5])), cmdOf 0x0A01 (by8 [3, 0, 0, 0, 0, 4, 0, 5, 0, 4, 0, 5]),
      by decide +kernel⟩,
    ⟨held (cmdOf 0x0A02 (by8 [7, 0, 0, 0, 100, 100, 0, 0x80])), cmdOf 0x0A02 (by8 [7, 0, 0, 0, 100, 100, 0, 0x80]),
      by decide +kernel⟩,
    ⟨held (cmdOf 0x0A02 (by8 [0xFF, 0, 0, 0, 0xFF, 0xFF])), cmdOf 0x0A02 (by8 [0xFF, 0, 0, 0, 0xFF, 0xFF]), by decide +kernel⟩⟩


theorem witness_PortAndTollgateCommands :
    (∃ (s : State) (c : Cmd), s.holds c 0x0B00 ∧ c.f 0 1 ≤ 3 ∧ c.f 1 1 ≤ 7 ∧ c.f 2 1 ≤ 1 ∧
      s.dev.quadDisabled (c.f 0 1) = true) ∧
    (∃ (s : State) (c : Cmd), s.holds c 0x0B00 ∧ c.f 0 1 ≤ 3 ∧ c.f 1 1 ≤ 7 ∧ c.f 2 1 ≤ 1 ∧
      s.dev.quadDisabled (c.f 0 1) = false) ∧
    (∃ (s : State) (c : Cmd), s.holds c 0x0B01 ∧ c.f 0 2 ≤ 255 ∧ 1 ≤ c.f 2 2 ∧ c.f 2 2 ≤ 254 ∧ c.f 0 2 + c.f 2 2 ≤ 256 ∧ (∀ i,
      i < c.f 2 2 → flowBad (c.f (8 + 16 * i) 16) = none ∧ s.dev.mayFlow c.mbx (c.f 0 2 + i) (c.f (8 + 16 * i) 16) = true)) ∧
    (∃ (s : State) (c : Cmd), s.holds c 0x0B02 ∧ c.f 0 4 = 0) ∧
    (∃ (s : State) (c : Cmd), s.holds c 0x0B02 ∧ c.f 0 4 ≠ 0 ∧ c.f 0 4 % 64 = 0 ∧ c.f 8 8 % 64 = 0 ∧
      inDram (c.f 8 8) (c.f 0 4) = true ∧ c.f 16 8 % 8 = 0 ∧ inDram (c.f 16 8) 8 = true) ∧
    (∃ (s : State) (c : Cmd), s.holds c 0x0B03 ∧ c.f 0 1 ≤ 7 ∧ 1 ≤ c.f 4 1 ∧ c.f 4 1 ≤ 128 ∧ c.f 3 1 + c.f 4 1 ≤ 256) ∧
    (∃ (s : State) (c : Cmd), s.holds c 0x0B03 ∧ c.f 0 1 ≤ 7 ∧ 1 ≤ c.f 4 1 ∧ c.f 4 1 ≤ 128 ∧ c.f 3 1 + c.f 4 1 ≤ 256) ∧
    (∃ (s : State) (c : Cmd), s.holds c 0x0B03 ∧ c.f 0 1 ≤ 7 ∧ 1 ≤ c.f 4 1 ∧ c.f 4 1 ≤ 128 ∧ c.f 3 1 + c.f 4 1 ≤ 256) ∧
    (∃ (s : State) (c : Cmd), s.holds c 0x0B03 ∧ c.f 0 1 ≤ 7 ∧ 1 ≤ c.f 4 1 ∧ c.f 4 1 ≤ 128 ∧ c.f 3 1 + c.f 4 1 ≤ 256) ∧
    (∃ (s : State) (c : Cmd), s.holds c 0x0B04 ∧ c.f 0 1 ≤ 7 ∧ 1 ≤ c.f 4 1 ∧ c.f 3 1 + c.f 4 1 ≤ 256 ∧
      (s.dev.modPortOn (c.f 0 1) = true → modControl (isSff (s.dev.mod (c.f 0 1)).ident) (c.f 2 1) (c.f 3 1) (c.f 4 1) = false)
      ∧ (s.dev.mod (c.f 0 1)).st ≠ 0) ∧
    (∃ (s : State) (c : Cmd), s.holds c 0x0B04 ∧ c.f 0 1 ≤ 7 ∧ 1 ≤ c.f 4 1 ∧ c.f 3 1 + c.f 4 1 ≤ 256 ∧
      (s.dev.modPortOn (c.f 0 1) = true → modControl (isSff (s.dev.mod (c.f 0 1)).ident) (c.f 2 1) (c.f 3 1) (c.f 4 1) = false)
      ∧ (s.dev.mod (c.f 0 1)).st ≠ 0) ∧
    (∃ (s : State) (c : Cmd), s.holds c 0x0B04 ∧ c.f 0 1 ≤ 7 ∧ 1 ≤ c.f 4 1 ∧ c.f 3 1 + c.f 4 1 ≤ 256 ∧
      (s.dev.modPortOn (c.f 0 1) = true → modControl (isSff (s.dev.mod (c.f 0 1)).ident) (c.f 2 1) (c.f 3 1) (c.f 4 1) = false)
      ∧ (s.dev.mod (c.f 0 1)).st ≠ 0) ∧
    (∃ (s : State) (c : Cmd), s.holds c 0x0B04 ∧ c.f 0 1 ≤ 7 ∧ 1 ≤ c.f 4 1 ∧ c.f 3 1 + c.f 4 1 ≤ 256 ∧
      s.dev.modPortOn (c.f 0 1) = true ∧ modControl (isSff (s.dev.mod (c.f 0 1)).ident) (c.f 2 1) (c.f 3 1) (c.f 4 1) = true) ∧
    (∃ (s : State) (c : Cmd), s.holds c 0x0B05 ∧ c.f 0 1 ≤ 1 ∧ s.dev.coveredReg .PRT_TIMING_CFG = false) ∧
    (∃ (s : State) (c : Cmd), s.holds c 0x0C00 ∧ c.f 0 1 ≤ 53 ∧ c.f 1 1 ≤ 1) ∧
    (∃ (s : State) (c : Cmd), s.holds c 0x0C01 ∧ (c.f 0 1 ≤ 53 ∨ c.f 0 1 = 0xFF) ∧ strays (c.f 4 4) 0xFFFFF001 = false ∧
      c.f 8 4 < 2 ^ 20) ∧
    (∃ (s : State) (c : Cmd), s.holds c 0x0C01 ∧ (c.f 0 1 ≤ 53 ∨ c.f 0 1 = 0xFF) ∧ strays (c.f 4 4) 0xFFFFF001 = false ∧
      c.f 8 4 < 2 ^ 20) ∧
    (∃ (s : State) (c : Cmd), s.holds c 0x0C02 ∧ c.f 0 2 ≤ 0x146 ∧ c.f 2 1 ≤ 3 ∧ c.f 3 1 ≤ 1) ∧
    (∃ (s : State) (c : Cmd), s.holds c 0x0C02 ∧ c.f 0 2 ≤ 0x146 ∧ c.f 2 1 ≤ 3 ∧ c.f 3 1 ≤ 1) ∧
    (∃ (s : State) (c : Cmd), s.holds c 0x0C03) ∧
    (∃ (s : State) (c : Cmd), s.holds c 0x0E03 ∧ c.f 0 1 ≤ 1 ∧ c.f 8 8 < 2 ^ 54) :=
  ⟨⟨held (cmdOf 0x0B00 (by8 [3, 7, 1])), cmdOf 0x0B00 (by8 [3, 7, 1]), by decide +kernel⟩,
    ⟨held (cmdOf 0x0B00 (by8 [3, 7, 1])) fhOn, cmdOf 0x0B00 (by8 [3, 7, 1]), by decide +kernel⟩,
    ⟨held (cmdOf 0x0B01 (by8 ([255, 0, 1, 0, 0, 0, 0, 0] ++ [0x1F, 5, 0xFF, 0x0F, 1, 2, 3, 4, 31]))), cmdOf 0x0B01 (by8 ([255,
      0, 1, 0, 0, 0, 0, 0] ++ [0x1F, 5, 0xFF, 0x0F, 1, 2, 3, 4, 31])), by decide +kernel⟩,
    ⟨held (cmdOf 0x0B02 (by8 [])) (fun d => { d with ports := { d.ports with exc := some (64, 64, 64), excIdx := 5 } }),
      cmdOf 0x0B02 (by8 []), by decide +kernel⟩,
    ⟨held (cmdOf 0x0B02 (by8 [0x40, 0, 0, 0, 0, 0, 0, 0, 0, 0x10, 0, 0, 0, 0, 0, 0, 0, 0x20])) (fun d =>
      { d with mem := memAt 0x2000 (by8 [9]) }), cmdOf 0x0B02 (by8 [0x40, 0, 0, 0, 0, 0, 0, 0, 0, 0x10, 0, 0, 0, 0, 0, 0, 0,
      0x20]), by decide +kernel⟩,
    ⟨held (cmdOf 0x0B03 (by8 [7, 1, 2, 128, 128])) (fun d => d.setMod 7 { st := 2 }), cmdOf 0x0B03 (by8 [7, 1, 2, 128, 128]),
      by decide +kernel⟩,
    ⟨held (cmdOf 0x0B03 (by8 [7, 1, 2, 128, 128])) (fun d => d.setMod 7 { st := 2 }), cmdOf 0x0B03 (by8 [7, 1, 2, 128, 128]),
      by decide +kernel⟩,
    ⟨held (cmdOf 0x0B03 (by8 [7, 1, 2, 128, 128])), cmdOf 0x0B03 (by8 [7, 1, 2, 128, 128]), by decide +kernel⟩,
    ⟨held (cmdOf 0x0B03 (by8 [7, 0, 0, 37, 1])) (fun d => d.setMod 7 { st := 2, cdbTo := some 5 }), cmdOf 0x0B03 (by8 [7, 0, 0,
      37, 1]), by decide +kernel⟩,
    ⟨held (cmdOf 0x0B04 (by8 [7, 1, 0x9F, 128, 128])) (fun d => d.setMod 7 { st := 2 }), cmdOf 0x0B04 (by8 [7, 1, 0x9F, 128,
      128]), by decide +kernel⟩,
    ⟨held (cmdOf 0x0B04 (by8 [7, 1, 2, 128, 2, 5, 6])) (fun d => d.setMod 7 { st := 2 }), cmdOf 0x0B04 (by8 [7, 1, 2, 128, 2, 5,
      6]), by decide +kernel⟩,
    ⟨held (cmdOf 0x0B04 (by8 [7, 1, 2, 128, 2, 5, 6])) (fun d => d.setMod 7 { st := 2 }), cmdOf 0x0B04 (by8 [7, 1, 2, 128, 2, 5,
      6]), by decide +kernel⟩,
    ⟨held (cmdOf 0x0B04 (by8 [7, 1, 0x10, 128, 1, 5])) (fun d => (fhOn d).setMod 7 { st := 2 }), cmdOf 0x0B04 (by8 [7, 1, 0x10,
      128, 1, 5]), by decide +kernel⟩,
    ⟨held (cmdOf 0x0B05 (by8 [1, 0, 0xFF, 0xFF, 5])), cmdOf 0x0B05 (by8 [1, 0, 0xFF, 0xFF, 5]), by decide +kernel⟩,
    ⟨held (cmdOf 0x0C00 (by8 [53, 1])), cmdOf 0x0C00 (by8 [53, 1]), by decide +kernel⟩,
    ⟨held (cmdOf 0x0C01 (by8 [0xFF, 0, 0, 0, 1, 0xF0, 0xFF, 0xFF, 0xFF, 0xFF, 0x0F])), cmdOf 0x0C01 (by8 [0xFF, 0, 0, 0, 1,
      0xF0, 0xFF, 0xFF, 0xFF, 0xFF, 0x0F]), by decide +kernel⟩,
    ⟨held (cmdOf 0x0C01 (by8 [53, 0, 0, 0, 1, 0xF0])), cmdOf 0x0C01 (by8 [53, 0, 0, 0, 1, 0xF0]), by decide +kernel⟩,
    ⟨held (cmdOf 0x0C02 (by8 [0x46, 1, 3, 1])), cmdOf 0x0C02 (by8 [0x46, 1, 3, 1]), by decide +kernel⟩,
    ⟨held (cmdOf 0x0C02 (by8 [0x46, 1, 3, 0])) (fun d => { d with pinned := [0x146, 5] }), cmdOf 0x0C02 (by8 [0x46, 1, 3, 0]),
      by decide +kernel⟩,
    ⟨held (cmdOf 0x0C03 (by8 [0xFF, 0, 0xFF, 0xFF])), cmdOf 0x0C03 (by8 [0xFF, 0, 0xFF, 0xFF]), by decide +kernel⟩,
    ⟨held (cmdOf 0x0E03 (by8 [0, 0, 0, 0, 0, 0, 0, 0, 1, 0, 0, 0, 0, 0, 0x20])) (fun d =>
      { d with cp := { d.cp with tgTest := 2 ^ 53 } }), cmdOf 0x0E03 (by8 [0, 0, 0, 0, 0, 0, 0, 0, 1, 0, 0, 0, 0, 0, 0x20]),
      by decide +kernel⟩⟩


theorem witness_LogDebugAndRegisterCommands :
    (∃ (s : State) (c : Cmd) (i : Instr), ((i = .logRead ∧ s.holds c 0x0D00) ∨ (i = .logrd ∧ s.holds c 0x0A true)) ∧
      c.f 0 4 < 2 ^ 24 ∧ 1 ≤ c.f 4 2 ∧ c.f 4 2 ≤ 127) ∧
    (∃ (s : State) (c : Cmd) (i : Instr), ((i = .logRead ∧ s.holds c 0x0D00) ∨ (i = .logrd ∧ s.holds c 0x0A true)) ∧
      c.f 0 4 < 2 ^ 24 ∧ 1 ≤ c.f 4 2 ∧ c.f 4 2 ≤ 127) ∧
    (∃ (s : State) (c : Cmd), s.holds c 0x0D01 ∧ c.f 0 4 < 512) ∧
    (∃ (s : State) (c : Cmd), s.holds c 0x0E00 ∧ c.f 0 1 ≤ 135 ∧ c.f 1 1 ≤ 63 ∧ c.f 2 1 ≤ 63 ∧ c.f 3 1 ≤ 1 ∧ c.f 4 1 ≤ 3 ∧
      c.f 5 1 ≤ 1 ∧ c.f 6 1 ≤ 3 ∧ c.f 7 1 ≤ 15 ∧ (c.f 4 1 = 1 → 1 ≤ c.f 10 2 ∧ c.f 10 2 ≤ 10000 ∧ 1 ≤ c.f 12 2 ∧
      c.f 12 2 ≤ 10000) ∧ s.dev.logicalOf (c.f 0 1) = none) ∧
    (∃ (s : State) (c : Cmd), s.holds c 0x0E01 ∧ c.f 0 1 ≤ 135 ∧ c.f 2 2 ≤ 16383 ∧ 1 ≤ c.f 4 2 ∧ c.f 4 2 ≤ 1016 ∧
      c.f 2 2 + c.f 4 2 ≤ 16384) ∧
    (∃ (s : State) (c : Cmd), s.holds c 0x0E01 ∧ c.f 0 1 ≤ 135 ∧ c.f 2 2 ≤ 16383 ∧ 1 ≤ c.f 4 2 ∧ c.f 4 2 ≤ 1016 ∧
      c.f 2 2 + c.f 4 2 ≤ 16384) ∧
    (∃ (s : State) (c : Cmd), s.holds c 0x0E02 ∧ c.f 0 1 ≤ 7 ∧ c.f 1 1 ≤ 135 ∧ regionOfP (c.f 1 1) = c.f 0 1 ∧ c.f 2 1 ≤ 63 ∧
      c.f 3 1 ≤ 63 ∧ c.f 4 1 ≤ 1 ∧ s.dev.logicalOf (c.f 1 1) = none) ∧
    (∃ (s : State) (c : Cmd) (i : Instr) (n : RegName) (is : List Nat), ((i = .regRead ∧ s.holds c 0x0E04) ∨ (i = .rdreg ∧
      s.holds c 0x03 true)) ∧ c.f 4 2 = 1 ∧ c.f 0 4 % 4 = 0 ∧ c.f 0 4 < 0x2000000 ∧ regAt (c.f 0 4) = some (n, is) ∧
      n.row.half = 0) ∧
    (∃ (s : State) (c : Cmd) (i : Instr), ((i = .regRead ∧ s.holds c 0x0E04) ∨ (i = .rdreg ∧ s.holds c 0x03 true)) ∧
      1 ≤ c.f 4 2 ∧ c.f 4 2 ≤ 1020 ∧ c.f 0 4 % 4 = 0 ∧ c.f 0 4 + 4 * c.f 4 2 ≤ 0x2000000) ∧
    (∃ (s : State) (c : Cmd), s.holds c 0x04 true ∧ c.f 0 4 % 4 = 0 ∧ c.f 0 4 < 0x2000000 ∧ s.dev.reaches (if 1 ≤ c.mbx ∧
      c.mbx ≤ 4 then c.mbx else 0) (c.f 0 4) = true ∧ s.dev.covered (c.f 0 4) 4 = false) ∧
    (∃ (s : State) (c : Cmd), s.holds c 0x04 true ∧ c.f 0 4 % 4 = 0 ∧ c.f 0 4 < 0x2000000 ∧ s.dev.reaches (if 1 ≤ c.mbx ∧
      c.mbx ≤ 4 then c.mbx else 0) (c.f 0 4) = false) ∧
    (∃ (s : State) (c : Cmd), s.holds c 0x04 true ∧ c.f 0 4 % 4 = 0 ∧ c.f 0 4 < 0x2000000 ∧ s.dev.reaches (if 1 ≤ c.mbx ∧
      c.mbx ≤ 4 then c.mbx else 0) (c.f 0 4) = true ∧ s.dev.covered (c.f 0 4) 4 = true) :=
  ⟨⟨held (cmdOf 0x0D00 (by8 [0xFF, 0xFF, 0xFF, 0, 127])), cmdOf 0x0D00 (by8 [0xFF, 0xFF, 0xFF, 0, 127]), .logRead,
      ⟨.inl (by decide +kernel), by decide +kernel⟩⟩,
    ⟨held (cmdOf 0x0A (by8 [0, 0, 0, 0, 1]) true), cmdOf 0x0A (by8 [0, 0, 0, 0, 1]) true, .logrd, ⟨.inr (by decide +kernel),
      by decide +kernel⟩⟩,
    ⟨held (cmdOf 0x0D01 (by8 [0xFF, 1])), cmdOf 0x0D01 (by8 [0xFF, 1]), by decide +kernel⟩,
    ⟨held (cmdOf 0x0E00 (by8 [128, 63, 63, 1, 1, 1, 3, 15, 0xFF, 0xFF, 0x10, 0x27, 1, 0, 5])), cmdOf 0x0E00 (by8 [128, 63, 63,
      1, 1, 1, 3, 15, 0xFF, 0xFF, 0x10, 0x27, 1, 0, 5]), by decide +kernel⟩,
    ⟨held (cmdOf 0x0E01 (by8 [128, 0, 1, 0, 2])) (fun d => d.modPt 128 fun x => { x with cap := { samples := [7, 8, 9] } }),
      cmdOf 0x0E01 (by8 [128, 0, 1, 0, 2]), by decide +kernel⟩,
    ⟨held (cmdOf 0x0E01 (by8 [128, 0, 0xFF, 0x3F, 1])), cmdOf 0x0E01 (by8 [128, 0, 0xFF, 0x3F, 1]), by decide +kernel⟩,
    ⟨held (cmdOf 0x0E02 (by8 [0, 128, 63, 63, 1])), cmdOf 0x0E02 (by8 [0, 128, 63, 63, 1]), by decide +kernel⟩,
    ⟨held (cmdOf 0x0E04 (by8 [0x7C, 2, 0, 0, 1])), cmdOf 0x0E04 (by8 [0x7C, 2, 0, 0, 1]), .regRead, .DEV_SKIPTHR, [31],
      ⟨.inl (by decide +kernel), by decide +kernel⟩⟩,
    ⟨held (cmdOf 0x0E04 (by8 [0, 0, 0, 0, 0xFC, 3])), cmdOf 0x0E04 (by8 [0, 0, 0, 0, 0xFC, 3]), .regRead,
      ⟨.inl (by decide +kernel), by decide +kernel⟩⟩,
    ⟨held (cmdOf 0x04 (by8 [0x7C, 2, 0, 0, 5]) true), cmdOf 0x04 (by8 [0x7C, 2, 0, 0, 5]) true, by decide +kernel⟩,
    ⟨held (cmdOf 0x04 (by8 [0x7C, 2, 0, 0, 5]) true) (fun d => { d with cp := { d.cp with lcState := 2 } }),
      cmdOf 0x04 (by8 [0x7C, 2, 0, 0, 5]) true, by decide +kernel⟩,
    ⟨held (cmdOf 0x04 (by8 [0x7C, 2, 0, 0, 5]) true) (fun d => { d with cp := { d.cp with windows := [(0, 0x27C, 4)] } }),
      cmdOf 0x04 (by8 [0x7C, 2, 0, 0, 5]) true, by decide +kernel⟩⟩

/-! ### Witnesses: reset, and the machine without power -/

theorem witness_NothingResidentAfterReset :
    (∃ (s : State) (straps : Nat), straps < 16 ∧ s.dev.th.tripped = none ∧ s.dev.res ≠ []) ∧
    (∃ s : State, s.on ∧ s.dev.cp.pwrgd = true ∧ s.dev.res ≠ []) ∧
    (∃ (s : State) (t : Nat) (k : ResetType), s.on ∧ s.dev.cp.resetAt = some (t, k) ∧ t ≤ s.dev.time ∧ k ≠ .lifeCycle ∧
      s.dev.res ≠ []) ∧
    (∃ (s : State) (t straps : Nat), straps < 16 ∧ s.on ∧ s.dev.cp.resetAt = some (t, .lifeCycle) ∧
      t ≤ s.dev.time ∧ s.dev.res ≠ []) ∧
    (∃ (s : State) (w : Nat), w < 2 ^ 32 ∧ s.on ∧ s.dev.res ≠ []) ∧
    (∃ (s : State) (straps t : Nat), straps < 16 ∧ s.dev.th.tripped = some t ∧ t + 10 * tcPerSec ≤ s.dev.aon ∧ s.dev.cp.powered = false ∧
      s.dev.th.latched = false ∧ s.dev.cp.pwrgd = true ∧
      ∀ n, n < 96 → (s.dev.sensor n).fault = true ∨ (s.dev.sensor n).temp < restartBelow (sensorClass n)) :=
  ⟨⟨up fun d => { d with res := [(3, 1#256)] }, 15, by decide +kernel⟩,
    ⟨up fun d => { d with res := [(3, 1#256)] }, by decide +kernel⟩,
    ⟨up fun d => { d with res := [(3, 1#256)], cp := { d.cp with resetAt := some (0, .warmLog) } }, 0, .warmLog, by decide +kernel⟩,
    ⟨up fun d => { d with res := [(3, 1#256)], cp := { d.cp with resetAt := some (0, .lifeCycle) } }, 0, 15, by decide +kernel⟩,
    ⟨up fun d => { d with res := [(3, 1#256)] }, 0, by decide +kernel⟩,
    ⟨up fun d => { d with aon := 10 * tcPerSec + 5, th := { d.th with tripped := some 5 }, cp := { d.cp with powered := false, pwrgd := true } },
      15, 5, by decide +kernel⟩⟩

theorem witness_HeldWithoutPower : ∃ (i : Instr) (s : State), s.dev.cp.powered = false ∧ i.wellFormed = true ∧ i = .pfFlr :=
  ⟨.pfFlr, st fun d => { d with cp := { d.cp with powered := false } }, rfl, rfl, rfl⟩

/-- An MS_WRITE of entry 4095 with these bytes. -/
def msCmd (entry : List Nat) : Cmd := cmdOf 0x0300 (by8 ([0xFF, 0x0F, 1, 0, 0, 0, 0, 0] ++ entry))

theorem witness_MilestoneEntryRules :
    (∃ (s : State) (c : Cmd) (i : Nat) (m : MsEntry), s.holds c 0x0300 ∧ c.f 0 2 ≤ 4095 ∧ 1 ≤ c.f 2 2 ∧ c.f 2 2 ≤ 127 ∧
      c.f 0 2 + c.f 2 2 ≤ 4096 ∧ i < c.f 2 2 ∧ m = BitVec.ofNat 256 (c.f (8 + 32 * i) 32) ∧ MsEntry.valid m = true ∧
      10 < MsEntry.perlog m) ∧
    (∃ (s : State) (c : Cmd), s.holds c 0x0300 ∧ c.f 0 2 ≤ 4095 ∧ c.f 2 2 = 1 ∧ MsEntry.valid (c.entry32 0) = false ∧
      s.dev.inDomain c.mbx (c.f 0 2) = true ∧ s.dev.ms.commit = none ∧ MsEntry.f (c.entry32 0) 1 0 8 ≠ 0) ∧
    (∃ m : MsEntry, MsEntry.valid m = false ∧ MsEntry.actions m ≠ 0) :=
  ⟨⟨held (msCmd [0xB1]), msCmd [0xB1], 0, BitVec.ofNat 256 0xB1, by decide +kernel⟩,
    ⟨held (msCmd [0, 1]), msCmd [0, 1], by decide +kernel⟩, ⟨BitVec.ofNat 256 (2 ^ 100), by decide +kernel⟩⟩

/-! ### Values that the manual gives -/

/-- The device after one command. -/
def after (i : Instr) (s : State) : Dev :=
  match Sys2Proof.Machine.exec i s with
  | .next t => t.dev
  | _ => s.dev

/-- R48, R49, R54, and both worked examples of chapter 2. -/
theorem test_column_codes : codeOf (256 * 3584) 2 = (14, none) ∧ codeOf (256 * -2636) 0 = (-32, some false) ∧
    codeOf (256 * -1468) 0 = (-23, none) ∧ codeOf (256 * -1168) 0 = (-18, none) ∧ codeOf (256 * -2636) 1 = (-21, none) := by
  decide +kernel
/-- R42, R50, first worked example of chapter 2: Σ W² = 2,916, OFS 296, demand 6,352. -/
theorem test_auto_gain : sigOf (List.replicate 12 15 ++ [14, 4, 2]) = 249 ∧ ofsOf [15, 15, 7] = 296 ∧ autoGain 8 296 249 2 = 2 := by
  decide +kernel
/-- R76 and its example: level 10 on the segment from (576, 1,136) to (704, 1,328). -/
theorem test_curve_code : curveCode [(576, 1136), (704, 1328)] 0 255 10 = 77 := by decide +kernel
/-- R81 and the example of chapter 3: of the passes of a DW = 2, DX = 2 product only (1, 1) can fail, from |h| = 6. -/
theorem test_gate : let w := wordOf [2, 0, 0, 0, 17, 0x53, 5, 0x5D]
    gateFails w 0 1 1 384 1 = true ∧ gateFails w 0 1 1 320 1 = false ∧ gateFails w 0 1 0 512 1 = false := by decide +kernel
/-- R320, by hand: from state 1 the register's output is 0 for the 16 steps of a sample, and bit 16 of its state is then set. -/
theorem test_noise : noise16 1 = (0, 65536) := by decide +kernel
/-- R236: symbol starts at μ = 1 and μ = 0. -/
theorem test_symbol_starts : Numer.start { mu := 1, ecp := false } 0 1 = 71168 ∧ Numer.start { mu := 1, ecp := false } 0 2 = 141312 ∧
    Numer.start { mu := 1, ecp := false } 1 0 = 983040 ∧ Numer.start { mu := 0, ecp := false } 0 4 = 562176 ∧
    Numer.start { mu := 0, ecp := false } 0 9 = 1264640 := by decide +kernel

/-- Chapter 8's commit: CT0 at μ = 1, CT2 at μ = 0 with OFS 245,760, and entry 0x210 on CT2, every slot, symbol 4. -/
def commitDev : Dev := (up fun d => { ((d.setReg .TL_CT_CFG 0x11 0).setReg .TL_CT_CFG 1 2).setReg .TL_CT_OFS_LO 245760 2 with
  ms := { d.ms with active := [(0x210, BitVec.ofNat 256 (5 + 0xFFFF * 2 ^ 32 + 4 * 2 ^ 48))] } }).dev
/-- R244, R245 and their example: B is D, and the entry that fires in the slot that contains B waits for that slot's end. -/
theorem test_commit_defers : let dd := 39321600
    commitDev.nextBoundary 0 (dd - 500000 + 8192) = dd ∧ commitDev.deferTo 0 dd 0x210 = some (dd + 245760) := by decide +kernel

/-- Chapter 14's time comparison (R404): offset 20 Tc and delay 130 Tc, in halves of a Tc. -/
theorem test_time_comparison :
    ((after (.peerTimeComparison 3 7340000 7340150 7340400 7340510 true) (peer3 { upPeer with timeSent := some 7340000 } fun d =>
      { d with time := 7340510 })).peer 3).comps = [(40, 260)] := by
  decide +kernel

/-- Chapter 15's placement: the list at 0x40000000 on E00–E07 with start entry 0x040 and deadline entry 0x060, SEQ 0x0031. -/
def placeCmd : Cmd := { cmdOf 0x0500 (by8 ([0, 0, 0, 0x40, 0, 0, 0, 0, 0xFF, 0, 0, 0, 0x40, 0, 0x60, 0] ++ List.replicate 64 0)) with
  seq := 0x31 }
/-- R134, R420–R422: the response header and the PLACE_ID of that example. -/
theorem test_place_response :
    ((after .listPlace (held placeCmd fun d => { d with engs := (upTo 8).map (fun e => (e, { st := .idle })), nextPlace := 0x117 })).mb
      0).rsp.take 18 = by8 [0, 5, 1, 0, 0x31, 0, 2, 0, 0, 0, 0, 0, 0, 0, 0, 0, 0x17, 1] := by decide +kernel

/-- Chapter 13's example (R366, R370): sensor 17 at 105.2 °C sets throttle, and its stack goes to step 1 at once. -/
theorem test_throttle : let d := after (.thermalSample 2 [600, 1683, 600, 600, 600, 600, 600, 600]) up
    (d.sensor 17).throt = true ∧ tget d.th.steps 2 0 = 1 ∧ (d.sensor 16).throt = false := by decide +kernel

/-- R178 (the condition on a segment): a segment of zeros is skipped, one beyond the threshold is not. -/
theorem test_segment_skip : segSkipped (wordOf [2]) 0 [(0, 0), (0, 0)] = true ∧ segSkipped (wordOf [2]) 3 [(3, 0), (0, -3)] = true ∧
    segSkipped (wordOf [2]) 3 [(4, 0)] = false ∧ segSkipped (wordOf [2, 0, 0, 0, 0, 0, 0, 1]) 3 [(3, 0)] = false := by decide +kernel

/-- R22, and the example of chapter 1: P131 is the spare of RG3. -/
theorem test_spare_of_region : State.reset.dev.spare 3 = 131 ∧ regionOfP 131 = 3 := by decide +kernel

/-- R49: a charge at the very edge of a code rounds away from zero and does not saturate. -/
theorem test_code_edges : codeOf (256 * 2016) 0 = (31, none) ∧ codeOf (256 * 2016 + 1) 0 = (31, some true) ∧
    codeOf (256 * -2080) 0 = (-32, none) ∧ codeOf (256 * -2081) 0 = (-32, some false) := by decide +kernel

/-- A command that is not well formed has no effect (log entry 144). -/
theorem test_ill_formed_no_effect : after (.nop 32) State.reset = State.reset.dev := by decide +kernel
/-- R126, R137: a NOP leaves the decoder at the next task word. -/
theorem test_nop_runs : ((after (.nop 0) (decoding [])).eng 0).pc = 0x1020 := by decide +kernel
/-- R128: a NOP with a field set stops its list with BAD_FIELD. -/
theorem test_nop_stray : (((after (.nop 0) (decoding [0, 0, 0, 0, 1])).eng 0).run.bind (·.fail)) = some (errBadField, 0x00, 0x1000) := by
  decide +kernel

/-- Chapter 11's triangle on AUX7 of RG2: STEP 524, LOW 19,668, HIGH 45,868. -/
def triangle (code : Nat) (rising : Bool) : State := up fun d => late
  (((((d.setReg .DAC_AUX_CFG 0x10002 2 7).setReg .DAC_AUX_LIM (19668 + 45868 * 65536) 2 7).setReg .DAC_AUX_STEP 524 2 7).setReg
    .DAC_AUX_CODE code 2 7).setAux 2 7 { begun := true, rising })
/-- R320: up to HIGH, then down; down to LOW, then up. -/
theorem test_triangle : (after (.auxSampleInstant 2 7) (triangle 45344 true)).rf .DAC_AUX_CODE 0 16 2 7 = 45868 ∧
    (after (.auxSampleInstant 2 7) (triangle 45868 true)).rf .DAC_AUX_CODE 0 16 2 7 = 45344 ∧
    (after (.auxSampleInstant 2 7) (triangle 20192 false)).rf .DAC_AUX_CODE 0 16 2 7 = 19668 ∧
    (after (.auxSampleInstant 2 7) (triangle 19668 false)).rf .DAC_AUX_CODE 0 16 2 7 = 20192 := by decide +kernel

/-- R249 and the example of chapter 15: the second firing of 0x060 after slot n begins at S = 5,898,240,000. -/
theorem test_deadline : (up fun d => d.setReg .TL_CT_CFG 0x11 0).dev.nthFiring
    (BitVec.ofNat 256 (1 + 0xFFFF * 2 ^ 32 + 2 * 2 ^ 48)) 2 5898240000 = some 5899364352 := by decide +kernel

/-- R404, and the example of chapter 14: eight comparisons of offset 20 Tc and delay 130 Tc read 320 and 2,080. -/
theorem test_tofs : median8 (List.replicate 8 40) = 320 ∧ median8 (List.replicate 8 260) = 2080 := by
  decide +kernel

end Sys2Proof.Tests
end

/-!
The scope family: the state after reset, register accesses of BAR0, the log, debug and register commands, and SCRUB_CFG.
-/
namespace Sys2Proof.Machine

/-! ### The state after reset (R6, R25, R238, R264, R439, R440) -/

theorem RegName.reset_lt (n : RegName) : n.row.reset < 2 ^ 32 := by
  cases n <;> decide

theorem resetOf_eq_row {n : RegName} (i : Nat) (hw : n ≠ .THM_WARN) (ht : n ≠ .THM_THROT) (hq : n ≠ .TG_REQCLS) :
    resetOf n i = n.row.reset := by
  unfold resetOf
  split
  · exact absurd rfl hw
  · exact absurd rfl ht
  · exact absurd rfl hq
  · rfl

/-- A register that nothing has written reads its reset value. -/
theorem Dev.reg_of_regs_nil {d : Dev} (h : d.regs = []) (n : RegName) (i j k : Nat) :
    d.reg n i j k = resetOf n i % 2 ^ 32 := by
  simp [Dev.reg, h]

theorem State.reset_reg (n : RegName) (i j k : Nat) : State.reset.dev.reg n i j k = resetOf n i % 2 ^ 32 :=
  Dev.reg_of_regs_nil rfl n i j k

/-- Settles O57: at reset every table is empty, so each part reads its default and each register its reset value; the three
register arrays whose reset value differs from index to index are read off one by one. -/
theorem resetValues : Obligations.ResetValues := by
  unfold Obligations.ResetValues
  refine ⟨rfl, by decide, rfl, rfl, ?registers, by decide, by decide +kernel, fun _ _ => rfl, fun _ _ => rfl,
    fun _ => ⟨rfl, rfl, rfl⟩, ?quota, fun _ => rfl, rfl, rfl, rfl, rfl, rfl, rfl, by decide, fun _ _ => ⟨rfl, rfl⟩⟩
  case registers =>
    intro n i j k hw ht hq
    rw [State.reset_reg, resetOf_eq_row i hw ht hq, Nat.mod_eq_of_lt n.reset_lt]
  case quota =>
    intro n _
    rw [Dev.rf, State.reset_reg, resetOf_eq_row n (by decide) (by decide) (by decide)]
    decide

/-! ### Accesses of BAR0 -/

/-- The PF's own BAR0 is the register map. -/
theorem bar0_zero (off : Nat) : bar0 0 off = off := rfl

theorem regAt_skipThr {e : Nat} (he : e < 32) : regAt (RegName.DEV_SKIPTHR.off e) = some (.DEV_SKIPTHR, [e]) := by
  have h : ∀ e, e < 32 → regAt (RegName.DEV_SKIPTHR.off e) = some (.DEV_SKIPTHR, [e]) := by decide +kernel
  exact h e he

theorem regAt_cntTw {e : Nat} (he : e < 32) : regAt (RegName.ENG_CNT_TW.off e) = some (.ENG_CNT_TW, [e]) := by
  have h : ∀ e, e < 32 → regAt (RegName.ENG_CNT_TW.off e) = some (.ENG_CNT_TW, [e]) := by decide +kernel
  exact h e he

theorem regAt_spillHi : regAt 0x8000C = some (.STRM_SPILL_HI, []) := by decide +kernel

theorem regAt_intStat0 : regAt (RegName.MBX_INT_STAT.off 0) = some (.MBX_INT_STAT, [0]) := by decide +kernel

/-- A read that the CP is ready for answers what the register reads, with the read's effects. -/
theorem Dev.hostRead_ready {d : Dev} {fn : Nat} (off : Nat) (hf : d.fnOn fn = true) (hr : d.cp.ready = true) :
    d.hostRead fn off = (d.readReg fn off).2.emit (.busData fn off (d.readReg fn off).1) := by
  simp [Dev.hostRead, hf, hr]

theorem Dev.hostWrite_reaching {d : Dev} {fn off : Nat} (v : Nat) (hf : d.fnOn fn = true) (hr : d.reaches fn off = true) :
    d.hostWrite fn off v = d.writeReg fn off v (if fn = 0 then 0 else fn) := by
  simp [Dev.hostWrite, hf, hr]

theorem Dev.hostWrite_kept_out {d : Dev} {fn off : Nat} (v : Nat) (hf : d.fnOn fn = true) (hr : d.reaches fn off = false) :
    d.hostWrite fn off v = d.logNow srcHost 0x0004 [(4, off), (4, v)] := by
  simp [Dev.hostWrite, hf, hr]

@[simp] theorem Dev.fnOn_zero (d : Dev) : d.fnOn 0 = true := rfl

/-! ### Reads -/

section
variable {d : Dev} {who off : Nat} {n : RegName} {is : List Nat}

theorem Dev.readReg_lo {h : RegName} {js : List Nat} (hn : regAt off = some (n, is)) (hh : n.row.half = 1)
    (hj : regAt (off + 4) = some (h, js)) :
    d.readReg who off = (d.value n is,
      { d with holdR := (who, lsaFold off + 4, d.value h js) :: dropHalf d.holdR who (lsaFold off + 4) }) := by
  simp [Dev.readReg, hn, hh, hj]

/-- A read of a _HI half answers the half held, or else the register, and leaves no half held. -/
theorem Dev.readReg_hi (hn : regAt off = some (n, is)) (hh : n.row.half = 2) :
    (d.readReg who off).1 = (heldHalf d.holdR who (lsaFold off)).getD (d.value n is) ∧
    heldHalf (d.readReg who off).2.holdR who (lsaFold off) = none ∧
    (d.readReg who off).2 = { d with holdR := (d.readReg who off).2.holdR } := by
  cases hheld : heldHalf d.holdR who (lsaFold off) with
  | none => simp [Dev.readReg, hn, hh, hheld]
  | some v => simp [Dev.readReg, hn, hh, hheld, heldHalf_drop]

theorem Dev.readReg_plain (hn : regAt off = some (n, is)) (hh : n.row.half = 0) :
    d.readReg who off = (d.value n is, d.clear n is) := by
  simp [Dev.readReg, hn, hh]

end

theorem Dev.value_cntTw (d : Dev) (e : Nat) : d.value .ENG_CNT_TW [e] = d.reg .ENG_CNT_TW e := rfl

theorem Dev.clear_cntTw (d : Dev) (e : Nat) : d.clear .ENG_CNT_TW [e] = d.setReg .ENG_CNT_TW 0 e := rfl

/-! ### Writes -/

/-- A write of a _LO half only holds it. -/
theorem Dev.writeReg_lo {d : Dev} {off : Nat} {n : RegName} {is : List Nat} (who v m : Nat) (hn : regAt off = some (n, is))
    (hh : n.row.half = 1) (hrw : n.row.rw ≠ 0) :
    d.writeReg who off v m = { d with holdW := (who, off + 4, v) :: dropHalf d.holdW who (off + 4) } := by
  simp [Dev.writeReg, hn, hh, hrw]

/-- The device once the half of a write that is held for `who` at `off` has been used. -/
def Dev.usedHalf (d : Dev) (who off : Nat) : Dev := { d with holdW := dropHalf d.holdW who off }

/-- A write of the _HI half of the spill base applies the half held with it. -/
theorem Dev.writeReg_spillHi {d : Dev} {who lo : Nat} (v m : Nat) (hlo : heldHalf d.holdW who 0x8000C = some lo) :
    d.writeReg who 0x8000C v m =
      ((d.usedHalf who 0x8000C).writeStrm .STRM_SPILL_LO lo).writeStrm .STRM_SPILL_HI v := by
  simp only [Dev.writeReg, regAt_spillHi, hlo]; rfl

theorem Dev.writeReg_skipThr (d : Dev) (who v m : Nat) {e : Nat} (he : e < 32) :
    d.writeReg who (RegName.DEV_SKIPTHR.off e) v m = d.plainWrite .DEV_SKIPTHR [e] v := by
  have hlt : RegName.DEV_SKIPTHR.off e < 0x10000 := by simp [RegName.off, RegName.row, dimOff]; omega
  have hwin : (decide (0x10000 ≤ RegName.DEV_SKIPTHR.off e) && decide (RegName.DEV_SKIPTHR.off e < 0x20000)) = false := by
    simp; omega
  simp only [Dev.writeReg, regAt_skipThr he, hwin]; rfl

theorem Dev.writeReg_intStat0 (d : Dev) (who v m : Nat) :
    d.writeReg who (RegName.MBX_INT_STAT.off 0) v m =
      d.setMb 0 { d.mb 0 with intStat := (d.mb 0).intStat &&& ~~~(BitVec.ofNat 5 v) } := by
  simp only [Dev.writeReg, regAt_intStat0]; rfl

/-- What a register reads after a plain write: its RW bits from the word written, the others as they stood. -/
theorem Dev.reg_plainWrite_same (d : Dev) (n : RegName) (is : List Nat) (v : Nat) (hrw : n.row.rw ≠ 0)
    (hlt : n.row.rw < 2 ^ 32) :
    (d.plainWrite n is v).reg n (is.getD 0 0) (is.getD 1 0) (is.getD 2 0) =
      plainValue n.row (d.reg n (is.getD 0 0) (is.getD 1 0) (is.getD 2 0)) v := by
  rw [Dev.plainWrite_eq d n is v hrw, Dev.reg_setReg_same]
  exact Nat.mod_eq_of_lt (plainValue_lt _ _ _ (d.reg_lt n _ _ _) hlt)

theorem Dev.reg_plainWrite_ne (d : Dev) (n m : RegName) (is : List Nat) (v i j k : Nat) (hrw : n.row.rw ≠ 0)
    (h : n.off (is.getD 0 0) (is.getD 1 0) (is.getD 2 0) ≠ m.off i j k) :
    (d.plainWrite n is v).reg m i j k = d.reg m i j k := by
  rw [Dev.plainWrite_eq d n is v hrw, Dev.reg_setReg_ne _ _ _ _ _ _ _ _ _ _ h]

theorem Dev.plainWrite_frame (d : Dev) (n : RegName) (is : List Nat) (v : Nat) :
    d.plainWrite n is v = { d with regs := (d.plainWrite n is v).regs } := by
  unfold Dev.plainWrite; dsimp only; split <;> rfl

/-- A write of DEV_SKIPTHR that reaches it: the threshold from the word written, the reserved bits as they stood (R7). -/
theorem Dev.reg_writeReg_skipThr (d : Dev) (who v m : Nat) {e : Nat} (he : e < 32) :
    (d.writeReg who (RegName.DEV_SKIPTHR.off e) v m).reg .DEV_SKIPTHR e =
      (d.reg .DEV_SKIPTHR e &&& 0xFFFF0000) ||| (v &&& 0xFFFF) := by
  rw [Dev.writeReg_skipThr d who v m he]
  exact (Dev.reg_plainWrite_same d .DEV_SKIPTHR [e] v (by decide) (by decide)).trans (by simp [plainValue, RegName.row])

/-! ### Plain, read-to-clear and write-1-to-clear accesses -/

/-- Settles O11: an access that reaches its register is its read or its write there; one that does not, or that has another
width, is a log entry. -/
theorem plainRegisterAccesses : Obligations.PlainRegisterAccesses := by
  unfold Obligations.PlainRegisterAccesses
  refine ⟨?read, ?w1c, ?plain, ?dropped, ?width⟩
  case read =>
    intro s e hon hready he
    have hw : (Instr.rcRead 0 (RegName.ENG_CNT_TW.off e)).wellFormed = true := by
      simp [Instr.wellFormed, okReg, okBar0, okFn, RegName.off, RegName.row, dimOff]; omega
    refine completes_on rfl hw hon ?_
    rw [bar0_zero, Dev.hostRead_ready _ (Dev.fnOn_zero _) hready, Dev.readReg_plain (regAt_cntTw he) rfl, Dev.value_cntTw,
      Dev.clear_cntTw]
    exact ⟨rfl, Dev.reg_setReg_same _ _ _ _ _ _, rfl⟩
  case w1c =>
    intro s v hon hv
    refine completes_on rfl (by simpa [Instr.wellFormed, okWord] using ⟨by decide, hv⟩) hon ?_
    rw [bar0_zero, Dev.hostWrite_reaching v (Dev.fnOn_zero _) rfl, Dev.writeReg_intStat0]
    exact ⟨by rw [Dev.mb_setMb_same], by rw [Dev.mb_setMb_same]; rfl⟩
  case plain =>
    intro s e v hon he hv hreach
    have hw : (Instr.registerWrite 0 (RegName.DEV_SKIPTHR.off e) v).wellFormed = true := by
      simp [Instr.wellFormed, okReg, okBar0, okFn, okWord, RegName.off, RegName.row, dimOff]; omega
    refine completes_on rfl hw hon ?_
    rw [bar0_zero, Dev.hostWrite_reaching v (Dev.fnOn_zero _) hreach]
    refine ⟨Dev.reg_writeReg_skipThr _ _ _ _ he, ?_⟩
    rw [Dev.writeReg_skipThr _ _ _ _ he]
    exact Dev.plainWrite_frame _ _ _ _
  case dropped =>
    intro s fn off v hon hreg hv hfn hreach
    refine completes_on rfl (by simpa [Instr.wellFormed, okWord, hreg] using hv) hon ?_
    rw [Dev.hostWrite_kept_out v hfn hreach]
    exact ⟨Dev.logNow_written _ _ _ _, Dev.logNow_frame _ _ _ _⟩
  case width =>
    intro s fn off isRead hon hreg hfn
    have hfun : okFn fn = true := by simp [okBar0] at hreg; exact hreg.1
    refine completes_on rfl (by simp [Instr.wellFormed, hreg, hfun]) hon ?_
    have hframe := Dev.logNow_frame s.dev srcHost 0x0002 [(4, bar0 fn off)]
    cases isRead with
    | false =>
      rw [show s.dev.badWidth fn (bar0 fn off) false = s.dev.logNow srcHost 0x0002 [(4, bar0 fn off)] by
        simp [Dev.badWidth, hfn]]
      exact ⟨Dev.logNow_written _ _ _ _, nofun, hframe⟩
    | true =>
      rw [show s.dev.badWidth fn (bar0 fn off) true =
          (s.dev.logNow srcHost 0x0002 [(4, bar0 fn off)]).emit (.busData fn (bar0 fn off) 0xFFFFFFFF) by
        simp [Dev.badWidth, hfn]]
      refine ⟨Dev.logNow_written _ _ _ _, fun _ => rfl, ?_⟩
      rw [hframe]; rfl

/-! ### The halves of a pair (R9) -/

theorem Dev.plainWrite_armedCtxs (d : Dev) (n : RegName) (is : List Nat) (v : Nat) :
    (d.plainWrite n is v).armedCtxs = d.armedCtxs := by
  rw [Dev.plainWrite_frame]; rfl

/-- The spill base written while no context is armed. -/
theorem Dev.writeStrm_spill_idle {d : Dev} (lo hi : Nat) (ha : d.armedCtxs = []) :
    (d.writeStrm .STRM_SPILL_LO lo).writeStrm .STRM_SPILL_HI hi =
      (d.plainWrite .STRM_SPILL_LO [] lo).plainWrite .STRM_SPILL_HI [] hi := by
  have hlo : d.writeStrm .STRM_SPILL_LO lo = d.plainWrite .STRM_SPILL_LO [] lo := by simp [Dev.writeStrm, ha]
  rw [hlo]
  simp [Dev.writeStrm, Dev.plainWrite_armedCtxs, ha]

/-- While a context is armed the spill base stays as it is (log entry 172). -/
theorem Dev.writeStrm_spill_armed {d : Dev} (lo hi : Nat) (ha : d.armedCtxs ≠ []) :
    (d.writeStrm .STRM_SPILL_LO lo).writeStrm .STRM_SPILL_HI hi = d := by
  simp [Dev.writeStrm, ha]

theorem Dev.writeStrm_spill_frame (d : Dev) (lo hi : Nat) :
    (d.writeStrm .STRM_SPILL_LO lo).writeStrm .STRM_SPILL_HI hi =
      { d with regs := ((d.writeStrm .STRM_SPILL_LO lo).writeStrm .STRM_SPILL_HI hi).regs } := by
  by_cases ha : d.armedCtxs = []
  · rw [Dev.writeStrm_spill_idle lo hi ha, Dev.plainWrite_frame (d.plainWrite .STRM_SPILL_LO [] lo),
      Dev.plainWrite_frame d]
  · rw [Dev.writeStrm_spill_armed lo hi ha]

/-- The spill base written while no context is armed: each half takes its RW bits. -/
theorem Dev.reg_spill_written (d : Dev) (lo hi : Nat) :
    ((d.plainWrite .STRM_SPILL_LO [] lo).plainWrite .STRM_SPILL_HI [] hi).reg .STRM_SPILL_LO =
      (d.reg .STRM_SPILL_LO &&& 0xFF) ||| (lo &&& 0xFFFFFF00) ∧
    ((d.plainWrite .STRM_SPILL_LO [] lo).plainWrite .STRM_SPILL_HI [] hi).reg .STRM_SPILL_HI =
      (d.reg .STRM_SPILL_HI &&& 0xFFFFFF80) ||| (hi &&& 0x7F) := by
  constructor
  · rw [Dev.reg_plainWrite_ne _ _ _ _ _ _ _ _ (by decide) (by decide)]
    exact (Dev.reg_plainWrite_same d .STRM_SPILL_LO [] lo (by decide) (by decide)).trans (by simp [plainValue, RegName.row])
  · have hkept : (d.plainWrite .STRM_SPILL_LO [] lo).reg .STRM_SPILL_HI = d.reg .STRM_SPILL_HI :=
      Dev.reg_plainWrite_ne d .STRM_SPILL_LO .STRM_SPILL_HI [] lo 0 0 0 (by decide) (by decide)
    rw [← hkept]
    exact (Dev.reg_plainWrite_same _ .STRM_SPILL_HI [] hi (by decide) (by decide)).trans (by simp [plainValue, RegName.row])

/-- Settles O10: the holding registers by what a read and a write of each half does to them, and the spill base by whether a
context is armed. -/
theorem halvesOfPairs : Obligations.HalvesOfPairs := by
  unfold Obligations.HalvesOfPairs
  refine ⟨?loRead, ?hiRead, ?loWrite, ?hiWrite⟩
  case loRead =>
    intro s fn off n h is js hon hready hreg hfn hn hhalf hj
    refine completes_on rfl hreg hon ?_
    rw [Dev.hostRead_ready _ hfn hready, Dev.readReg_lo hn hhalf hj]
    exact ⟨rfl, heldHalf_cons _ _ _ _, rfl⟩
  case hiRead =>
    intro s fn off n is hon hready hreg hfn hn hhalf
    refine completes_on rfl hreg hon ?_
    obtain ⟨hval, hnone, hframe⟩ := Dev.readReg_hi (d := s.dev) (who := fn) hn hhalf
    rw [Dev.hostRead_ready _ hfn hready, hval]
    refine ⟨?_, hnone, ?_⟩ <;> rw [hframe] <;> rfl
  case loWrite =>
    intro s fn off v n is hon hreg hv hfn hreach hn hhalf hrw
    refine completes_on rfl (by simpa [Instr.wellFormed, okWord, hreg] using hv) hon ?_
    rw [Dev.hostWrite_reaching v hfn hreach, Dev.writeReg_lo _ _ _ hn hhalf hrw]
    exact ⟨heldHalf_cons _ _ _ _, rfl⟩
  case hiWrite =>
    intro s lo v hon hv _ hreach hlo
    refine completes_on rfl (by simpa [Instr.wellFormed, okWord] using ⟨by decide, hv⟩) hon ?_
    rw [bar0_zero, Dev.hostWrite_reaching v (Dev.fnOn_zero _) hreach, Dev.writeReg_spillHi _ _ hlo]
    refine ⟨fun ha => ?_, fun ha => ?_, ?_, ?_⟩
    · rw [Dev.writeStrm_spill_idle (d := s.dev.usedHalf 0 0x8000C) lo v ha]
      exact Dev.reg_spill_written (s.dev.usedHalf 0 0x8000C) lo v
    · rw [Dev.writeStrm_spill_armed (d := s.dev.usedHalf 0 0x8000C) lo v ha]; rfl
    all_goals rw [Dev.writeStrm_spill_frame]
    · exact heldHalf_drop _ _ _
    · rfl

/-! ### The log by sequence number (R465) -/

/-- The entry written last is the one that its sequence number names. -/
theorem ErrLog.bytesOf_add (l : ErrLog) (e : LogEntry) :
    (l.add e).bytesOf l.written = ({ e with seq := l.written % 2 ^ 24 } : LogEntry).bytes := by
  have hi : (l.written + 1 + 2 ^ 24 - 1 - l.written % 2 ^ 24) % 2 ^ 24 = 0 := by omega
  have hhead : (l.add e).entries[0]? = some { e with seq := l.written % 2 ^ 24 } := by
    rw [ErrLog.add_entries]; rfl
  simp only [ErrLog.bytesOf, ErrLog.add_written, hi, hhead]
  exact if_neg (Nat.succ_ne_zero _)

/-! ### What an answer leaves -/

theorem Dev.answersWith_regs {x d : Dev} {c : Cmd} {st : Nat} {payload : List Byte} (h : Dev.answersWith x d c st payload) :
    d.regs = x.regs := by
  obtain ⟨-, -, hd⟩ := h
  rw [hd]

theorem Dev.answersWith_reg {x d : Dev} {c : Cmd} {st : Nat} {payload : List Byte} (h : Dev.answersWith x d c st payload)
    (n : RegName) (i j k : Nat) : d.reg n i j k = x.reg n i j k := by
  simp only [Dev.reg, Dev.answersWith_regs h]

theorem Dev.answersWith_pt {x d : Dev} {c : Cmd} {st : Nat} {payload : List Byte} (h : Dev.answersWith x d c st payload)
    (p : Nat) : d.pt p = x.pt p := by
  obtain ⟨-, -, hd⟩ := h
  rw [hd]; rfl

theorem Dev.pt_setPt_same (d : Dev) (p : Nat) (x : PTile) : (d.setPt p x).pt p = x := tget_tset_same _ _ _ _

/-! ### Injections (R305) -/

/-- The signal that the INJECT `c` starts. -/
def Dev.injOf (d : Dev) (c : Cmd) : Inj :=
  { ring := ringOf (c.f 1 1) (c.f 2 1) (c.f 3 1), signal := c.f 4 1
    frozen := if c.f 5 1 = 1 then some (tget (d.pt (c.f 0 1)).htr (ringOf (c.f 1 1) (c.f 2 1) (c.f 3 1)) 0) else none
    decim := c.f 6 1, sel := c.f 7 1, amp := sx 16 (c.f 8 2), f0 := c.f 10 2, f1 := c.f 12 2, durMs := c.f 14 2
    began := d.time, u := tget (d.pt (c.f 0 1)).htr (ringOf (c.f 1 1) (c.f 2 1) (c.f 3 1)) 0 }

/-- An INJECT in range on a tile out of service starts its signal and its capture. -/
theorem Dev.cmdInject_ok {d : Dev} {c : Cmd} (hp : c.f 0 1 ≤ 135) (hrow : c.f 1 1 ≤ 63) (hline : c.f 2 1 ≤ 63)
    (hmod : c.f 3 1 ≤ 1) (hsig : c.f 4 1 ≤ 3) (hfrz : c.f 5 1 ≤ 1) (hdec : c.f 6 1 ≤ 3) (hsel : c.f 7 1 ≤ 15)
    (hhz : c.f 4 1 = 1 → 1 ≤ c.f 10 2 ∧ c.f 10 2 ≤ 10000 ∧ 1 ≤ c.f 12 2 ∧ c.f 12 2 ≤ 10000)
    (hfree : d.logicalOf (c.f 0 1) = none) :
    d.cmdInject c =
      (d.setPt (c.f 0 1) { d.pt (c.f 0 1) with inj := some (d.injOf c), cap := { active := true } }).ok c := by
  refine Dev.checked_ok _ _ _ _ ?_
  simp [hfree]
  omega

/-! ### Captures (R306) -/

theorem Dev.capWords_frame (d : Dev) (p first n : Nat) :
    (d.capWords p first n).2 = { d with freeCtr := (d.capWords p first n).2.freeCtr } := by
  induction n generalizing d first with
  | zero => rfl
  | succ n ih =>
    simp only [Dev.capWords]
    cases (d.pt p).cap.samples[first]? with
    | some w => exact ih d (first + 1)
    | none =>
      dsimp only
      rw [ih d.fresh.2 (first + 1)]; rfl

theorem Dev.capWords_length (d : Dev) (p first n : Nat) : (d.capWords p first n).1.length = 4 * n := by
  induction n generalizing d first with
  | zero => rfl
  | succ n ih =>
    simp only [Dev.capWords]
    cases (d.pt p).cap.samples[first]? <;> simp [ih] <;> omega

/-- Words that the capture has taken are its own, and take no free value. -/
theorem Dev.capWords_taken (d : Dev) (p first n : Nat) (h : first + n ≤ (d.pt p).cap.samples.length) :
    d.capWords p first n = ((((d.pt p).cap.samples.drop first).take n).flatMap (leBytes 4), d) := by
  induction n generalizing first with
  | zero => simp [Dev.capWords]
  | succ n ih =>
    have hlt : first < (d.pt p).cap.samples.length := by omega
    simp only [Dev.capWords, List.getElem?_eq_getElem hlt, ih (first + 1) (by omega)]
    rw [List.drop_eq_getElem_cons hlt, List.take_succ_cons, List.flatMap_cons]

/-! ### Registers read one after the other (R7, R9) -/

theorem Dev.readRegs_length (d : Dev) (who off n : Nat) : (d.readRegs who off n).1.length = 4 * n := by
  induction n generalizing d off with
  | zero => rfl
  | succ n ih => simp [Dev.readRegs, ih]; omega

theorem Dev.readRegs_one {d : Dev} {who off : Nat} {n : RegName} {is : List Nat} (hn : regAt off = some (n, is))
    (hh : n.row.half = 0) : d.readRegs who off 1 = (leBytes 4 (d.value n is), d.clear n is) := by
  simp [Dev.readRegs, Dev.readReg_plain hn hh]

/-! ### Rows that two header versions share (R428) -/

/-- LOG_READ and v1 LOGRD are one command. -/
theorem completes_logRead {s : State} {c : Cmd} {i : Instr} {P : Dev → Prop}
    (hi : (i = .logRead ∧ s.holds c 0x0D00) ∨ (i = .logrd ∧ s.holds c 0x0A true)) (hP : P (s.dev.cmdLogRead c)) :
    Completes i s P := by
  obtain ⟨rfl, hc⟩ | ⟨rfl, hc⟩ := hi
  · exact completes_held (f := Dev.cmdLogRead) rfl rfl hc hP
  · exact completes_held (f := Dev.cmdLogRead) rfl rfl hc hP

/-- REG_READ and v1 RDREG are one command. -/
theorem completes_regRead {s : State} {c : Cmd} {i : Instr} {P : Dev → Prop}
    (hi : (i = .regRead ∧ s.holds c 0x0E04) ∨ (i = .rdreg ∧ s.holds c 0x03 true)) (hP : P (s.dev.cmdRegRead c)) :
    Completes i s P := by
  obtain ⟨rfl, hc⟩ | ⟨rfl, hc⟩ := hi
  · exact completes_held (f := Dev.cmdRegRead) rfl rfl hc hP
  · exact completes_held (f := Dev.cmdRegRead) rfl rfl hc hP

/-- REG_READ in range answers the words read. -/
theorem Dev.cmdRegRead_ok {d : Dev} {c : Cmd} (h1 : 1 ≤ c.f 4 2) (h2 : c.f 4 2 ≤ 1020) (ha : c.f 0 4 % 4 = 0)
    (he : c.f 0 4 + 4 * c.f 4 2 ≤ 0x2000000) :
    d.cmdRegRead c =
      (d.readRegs (16 + c.mbx) (c.f 0 4) (c.f 4 2)).2.ok c (d.readRegs (16 + c.mbx) (c.f 0 4) (c.f 4 2)).1 := by
  refine Dev.checked_ok _ _ _ _ ?_
  simp [ha]; omega

/-- A check that does not hold lets the next one judge. -/
theorem Dev.checked_passed (d : Dev) (c : Cmd) {bad : Bool} (st det : Nat) (l : List (Bool × Nat × Nat)) (k : Dev → Dev)
    (h : bad = false) : d.checked c ((bad, st, det) :: l) k = d.checked c l k := by
  subst h; rfl

/-- The first check that holds is answered with its status. -/
theorem Dev.checked_failed (d : Dev) (c : Cmd) {bad : Bool} {st : Nat} (det : Nat) (l : List (Bool × Nat × Nat))
    (k : Dev → Dev) (h : bad = true) (hst : st ≠ stBusy) : d.checked c ((bad, st, det) :: l) k = d.answer c st [] det := by
  subst h
  exact if_neg hst

/-- The function that a mailbox's v1 WRREG counts as. -/
theorem wrreg_fn (m : Nat) :
    (if (decide (1 ≤ m) && decide (m ≤ 4)) = true then m else 0) = if 1 ≤ m ∧ m ≤ 4 then m else 0 := by
  simp only [Bool.and_eq_true, decide_eq_true_eq]

section
variable {d : Dev} {c : Cmd} (ha : c.f 0 4 % 4 = 0) (hb : c.f 0 4 < 0x2000000)
include ha hb

/-- The offset of a WRREG is that of a word of BAR0. -/
theorem wrreg_offset_ok : (c.f 0 4 % 4 != 0 || decide (0x2000000 ≤ c.f 0 4)) = false := by
  rw [ha, decide_eq_false (Nat.not_le_of_lt hb)]; rfl

theorem Dev.cmdWrreg_ok (hr : d.reaches (if 1 ≤ c.mbx ∧ c.mbx ≤ 4 then c.mbx else 0) (c.f 0 4) = true)
    (hw : d.covered (c.f 0 4) 4 = false) :
    d.cmdWrreg c = (d.writeReg (16 + c.mbx) (c.f 0 4) (c.f 4 4) c.mbx).ok c := by
  rw [← wrreg_fn] at hr
  rw [Dev.cmdWrreg, Dev.checked_passed _ _ _ _ _ _ (wrreg_offset_ok ha hb), Dev.checked_passed _ _ _ _ _ _ (by rw [hr]; rfl),
    Dev.checked_passed _ _ _ _ _ _ hw]
  rfl

theorem Dev.cmdWrreg_kept_out (hr : d.reaches (if 1 ≤ c.mbx ∧ c.mbx ≤ 4 then c.mbx else 0) (c.f 0 4) = false) :
    d.cmdWrreg c = d.answer c 6 := by
  rw [← wrreg_fn] at hr
  rw [Dev.cmdWrreg, Dev.checked_passed _ _ _ _ _ _ (wrreg_offset_ok ha hb),
    Dev.checked_failed _ _ _ _ _ (by rw [hr]; rfl) (by decide)]
  rfl

theorem Dev.cmdWrreg_covered (hr : d.reaches (if 1 ≤ c.mbx ∧ c.mbx ≤ 4 then c.mbx else 0) (c.f 0 4) = true)
    (hw : d.covered (c.f 0 4) 4 = true) : d.cmdWrreg c = d.answer c 8 := by
  rw [← wrreg_fn] at hr
  rw [Dev.cmdWrreg, Dev.checked_passed _ _ _ _ _ _ (wrreg_offset_ok ha hb), Dev.checked_passed _ _ _ _ _ _ (by rw [hr]; rfl),
    Dev.checked_failed _ _ _ _ _ hw (by decide)]
  rfl

end

/-- Settles O56: a command whose fields are in range passes its checks and answers what its meaning gives; a v1 WRREG that a
host write would not reach, or whose register a window covers, fails the check that says so. -/
theorem logDebugAndRegisterCommands : Obligations.LogDebugAndRegisterCommands := by
  unfold Obligations.LogDebugAndRegisterCommands
  refine ⟨?logRead, ErrLog.bytesOf_add, ?eventSub, ?inject, ?capture, ?hinj, ?regOne, ?regs, ?wrreg,
    ?wrregOut, ?wrregCovered⟩
  case logRead =>
    intro s c i hi h1 h2 h3
    refine completes_logRead hi ?_
    rw [Dev.cmdLogRead, Dev.checked_ok]
    · exact Dev.ok_answersWith _ _ _
    · simp; omega
  case eventSub =>
    intro s c hc h1
    refine completes_held (f := Dev.cmdEventSub) rfl rfl hc ?_
    rw [Dev.cmdEventSub, Dev.checked_ok]
    · exact Dev.ok_answersWith _ _ _
    · simp; omega
  case inject =>
    intro s c hc hp hrow hline hmod hsig hfrz hdec hsel hhz hfree
    refine completes_held (f := Dev.cmdInject) rfl rfl hc ?_
    rw [Dev.cmdInject_ok hp hrow hline hmod hsig hfrz hdec hsel hhz hfree]
    generalize hx : ({ s.dev.pt (c.f 0 1) with inj := some (s.dev.injOf c), cap := { active := true } } : PTile) = x
    have hans := Dev.ok_answersWith (s.dev.setPt (c.f 0 1) x) c []
    have hpt := (Dev.answersWith_pt hans (c.f 0 1)).trans (Dev.pt_setPt_same _ _ _)
    have hinj : x.inj = some (s.dev.injOf c) := by rw [← hx]
    have hcap : x.cap = { active := true } := by rw [← hx]
    rw [hpt, hinj, hcap]
    refine ⟨⟨_, rfl, rfl, rfl, rfl, rfl, fun h => if_neg (by omega), fun h => if_pos h⟩, rfl, ?_⟩
    rw [hx]; exact hans
  case capture =>
    intro s c hc hp hfirst hn1 hn2 hend
    refine completes_held (f := Dev.cmdCaptureRead) rfl rfl hc ?_
    rw [Dev.cmdCaptureRead, Dev.checked_ok]
    · have hfr := Dev.capWords_frame s.dev (c.f 0 1) (c.f 2 2) (c.f 4 2)
      have hfirst : ((s.dev.capWords (c.f 0 1) (c.f 2 2) (c.f 4 2)).2.pt (c.f 0 1)).cap.first =
        (s.dev.pt (c.f 0 1)).cap.first := by rw [hfr]; rfl
      refine ⟨(s.dev.capWords (c.f 0 1) (c.f 2 2) (c.f 4 2)).2, (s.dev.capWords (c.f 0 1) (c.f 2 2) (c.f 4 2)).1, ?_,
        Dev.capWords_length _ _ _ _, hfr, fun h => ?_⟩
      · rw [← hfirst]; exact Dev.ok_answersWith _ _ _
      · rw [Dev.capWords_taken _ _ _ _ h]; exact ⟨rfl, rfl⟩
    · simp; omega
  case hinj =>
    intro s c hc hrg hp hof hrow hline hmod hfree
    refine completes_held (f := Dev.cmdHinjBind) rfl rfl hc ?_
    rw [Dev.cmdHinjBind, Dev.checked_ok]
    · exact Dev.ok_answersWith _ _ _
    · simp [hfree, hof]; omega
  case regOne =>
    intro s c i n is hi h1 h2 h3 hn hh
    refine completes_regRead hi ?_
    rw [Dev.cmdRegRead_ok (by omega) (by omega) h2 (by omega), h1, Dev.readRegs_one hn hh]
    exact ⟨_, Dev.ok_answersWith _ _ _, rfl⟩
  case regs =>
    intro s c i hi h1 h2 h3 h4
    refine completes_regRead hi ?_
    rw [Dev.cmdRegRead_ok h1 h2 h3 h4]
    exact ⟨_, _, Dev.readRegs_length _ _ _ _, Dev.ok_answersWith _ _ _⟩
  case wrreg =>
    intro s c hc ha hb hr hw
    refine completes_held (f := Dev.cmdWrreg) rfl rfl hc ?_
    rw [Dev.cmdWrreg_ok ha hb hr hw]
    have hans := Dev.ok_answersWith (s.dev.writeReg (16 + c.mbx) (c.f 0 4) (c.f 4 4) c.mbx) c []
    refine ⟨fun e he hoff => ?_, hans⟩
    rw [hoff] at hans ⊢
    have hreg := (Dev.answersWith_reg hans .DEV_SKIPTHR e 0 0).trans (Dev.reg_writeReg_skipThr _ _ _ _ he)
    refine ⟨hreg, ?_⟩
    rw [Dev.answersWith_regs hans, Dev.writeReg_skipThr _ _ _ _ he, ← Dev.plainWrite_frame,
      ← Dev.writeReg_skipThr _ _ _ _ he]
    exact hans
  case wrregOut =>
    intro s c hc ha hb hr
    refine completes_held (f := Dev.cmdWrreg) rfl rfl hc ?_
    rw [Dev.cmdWrreg_kept_out ha hb hr]
    exact Dev.answer_answersWith _ _ _ _ _
  case wrregCovered =>
    intro s c hc ha hb hr hw
    refine completes_held (f := Dev.cmdWrreg) rfl rfl hc ?_
    rw [Dev.cmdWrreg_covered ha hb hr hw]
    exact Dev.answer_answersWith _ _ _ _ _

/-! ### SCRUB_CFG, and a reserved bit of STRM_SCRUB -/

theorem Dev.sendTlps_regs (d : Dev) : d.sendTlps.regs = d.regs := by
  have h (l : List (Nat × Output)) (x : Dev) : (l.foldl (fun d t => Dev.present d 52 t.1 none) x).regs = x.regs := by
    induction l generalizing x with
    | nil => rfl
    | cons a l ih => rw [List.foldl_cons, ih]; rfl
  unfold Dev.sendTlps; dsimp only; split
  · rfl
  · rw [h]

/-- Two accounts of one command end in one device. -/
theorem Completes.finish_eq {i : Instr} {s : State} {P : Dev → Prop} {x : Dev} (h : Completes i s P)
    (hx : Completes i s fun d => d = x) : ∃ d, P d ∧ s.dev.finish d = s.dev.finish x := by
  obtain ⟨d, hd, hP⟩ := h
  obtain ⟨_, hd', rfl⟩ := hx
  have heq := hd.symm.trans hd'
  injection heq with heq
  exact ⟨d, hP, congrArg State.dev heq⟩

/-- The end of a command with nothing to settle leaves the registers alone. -/
theorem Dev.finish_regs_of_calm (d0 : Dev) {d : Dev} (h : d.calm) : (d0.finish d).regs = d.regs := by
  rw [Dev.finish_calm d0 d h]
  exact Dev.sendTlps_regs _

theorem Dev.calm_of_answersWith {x d : Dev} {c : Cmd} {st : Nat} {payload : List Byte} (h : Dev.answersWith x d c st payload)
    (hx : x.calm) : d.calm := by
  obtain ⟨-, -, hd⟩ := h
  rw [hd]; exact hx

/-- While no context is armed, SCRUB_CFG is a plain write of STRM_SCRUB: the reserved bits stay as they are (R7). -/
theorem Dev.cmdScrubCfg_idle {d : Dev} {c : Cmd} (h : c.f 0 1 ≤ 1) (ha : d.armedCtxs = []) :
    d.cmdScrubCfg c = (d.plainWrite .STRM_SCRUB [] (c.f 0 1 * 2 ^ 31 + c.f 2 2)).ok c := by
  rw [Dev.cmdScrubCfg, Dev.checked_ok]
  · simp [Dev.writeStrm, ha]
  · simp [h]

/-- The SCRUB_CFG of MBX0 that turns the scrubber off. -/
def scrubOff : Cmd := { mbx := 0, v1 := false, opcode := 0x0404, async := false, seq := 0, hostts := 0, payload := [] }

/-- A state in which STRM_SCRUB holds its reserved bit 16, and the CP the command `scrubOff`. -/
def scrubReserved : State := { dev := { regs := [(0x80010, 0x10000#32)], cp := { cur := some scrubOff } } }

/-- Refutes O49, in its clause for SCRUB_CFG with no context armed. The statement speaks of every state, and in
`scrubReserved` the command keeps the reserved bit 16 that STRM_SCRUB holds (R7), where the statement leaves the register the
command's fields alone. -/
theorem not_streamAndCopyCommands : ¬ Obligations.StreamAndCopyCommands := by
  unfold Obligations.StreamAndCopyCommands
  rintro ⟨-, -, -, -, hscrub, -⟩
  have hf : scrubOff.f 0 1 ≤ 1 := by decide
  have hcalm : scrubReserved.dev.calm := ⟨fun _ _ _ _ _ _ _ _ _ _ => nofun, rfl⟩
  have hidle : scrubReserved.dev.armedCtxs = [] := rfl
  -- What the command does in that state: the plain write of STRM_SCRUB, and its answer.
  have hrun : Completes .scrubCfg scrubReserved fun x => x = scrubReserved.dev.cmdScrubCfg scrubOff :=
    completes_held (f := Dev.cmdScrubCfg) rfl rfl ⟨rfl, rfl, rfl, rfl⟩ rfl
  rw [Dev.cmdScrubCfg_idle hf hidle] at hrun
  have hdone := Dev.ok_answersWith (scrubReserved.dev.plainWrite .STRM_SCRUB [] (scrubOff.f 0 1 * 2 ^ 31 + scrubOff.f 2 2))
    scrubOff []
  -- The device that the statement names ends as that one does, and so has its registers.
  obtain ⟨d, ⟨hstated, -⟩, hsame⟩ := (hscrub scrubReserved scrubOff ⟨rfl, rfl, rfl, rfl⟩ hf).finish_eq hrun
  have hstated := hstated hidle
  replace hsame := congrArg Dev.regs hsame
  rw [Dev.finish_regs_of_calm _ (Dev.calm_of_answersWith hstated hcalm),
    Dev.finish_regs_of_calm _ (Dev.calm_of_answersWith hdone hcalm), Dev.answersWith_regs hstated,
    Dev.answersWith_regs hdone] at hsame
  exact absurd hsame (by decide)

end Sys2Proof.Machine

/-!
The architecture family: accesses of BAR2, safe points, and the commands of identity, firmware and grants.
-/
namespace Sys2Proof.Machine

/-! ### Accesses of BAR2 that lie in DRAM (R27, R379, R381) -/

/-- The PF's BAR2 shows DRAM at its own device addresses. -/
theorem Dev.bar2_pf_dram (d : Dev) {off n : Nat} (h : off + n ≤ 0x6000000000) : d.bar2 0 off n = some off := by
  simp [Dev.bar2]; omega

theorem isSram_dram {a : Nat} (h : a < 0x6000000000) : isSram a = false := by
  simp [isSram]; omega

/-- Ready DRAM serves every access (R443). -/
theorem Dev.early_dram {d : Dev} {a : Nat} (isRead : Bool) (h : a < 0x6000000000) (hr : d.cp.dramReady = true) :
    d.early a isRead = false := by
  simp [Dev.early, isSram_dram h, hr]

section
variable {d : Dev} {off : Nat} (hr : d.cp.dramReady = true)
include hr

/-- A read of ready DRAM completes with memory's bytes and whether one of their blocks is poisoned. -/
theorem Dev.bar2Read_dram {n : Nat} (hn : 1 ≤ n) (h : off + n ≤ 0x6000000000) :
    d.bar2Read 0 off n none none =
      (d.hubAccess 0x140 off n false).emit (.bar2Data 0 off (d.poisoned off n) (d.rdBytes off n)) := by
  have hoff : off < 0x6000000000 := by omega
  simp [Dev.bar2Read, d.bar2_pf_dram h, Dev.early_dram _ hoff hr, isSram_dram hoff, Dev.cacheErr, d.hubRead_dram _ h]

/-- A write of ready DRAM is a write through the hub cache. -/
theorem Dev.bar2Write_dram {data : List Byte} (hn : 1 ≤ data.length) (h : off + data.length ≤ 0x6000000000) :
    d.bar2Write 0 off data none = d.hubWrite 0x140 off data := by
  have hoff : off < 0x6000000000 := by omega
  simp [Dev.bar2Write, d.bar2_pf_dram h, Dev.early_dram _ hoff hr, Dev.cacheErr]

/-- An atomic on clean, ready DRAM answers the old word and writes the new one through the hub cache. -/
theorem Dev.bar2Atomic_dram (cas : Bool) {val cmp : Nat} (hval : val < 2 ^ 64) (hcmp : cmp < 2 ^ 64)
    (h : off + 8 ≤ 0x6000000000) (hclean : d.poisoned off 8 = false) :
    d.bar2Atomic 0 off cas val cmp =
      (d.hubWrite 0x140 off (leBytes 8 (if cas then (if d.rdLe off 8 = cmp then val else d.rdLe off 8)
        else (d.rdLe off 8 + val) % 2 ^ 64))).emit (.atomicData 0 off (d.rdLe off 8) false) := by
  have hend : off + 8 ≤ dramEnd := h
  simp only [Dev.bar2Atomic, d.bar2_pf_dram h, Dev.early_dram false (show off < 0x6000000000 by omega) hr, hclean, hend,
    Nat.mod_eq_of_lt hval, Nat.mod_eq_of_lt hcmp, decide_true, Bool.not_true, Bool.false_eq_true, if_false]

end

/-- A write of DRAM changes, beside memory, which blocks are poisoned and what lies at the Tollgates and in the cache. -/
theorem Dev.hubWrite_dram_frame (d : Dev) (who : Nat) {a : Nat} {bs : List Byte} (h : a + bs.length ≤ 0x6000000000) :
    d.hubWrite who a bs = { d with
      wr := (d.hubWrite who a bs).wr, tgs := (d.hubWrite who a bs).tgs
      str := { d.str with poison := (d.hubWrite who a bs).str.poison, cache := (d.hubWrite who a bs).str.cache } } := by
  rw [Dev.hubWrite_dram d who h, Dev.wrBytes_frame]; rfl

theorem Dev.rd_hubWrite_dram_inside (d : Dev) (who k : Nat) {a : Nat} {bs : List Byte} (h : a + bs.length ≤ 0x6000000000)
    (hk : k < bs.length) : (d.hubWrite who a bs).rd (a + k) = bs.getD k 0#8 := by
  rw [Dev.rd_hubWrite_dram d who _ h, if_pos (by omega), Nat.add_sub_cancel_left]

theorem Dev.rd_hubWrite_dram_outside (d : Dev) (who c : Nat) {a : Nat} {bs : List Byte} (h : a + bs.length ≤ 0x6000000000)
    (hc : c < a ∨ a + bs.length ≤ c) : (d.hubWrite who a bs).rd c = d.rd c := by
  rw [Dev.rd_hubWrite_dram d who _ h, if_neg (by omega)]

/-- A number written to DRAM through the hub cache reads back. -/
theorem Dev.rdLe_hubWrite_dram (d : Dev) (who v : Nat) {a n : Nat} (h : a + n ≤ 0x6000000000) :
    (d.hubWrite who a (leBytes n v)).rdLe a n = v % 256 ^ n := by
  rw [Dev.hubWrite_dram d who (by simpa using h)]
  exact Dev.rdLe_wrLe (d.hubAccess who a (leBytes n v).length true) a n v

theorem okBar2_dram {off : Nat} (h : off < 0x6000000000) : okBar2 off = true := by
  simp [okBar2]; omega

/-- Settles O9: each access is its read or its write through the hub cache, whose bytes are memory's. -/
theorem bar2ReachesMemory : Obligations.Bar2ReachesMemory := by
  unfold Obligations.Bar2ReachesMemory
  refine ⟨?read, ?write, ?atomic⟩
  case read =>
    intro s off n hon hready hwr hn hmax hend
    have hw : (Instr.hostBar2Read 0 off n none none).wellFormed = true := by
      simp [Instr.wellFormed, okFn, okLen, okUe, okBar2_dram (show off < 0x6000000000 by omega), hn, hmax]
    refine completes_on rfl hw hon ?_
    rw [Dev.bar2Read_dram hready hn hend]
    have hbytes : s.dev.rdBytes off n = (List.range n).map fun k => Memory.read s.dev.mem (off + k) := by
      simp only [Dev.rdBytes, upTo, Dev.rd_of_wr_nil _ _ hwr]
    rw [hbytes]
    exact ⟨rfl, rfl⟩
  case write =>
    intro s off data hon hready hwr hn hmax hend
    have hw : (Instr.hostBar2Write 0 off data none).wellFormed = true := by
      simp [Instr.wellFormed, okFn, okLen, okBar2_dram (show off < 0x6000000000 by omega), hn, hmax]
    refine completes_on rfl hw hon ?_
    rw [Dev.bar2Write_dram hready hn hend]
    refine ⟨fun k hk => Dev.rd_hubWrite_dram_inside _ _ _ hend hk, fun a ha => ?_, Dev.hubWrite_dram_frame _ _ hend⟩
    rw [Dev.rd_hubWrite_dram_outside _ _ _ hend ha, Dev.rd_of_wr_nil _ _ hwr]
  case atomic =>
    intro s off val cmp cas hon hready hwr hval hcmp halign hend hclean
    have hw : (Instr.hostAtomic 0 off cas val cmp).wellFormed = true := by
      simp [Instr.wellFormed, okFn, okU64, okBar2_dram (show off < 0x6000000000 by omega), halign]; omega
    refine completes_on rfl hw hon ?_
    rw [Dev.bar2Atomic_dram hready cas hval hcmp hend hclean]
    generalize hnew : (if cas then (if s.dev.rdLe off 8 = cmp then val else s.dev.rdLe off 8)
      else (s.dev.rdLe off 8 + val) % 2 ^ 64) = new
    have hlt : new < 256 ^ 8 := by
      have hold := s.dev.rdLe_lt off 8
      rw [← hnew]
      split
      · split
        · exact hval
        · exact hold
      · exact Nat.mod_lt _ (by decide)
    have hlen : off + (leBytes 8 new).length ≤ 0x6000000000 := by simpa using hend
    have hframe := Dev.hubWrite_dram_frame s.dev 0x140 hlen
    refine ⟨?_, (Dev.rdLe_hubWrite_dram s.dev 0x140 new hend).trans (Nat.mod_eq_of_lt hlt), fun a ha => ?_, ?_⟩
    · rw [hframe]; rfl
    · exact (Dev.rd_hubWrite_dram_outside s.dev 0x140 a hlen (by simpa using ha)).trans (Dev.rd_of_wr_nil _ _ hwr)
    · rw [hframe]; rfl

/-! ### Safe points (R31, R358, R359) -/

theorem Dev.endJobs_of_no_jobs {d : Dev} (h : d.cp.jobs = []) (f : Job → Bool) (status : Nat) : d.endJobs f status = d := by
  simp [Dev.endJobs, h]

/-- An engine that shuts down, its queues empty and its tiles off, is off. -/
theorem Dev.engineSafe_idle {d : Dev} {e : Nat} (hst : (d.eng e).st = .shutdown) (hrun : (d.eng e).run = none)
    (hissue : (d.eng e).issueq = []) (hmac : (d.eng e).macq = []) (hvec : (d.eng e).vecq = []) (hdel : (d.eng e).delq = [])
    (hsig : (d.eng e).sigq = []) (htiles : ∀ t, t < 4 → (d.slot e t).st = .off) (hjobs : d.cp.jobs = []) :
    d.engineSafe e = d.setEng e { d.eng e with st := .off, areas := [] } := by
  have hall : ((upTo 4).all fun t => decide ((d.slot e t).st = .off)) = true := by
    simpa [upTo] using htiles
  simp [Dev.engineSafe, hst, hrun, hissue, hmac, hvec, hdel, hsig, hall, Dev.endJobs_of_no_jobs hjobs, Dev.modEng]

/-- A physical tile at its safe point: heaters at park, trims and bias at mid scale, integrators reset. -/
def Dev.atPark (d : Dev) (p : Nat) (x : PTile) : PTile :=
  { x with
    parking := false, acq := {}, htr := allRings.map (fun r => (r, d.park p r)), trim := [], lev := [], trimHist := []
    mbias := [], modInt := [], xbar := [], xhat := [], bump := [] }

/-- A table that gives every key of `l` its value. -/
theorem tget_map_of_mem {α : Type} {l : List Nat} (g : Nat → α) {k : Nat} (x : α) (h : k ∈ l) :
    tget (l.map fun r => (r, g r)) k x = g k := by
  induction l with
  | nil => simp at h
  | cons a l ih =>
    simp only [List.map_cons, tget]
    split
    · next heq => rw [heq]
    · next hne => exact ih (by simpa [Ne.symm hne] using h)

/-- At its safe point every heater of a tile stands at its park code. -/
theorem Dev.htr_atPark (d : Dev) (p : Nat) (x : PTile) {r : Nat} (hr : r < 4160) : tget (d.atPark p x).htr r 0 = d.park p r := by
  have hmem : r ∈ allRings := List.mem_range.mpr hr
  simp only [Dev.atPark, tget_map_of_mem (d.park p) 0 hmem]

theorem Dev.logicalOf_modPt (d : Dev) (p q : Nat) (f : PTile → PTile) : (d.modPt p f).logicalOf q = d.logicalOf q := rfl

/-- A tile outside the map, its heaters arrived, is at its safe point at once. -/
theorem Dev.tileSafe_unmapped {d : Dev} {p : Nat} (hpark : (d.pt p).parking = true) (harr : (d.pt p).arrived = true)
    (hmap : d.logicalOf p = none) : d.tileSafe p = (d.modPt p (d.atPark p)).auxFault (regionOfP p / 2) := by
  simp only [Dev.tileSafe, hpark, harr, hmap, Dev.logicalOf_modPt, Bool.not_true, Bool.or_self, Bool.false_eq_true, if_false]
  rfl

/-- Steps that touch registers alone leave, one after the other, all else. -/
theorem Dev.regs_foldl {α : Type} (l : List α) (f : Dev → α → Dev) (h : ∀ d a, f d a = { d with regs := (f d a).regs })
    (d : Dev) : l.foldl f d = { d with regs := (l.foldl f d).regs } := by
  induction l generalizing d with
  | nil => rfl
  | cons a l ih =>
    rw [List.foldl_cons]
    refine (ih (f d a)).trans ?_
    rw [h d a]

/-- Stacks whose light is gone may have their AUX channels set: registers alone. -/
theorem Dev.auxFault_frame (d : Dev) (n : Nat) : d.auxFault n = { d with regs := (d.auxFault n).regs } := by
  unfold Dev.auxFault; dsimp only; split
  · exact Dev.regs_foldl _ _ (fun d _ => Dev.regs_foldl _ _ (fun _ _ => rfl) d) d
  · rfl

/-- A fronthaul port that shuts down is off with its link down; the timeline forgets what it heard on that link. -/
theorem Dev.fhSafe_shutdown {d : Dev} {p : Nat} (hst : (d.fh p).st = .shutdown) :
    d.fhSafe p = { d.setFh p { d.fh p with st := .off, link := false } with
      tl := if (d.fh p).link = true ∧ p = d.rf .TL_CFG 4 3 then { d.tl with esmcQl := none, ptp := {} } else d.tl } := by
  simp only [Dev.fhSafe, hst, decide_true, Bool.true_or, Bool.and_true, Bool.and_eq_true, decide_eq_true_eq, if_true]
  split <;> rfl

/-- Settles O44: an idle engine, an unmapped tile and a port that shuts down each take their last step, and no command waits
for it. -/
theorem safePoints : Obligations.SafePoints := by
  unfold Obligations.SafePoints
  refine ⟨?engine, ?tile, ?port⟩
  case engine =>
    intro s e hon he hst hrun hissue hmac hvec hdel hsig htiles hjobs
    refine completes_on rfl (by simpa [Instr.wellFormed, okBlockOf, okEngine] using he) hon ?_
    exact Dev.engineSafe_idle hst hrun hissue hmac hvec hdel hsig htiles hjobs
  case tile =>
    intro s p hon hp hpark harr hmap
    refine completes_on rfl (by simpa [Instr.wellFormed, okBlockOf, okTile] using hp) hon ?_
    rw [show s.dev.safePoint 1 p = s.dev.tileSafe p from rfl, Dev.tileSafe_unmapped hpark harr hmap]
    have hframe := Dev.auxFault_frame (s.dev.modPt p (s.dev.atPark p)) (regionOfP p / 2)
    have hpt (q : Nat) : ((s.dev.modPt p (s.dev.atPark p)).auxFault (regionOfP p / 2)).pt q =
        (s.dev.modPt p (s.dev.atPark p)).pt q := by rw [hframe]; rfl
    have hsame : (s.dev.modPt p (s.dev.atPark p)).pt p = s.dev.atPark p (s.dev.pt p) := Dev.pt_setPt_same _ _ _
    simp only [hpt, hsame]
    refine ⟨rfl, rfl, fun r hr => ?_, fun q hq => tget_tset_ne _ _ _ hq.symm, ?_⟩
    · exact Dev.htr_atPark _ _ _ hr
    · rw [hframe]; rfl
  case port =>
    intro s p hon hp hst hjobs
    refine completes_on rfl (by simp [Instr.wellFormed, okBlockOf]; omega) hon ?_
    have hstate : s.dev.blockState 2 (0x10 + p) = 2 := by
      simp [Dev.blockState, hst]; omega
    have hsafe := Dev.fhSafe_shutdown hst
    have hnone : (s.dev.fhSafe p).cp.jobs = [] := by rw [hsafe]; exact hjobs
    simp only [Dev.safePoint, hstate, show 0x10 + p < 0x20 by omega, Nat.add_sub_cancel_left, if_true,
      Dev.endJobs_of_no_jobs hnone]
    exact hsafe

/-! ### Device numbers (R29, R397) -/

/-- A port that enters DEVNUM_CONFLICT touches peer links and reports alone. -/
theorem Dev.enterConflict_frame (d : Dev) (p : Nat) :
    d.enterConflict p = { d with
      peers := (d.enterConflict p).peers, log := (d.enterConflict p).log, mbx := (d.enterConflict p).mbx
      out := (d.enterConflict p).out } := by
  unfold Dev.enterConflict; dsimp only; split
  · rfl
  · unfold Dev.portEvent
    rw [Dev.publish_mail, Dev.logNow_frame]; rfl

theorem Dev.checkConflicts_frame (d : Dev) :
    d.checkConflicts = { d with
      peers := d.checkConflicts.peers, log := d.checkConflicts.log, mbx := d.checkConflicts.mbx
      out := d.checkConflicts.out } := by
  unfold Dev.checkConflicts; dsimp only
  generalize (upTo 4).filter (fun p => d.peerLive p && d.peerClash p) = l
  induction l generalizing d with
  | nil => rfl
  | cons p l ih =>
    rw [List.foldl_cons]
    refine (ih (d.enterConflict p)).trans ?_
    rw [Dev.enterConflict_frame d p]

/-- Where no port clashes, no port enters conflict. -/
theorem Dev.checkConflicts_of_no_clash {d : Dev} (h : ∀ p, p < 4 → d.peerClash p = false) : d.checkConflicts = d := by
  have hnone : (upTo 4).filter (fun p => d.peerLive p && d.peerClash p) = [] := by
    rw [List.filter_eq_nil_iff]
    intro p hp
    simp [h p (List.mem_range.mp hp)]
  simp [Dev.checkConflicts, hnone]

section
variable {d : Dev} {c : Cmd} (hn : c.f 0 1 ≤ 3)
include hn

/-- A number that no connected device has is taken, and the exchange repeats. -/
theorem Dev.cmdSetDevnum_ok (hnew : d.devnum = none) (hfree : ∀ p, p < 4 → (d.peer p).pdev ≠ some (c.f 0 1)) :
    d.cmdSetDevnum c = (Dev.checkConflicts { d with devnum := some (c.f 0 1) }).ok c := by
  have hany : ((upTo 4).any fun p => decide ((d.peer p).pdev = some (c.f 0 1))) = false := by
    simpa [upTo] using hfree
  rw [Dev.cmdSetDevnum, Dev.checked_ok]
  simp [hany, hnew]; omega

/-- A device that has its number keeps it. -/
theorem Dev.cmdSetDevnum_conflict {n : Nat} (hset : d.devnum = some n) : d.cmdSetDevnum c = d.answer c 8 := by
  rw [Dev.cmdSetDevnum, Dev.checked_passed _ _ _ _ _ _ (by simpa using hn),
    Dev.checked_failed _ _ _ _ _ (by rw [hset]; rfl) (by decide)]
  rfl

end

/-! ### GET_INFO, functions and firmware (R412, R426, R449, R450) -/

theorem Dev.infoBytes_length (d : Dev) : d.infoBytes.length = 12 := by
  simp [Dev.infoBytes, pack, packFrom, alignUp, zeros]

/-- GET_INFO answers the whole of the information, v1 INFO its first 8 bytes (R428). -/
theorem completes_info {s : State} {c : Cmd} {i : Instr} {n : Nat} {P : Dev → Prop}
    (hi : (i = .getInfo ∧ n = 12 ∧ s.holds c 0x0100) ∨ (i = .info ∧ n = 8 ∧ s.holds c 0x01 true))
    (hP : P (s.dev.ok c (s.dev.infoBytes.take n))) : Completes i s P := by
  obtain ⟨rfl, rfl, hc⟩ | ⟨rfl, rfl, hc⟩ := hi
  · refine completes_held (f := Dev.cmdGetInfo) rfl rfl hc ?_
    rwa [List.take_of_length_le (Nat.le_of_eq s.dev.infoBytes_length)] at hP
  · exact completes_held (f := Dev.cmdInfo) rfl rfl hc hP

/-- What FN_ASSIGN gives its function. -/
def Cmd.fnRes (c : Cmd) : FnRes :=
  { bar2log := c.f 1 1, msFirst := c.f 2 2, msCount := c.f 4 2, engmask := c.f 8 4, fhmask := c.f 12 4
    dramBase := c.f 16 8 }

/-- The other functions that hold resources are among those of R412, and none is the function itself. -/
theorem mem_otherFns {fn o : Nat} : o ∈ otherFns fn ↔ o ∈ [1, 2, 3, 4, 6] ∧ o ≠ fn := by
  simp [otherFns, List.mem_filter]

/-- Resources that no other function holds are assigned. -/
theorem Dev.cmdFnAssign_ok {d : Dev} {c : Cmd} (hfn : (1 ≤ c.f 0 1 ∧ c.f 0 1 ≤ 4) ∨ c.f 0 1 = 6)
    (hlog : c.f 1 1 ≤ 6 ∨ c.f 1 1 = 0xFF) (hms : c.f 2 2 + c.f 4 2 ≤ 4096)
    (hfree : ∀ o ∈ [1, 2, 3, 4, 6], o ≠ c.f 0 1 →
      (c.f 2 2 + c.f 4 2 ≤ (d.fnOf o).msFirst ∨ (d.fnOf o).msFirst + (d.fnOf o).msCount ≤ c.f 2 2) ∧
      c.f 8 4 &&& (d.fnOf o).engmask = 0 ∧ c.f 12 4 &&& (d.fnOf o).fhmask = 0)
    (hbar : c.f 0 1 ≤ 4 → d.ports.vfs = true →
      c.f 1 1 = (d.fnOf (c.f 0 1)).bar2log ∧ c.f 16 8 = (d.fnOf (c.f 0 1)).dramBase) :
    d.cmdFnAssign c = Dev.ok { d with cp := { d.cp with fns := tset d.cp.fns (c.f 0 1) c.fnRes } } c := by
  have hother (o : Nat) (ho : o ∈ otherFns (c.f 0 1)) :=
    let ⟨hmem, hne⟩ := mem_otherFns.mp ho
    hfree o hmem hne
  rw [Dev.cmdFnAssign, Dev.checked_ok]
  · rfl
  · simp only [List.mem_cons, List.not_mem_nil, or_false, forall_eq_or_imp, forall_eq]
    refine ⟨?function, ?bar2, ?milestones, ?engines, ?ports, ?vfsOn⟩
    case function => simp; omega
    case bar2 => simp; omega
    case milestones =>
      simp only [Bool.or_eq_false_iff, Bool.and_eq_false_imp, decide_eq_false_iff_not, List.any_map, List.any_eq_false]
      refine ⟨by omega, fun _ o ho => ?_⟩
      obtain ⟨hapart, -, -⟩ := hother o ho
      simp; omega
    case engines =>
      simp only [List.any_map, List.any_eq_false]
      intro o ho
      obtain ⟨-, hengines, -⟩ := hother o ho
      simp [hengines]
    case ports =>
      simp only [List.any_map, List.any_eq_false]
      intro o ho
      obtain ⟨-, -, hports⟩ := hother o ho
      simp [hports]
    case vfsOn =>
      have hkept : 1 ≤ c.f 0 1 → c.f 0 1 ≤ 4 → d.ports.vfs = true →
          c.f 1 1 = (d.fnOf (c.f 0 1)).bar2log ∧ c.f 16 8 = (d.fnOf (c.f 0 1)).dramBase := fun _ => hbar
      simpa using hkept

/-- A FW_UPDATE of the other slot, or of any in recovery, begins its long work. -/
theorem Dev.cmdFwUpdate_ok {d : Dev} {c : Cmd} (hslot : c.f 0 1 ≤ 1) (hother : c.f 0 1 = d.cp.slot → d.cp.recovery = true)
    (hmin : 512 ≤ c.f 4 4) (hmax : c.f 4 4 ≤ slotSize (c.f 0 1)) (halign : c.f 8 8 % 8 = 0)
    (hdram : inDram (c.f 8 8) (c.f 4 4) = true) (hlc : d.lcChanging = false) : d.cmdFwUpdate c = d.startJob c := by
  rw [Dev.cmdFwUpdate, Dev.checked_ok]
  simpa [halign, hdram, hlc, hmin, hmax, hslot] using hother

/-! ### Direct grants (R434) -/

/-- The window that GRANT_DIRECT opens is the lowest that is closed. -/
theorem find_lowest_free {l : Tbl (Nat × Nat)} {w : Nat} (hw : w < 8) (hfree : tfind l w = none)
    (hlow : ∀ v, v < w → tfind l v ≠ none) : (upTo 8).find? (fun v => (tfind l v).isNone) = some w := by
  rw [upTo, List.find?_range_eq_some]
  refine ⟨by simp [hfree], List.mem_range.mpr hw, fun v hv => ?_⟩
  simpa [Option.isSome_iff_ne_none] using hlow v hv

/-- A grant of registers that may be granted, in no open window, opens one. -/
theorem Dev.cmdGrantDirect_ok {d : Dev} {c : Cmd} {w : Nat} (ha : c.f 0 4 % 4 = 0) (hl : c.f 4 4 % 4 = 0) (hmin : 4 ≤ c.f 4 4)
    (hmax : c.f 4 4 ≤ 4096) (hreg : ∀ k, k < c.f 4 4 / 4 → d.grantable (c.f 0 4 + 4 * k) = true)
    (hcov : d.covered (c.f 0 4) (c.f 4 4) = false) (hfree : (upTo 8).find? (fun v => (tfind d.cp.windows v).isNone) = some w) :
    d.cmdGrantDirect c =
      Dev.ok { d with cp := { d.cp with windows := tset d.cp.windows w (c.f 0 4, c.f 4 4) } } c [BitVec.ofNat 8 w] := by
  have hall : ((upTo (c.f 4 4 / 4)).all fun k => d.grantable (c.f 0 4 + 4 * k)) = true := by
    simpa [upTo] using hreg
  simp only [Dev.cmdGrantDirect, hfree]
  rw [Dev.checked_ok]
  · rfl
  · simp [ha, hl, hcov, hall]; omega

/-- An open window is closed. -/
theorem Dev.cmdRevokeDirect_ok {d : Dev} {c : Cmd} (h : tfind d.cp.windows (c.f 0 1) ≠ none) :
    d.cmdRevokeDirect c = Dev.ok { d with cp := { d.cp with windows := tdrop d.cp.windows (c.f 0 1) } } c := by
  rw [Dev.cmdRevokeDirect, Dev.checked_ok]
  simpa [Option.isSome_iff_ne_none] using h

/-- Settles O45: every command whose fields are in range passes its checks; a SET_DEVNUM of a device that has its number
fails the second. -/
theorem identityFirmwareAndGrants : Obligations.IdentityFirmwareAndGrants := by
  unfold Obligations.IdentityFirmwareAndGrants
  refine ⟨?info, ?setDevnum, ?devnumSet, ?fnAssign, ?fwUpdate, ?fwSelect, ?grant, ?revoke⟩
  case info =>
    intro s c i n hi
    exact completes_info hi (Dev.ok_answersWith _ _ _)
  case setDevnum =>
    intro s c hc hn hnew hfree
    refine completes_held (f := Dev.cmdSetDevnum) rfl rfl hc ?_
    rw [Dev.cmdSetDevnum_ok hn hnew hfree]
    have hframe := Dev.checkConflicts_frame { s.dev with devnum := some (c.f 0 1) }
    refine ⟨_, Dev.ok_answersWith _ _ _, by rw [hframe], ?_, Dev.checkConflicts_of_no_clash⟩
    rw [hframe]
  case devnumSet =>
    intro s c n hc hn hset
    refine completes_held (f := Dev.cmdSetDevnum) rfl rfl hc ?_
    rw [Dev.cmdSetDevnum_conflict hn hset]
    exact Dev.answer_answersWith _ _ _ _ _
  case fnAssign =>
    intro s c hc hfn hlog hms hfree hbar
    refine completes_held (f := Dev.cmdFnAssign) rfl rfl hc ?_
    rw [Dev.cmdFnAssign_ok hfn hlog hms hfree hbar]
    exact Dev.ok_answersWith _ _ _
  case fwUpdate =>
    intro s c hc hslot hother hmin hmax halign hdram hlc
    refine completes_held (f := Dev.cmdFwUpdate) rfl rfl hc ?_
    rw [Dev.cmdFwUpdate_ok hslot hother hmin hmax halign hdram hlc]
    exact Dev.startJob_begins _ _
  case fwSelect =>
    intro s c hc hslot
    refine completes_held (f := Dev.cmdFwSelect) rfl rfl hc ?_
    rw [Dev.cmdFwSelect, Dev.checked_ok _ _ _ _ (by simpa using hslot)]
    exact Dev.ok_answersWith _ _ _
  case grant =>
    intro s c w hc ha hl hmin hmax hreg hcov hw hclosed hlow
    refine completes_held (f := Dev.cmdGrantDirect) rfl rfl hc ?_
    rw [Dev.cmdGrantDirect_ok ha hl hmin hmax hreg hcov (find_lowest_free hw hclosed hlow)]
    exact Dev.ok_answersWith _ _ _
  case revoke =>
    intro s c hc hopen
    refine completes_held (f := Dev.cmdRevokeDirect) rfl rfl hc ?_
    rw [Dev.cmdRevokeDirect_ok hopen]
    have hans := Dev.ok_answersWith { s.dev with cp := { s.dev.cp with windows := tdrop s.dev.cp.windows (c.f 0 1) } } c []
    refine ⟨?_, hans⟩
    obtain ⟨-, -, hd⟩ := hans
    rw [hd]
    exact tfind_tdrop_same _ _

end Sys2Proof.Machine

/-!
The sparsity family: the residency table over a reset.
-/
namespace Sys2Proof.Machine

/-! ### What a reset leaves of the residency table and of the engines (R188, R440) -/

/-- No expert is resident, and no engine has a residency slot. -/
def Dev.nothingResident (d : Dev) : Prop := (∀ k, tget d.res k 0#256 = 0#256) ∧ ∀ e, (d.eng e).rslots = []

theorem Dev.nothingResident_of_nil {d : Dev} (hres : d.res = []) (hengs : d.engs = []) : d.nothingResident := by
  refine ⟨fun k => ?_, fun e => ?_⟩
  · rw [hres]; rfl
  · rw [Dev.eng, hengs]; rfl

@[simp] theorem Dev.bootSlot_res (d : Dev) (slot : Nat) (fallback : Bool) : (d.bootSlot slot fallback).res = d.res := by
  unfold Dev.bootSlot; dsimp only; split
  · rw [Dev.logNow_res]
  · rfl

@[simp] theorem Dev.bootSlot_engs (d : Dev) (slot : Nat) (fallback : Bool) : (d.bootSlot slot fallback).engs = d.engs := by
  unfold Dev.bootSlot; dsimp only; split
  · rw [Dev.logNow_engs]
  · rfl

/-- Whatever the boot ROM boots, it leaves the residency table alone. -/
@[simp] theorem Dev.boot_res (d : Dev) : d.boot.res = d.res := by
  unfold Dev.boot; dsimp only; split
  · rfl
  · split
    · exact Dev.bootSlot_res _ _ _
    · split
      · exact (Dev.bootSlot_res _ _ _).trans (Dev.logNow_res _ _ _ _)
      · rfl

/-- Whatever the boot ROM boots, it leaves the engines alone. -/
@[simp] theorem Dev.boot_engs (d : Dev) : d.boot.engs = d.engs := by
  unfold Dev.boot; dsimp only; split
  · rfl
  · split
    · exact Dev.bootSlot_engs _ _ _
    · split
      · exact (Dev.bootSlot_engs _ _ _).trans (Dev.logNow_engs _ _ _ _)
      · rfl

/-- After the wipe a reset makes its log entry and sets the AUX channels: registers alone. -/
theorem Dev.resetHeld_frame (d : Dev) (t : ResetType) (straps : Nat) :
    ∃ fs, d.resetHeld t straps =
      { (d.wiped t straps).logNow srcPackage 0x0001 fs with regs := (d.resetHeld t straps).regs } :=
  ⟨_, Dev.regs_foldl _ _ (fun _ _ => rfl) _⟩

theorem Dev.resetHeld_res (d : Dev) (t : ResetType) (straps : Nat) : (d.resetHeld t straps).res = [] := by
  obtain ⟨fs, hframe⟩ := d.resetHeld_frame t straps
  rw [hframe]
  exact Dev.logNow_res _ _ _ _

theorem Dev.resetHeld_engs (d : Dev) (t : ResetType) (straps : Nat) : (d.resetHeld t straps).engs = [] := by
  obtain ⟨fs, hframe⟩ := d.resetHeld_frame t straps
  rw [hframe]
  exact Dev.logNow_engs _ _ _ _

theorem Dev.resetHeld_nothingResident (d : Dev) (t : ResetType) (straps : Nat) : (d.resetHeld t straps).nothingResident :=
  Dev.nothingResident_of_nil (d.resetHeld_res t straps) (d.resetHeld_engs t straps)

theorem Dev.reset_nothingResident (d : Dev) (t : ResetType) (straps : Nat) : (d.reset t straps).nothingResident :=
  Dev.nothingResident_of_nil ((Dev.boot_res _).trans (d.resetHeld_res t straps))
    ((Dev.boot_engs _).trans (d.resetHeld_engs t straps))

/-! ### When each kind of reset runs (R374, R375, R439, R441, R455) -/

/-- The cold reset of a device that no trip holds. -/
theorem Dev.pwrgdRise_untripped {d : Dev} (straps : Nat) (h : d.th.tripped = none) :
    d.pwrgdRise straps = Dev.reset { d with cp := { d.cp with pwrgd := true, straps } } .cold straps := by
  simp [Dev.pwrgdRise, h]

theorem Dev.clearLatch_cp (d : Dev) : d.clearLatch.cp = d.cp := by
  unfold Dev.clearLatch; split <;> rfl

/-- The PERST reset stops short of the boot, which waits for the release. -/
theorem Dev.perstAssert_powered {d : Dev} (hon : d.cp.powered = true) (hgood : d.cp.pwrgd = true) :
    d.perstAssert = (Dev.clearLatch { d with cp := { d.cp with perst := true } }).resetHeld .perst d.cp.straps := by
  simp [Dev.perstAssert, Dev.clearLatch_cp, hon, hgood]

/-- A reset that was ordered runs once it is due, the life-cycle change's in its own row. -/
theorem Dev.orderedReset_due {d : Dev} {t : Nat} {k : ResetType} {life : Bool} (straps : Nat)
    (hat : d.cp.resetAt = some (t, k)) (hlife : k = .lifeCycle ↔ life = true) (hdue : t ≤ d.time) :
    d.orderedReset life straps = d.reset k straps := by
  simp [Dev.orderedReset, hat, hlife, hdue]

/-- The thermal restart of a device that has waited and is cool. -/
theorem Dev.thermalRestart_due {d : Dev} {t : Nat} (straps : Nat) (htrip : d.th.tripped = some t)
    (hdue : t + 10 * tcPerSec ≤ d.aon) (hoff : d.cp.powered = false) (hlatch : d.th.latched = false)
    (hgood : d.cp.pwrgd = true)
    (hcool : ∀ n, n < 96 → (d.sensor n).fault = true ∨ (d.sensor n).temp < restartBelow (sensorClass n)) :
    d.thermalRestart straps = d.reset .thermal straps := by
  have hall : ((upTo 96).all fun n =>
      (d.sensor n).fault || decide ((d.sensor n).temp < restartBelow (sensorClass n))) = true := by
    simpa [upTo] using hcool
  simp [Dev.thermalRestart, htrip, hdue, hoff, hlatch, hgood, hall]

/-- Settles O58: each row reaches its reset, whose wipe empties the residency table and the engines; neither the log entry,
the AUX channels nor the boot ROM put anything back. -/
theorem nothingResidentAfterReset : Obligations.NothingResidentAfterReset := by
  unfold Obligations.NothingResidentAfterReset
  change ∀ i s, _ → Completes i s Dev.nothingResident
  rintro i s (⟨straps, rfl, hstraps, htrip⟩ | ⟨rfl, hon, hgood⟩ | ⟨t, k, rfl, hon, hat, hdue, hk⟩ |
    ⟨t, straps, rfl, hstraps, hon, hat, hdue⟩ | ⟨w, rfl, hw, hon⟩ |
    ⟨straps, t, rfl, hstraps, htrip, hdue, hoff, hlatch, hgood, hcool⟩)
  · -- cold
    refine completes_of rfl (decide_eq_true hstraps) ?_
    rw [Dev.pwrgdRise_untripped straps htrip]
    exact Dev.reset_nothingResident _ _ _
  · -- PERST
    refine completes_of rfl rfl ?_
    rw [Dev.perstAssert_powered hon hgood]
    exact Dev.resetHeld_nothingResident _ _ _
  · -- ordered by a command
    refine completes_on rfl rfl hon ?_
    rw [Dev.orderedReset_due _ hat (by simpa using hk) hdue]
    exact Dev.reset_nothingResident _ _ _
  · -- life-cycle change
    refine completes_on rfl (decide_eq_true hstraps) hon ?_
    rw [Dev.orderedReset_due _ hat (by simp) hdue]
    exact Dev.reset_nothingResident _ _ _
  · -- CP watchdog
    refine completes_on rfl (decide_eq_true hw) hon ?_
    exact Dev.reset_nothingResident _ _ _
  · -- thermal restart
    refine completes_of rfl (decide_eq_true hstraps) ?_
    rw [Dev.thermalRestart_due straps htrip hdue hoff hlatch hgood hcool]
    exact Dev.reset_nothingResident _ _ _

end Sys2Proof.Machine

/-!
The Tollgate family: TG_FREEZE, and a register index beyond its array.
-/
namespace Sys2Proof.Machine

/-! ### TG_FREEZE (R264, R269) -/

/-- A TG_FREEZE in range writes FREEZE, and MODE is judged again. -/
theorem Dev.cmdTgFreeze_ok {d : Dev} {c : Cmd} (htg : c.f 0 1 ≤ 53) (hfreeze : c.f 1 1 ≤ 1) :
    d.cmdTgFreeze c = ((d.setReg .TG_CTRL (c.f 1 1) (c.f 0 1)).judgeMode (c.f 0 1)).ok c := by
  refine Dev.checked_ok _ _ _ _ ?_
  simp [htg, hfreeze]

/-- Judging a Tollgate's MODE leaves every TG_CTRL alone. -/
theorem Dev.reg_judgeMode_ctrl (d : Dev) (n m : Nat) : (d.judgeMode n).reg .TG_CTRL m = d.reg .TG_CTRL m := by
  refine Dev.reg_setReg_ne _ _ _ _ _ _ _ _ _ _ ?_
  simp [RegName.off, RegName.row, dimOff]
  omega

/-- `Dev.reg` takes any index: entry 961 of the 24 of TG_REQCLS lies at the offset of Tollgate 0's TG_CTRL. -/
theorem Dev.reg_reqcls_beyond (d : Dev) : d.reg .TG_REQCLS 961 = d.reg .TG_CTRL 0 := rfl

/-- The TG_FREEZE of MBX0 that freezes Tollgate 0. -/
def freezeGate0 : Cmd :=
  { mbx := 0, v1 := false, opcode := 0x0C00, async := false, seq := 0, hostts := 0, payload := [0#8, 1#8] }

/-- A state with every register at reset, in which the CP holds the command `freezeGate0`. -/
def freezing : State := { dev := { cp := { cur := some freezeGate0 } } }

/-- Refutes O55, in its clause for TG_FREEZE. The frame of that clause speaks of every register under every index, also those
beyond its array. In `freezing` the command takes Tollgate 0's TG_CTRL from 0 to 1 (R269), and with it what TG_REQCLS reads
under index 961, which is neither of the registers that the frame leaves out. -/
theorem not_portAndTollgateCommands : ¬ Obligations.PortAndTollgateCommands := by
  unfold Obligations.PortAndTollgateCommands
  rintro ⟨-, -, -, -, -, -, -, -, -, hfreeze, -⟩
  have hc : freezing.holds freezeGate0 0x0C00 := ⟨rfl, rfl, rfl, rfl⟩
  have htg : freezeGate0.f 0 1 = 0 := by decide
  have hon : freezeGate0.f 1 1 = 1 := by decide
  have hcalm : freezing.dev.calm := ⟨fun _ _ _ _ _ _ _ _ _ _ => nofun, rfl⟩
  -- What the command does in that state: TG_CTRL written, MODE judged, and its answer.
  have hrun : Completes .tgFreeze freezing fun x => x = freezing.dev.cmdTgFreeze freezeGate0 :=
    completes_held (f := Dev.cmdTgFreeze) rfl rfl hc rfl
  rw [Dev.cmdTgFreeze_ok (by omega) (by omega), htg, hon] at hrun
  have hdone := Dev.ok_answersWith ((freezing.dev.setReg .TG_CTRL 1 0).judgeMode 0) freezeGate0 []
  have hwritten := (Dev.answersWith_reg hdone .TG_CTRL 0 0 0).trans
    ((Dev.reg_judgeMode_ctrl _ 0 0).trans (Dev.reg_setReg_same _ _ _ _ _ _))
  -- The device that the statement names ends as that one does, and so has its registers.
  obtain ⟨d, ⟨-, -, -, hframe, hstated⟩, hsame⟩ :=
    (hfreeze freezing freezeGate0 hc (by omega) (by omega)).finish_eq hrun
  have hregs := congrArg Dev.regs hsame
  rw [Dev.finish_regs_of_calm _ (Dev.calm_of_answersWith hstated hcalm),
    Dev.finish_regs_of_calm _ (Dev.calm_of_answersWith hdone hcalm)] at hregs
  -- Under index 961 of TG_REQCLS the frame holds TG_CTRL where it was.
  have hheld := hframe .TG_REQCLS 961 0 0 nofun nofun
  rw [Dev.reg_reqcls_beyond, Dev.reg_reqcls_beyond] at hheld
  rw [Dev.reg, hregs] at hheld
  exact absurd (hwritten.symm.trans hheld) (by decide)

end Sys2Proof.Machine
